-- ==== Sys2Proof/Word.lean ====
section
/-!
DEFINITION. The word types of the ZW256: bytes, 32-bit little-endian registers (R13), short stamps (R11).
-/
namespace Sys2Proof

/-- One byte. -/
abbrev Byte := BitVec 8

/-- One 32-bit register (R13). -/
abbrev Word := BitVec 32

/-- A 64-bit short stamp (R11): SCLK cycles in bits [63:8], fine steps in bits [7:0]. -/
abbrev Short := BitVec 64

/-- An 80-bit full stamp (R11): EP in bits [79:64], the short stamp below. -/
abbrev Full := BitVec 80

/-- A sparse table keyed by number: the list of its entries with rising keys; an unlisted key is at the default that the
accessors are given (Machine/Ops.lean). -/
abbrev Tab (α : Type) := List (Nat × α)

end Sys2Proof
end

