-- ==== Sys2Proof/Syntax.lean ====
section
/-!
DEFINITION. The commands and events of the block: one constructor of `Instr` per row of spec/opcode_table.json.
A host command row carries the accepted packet's header fields and its parameter block byte for byte (R327, R359);
an event row carries what the outside world supplies with it (a sampled zone, a stamp, a measured value, a message).
-/
namespace Sys2Proof

/-- An accepted command as its row sees it: the header of R327, the arrival interface (0 to 5 a port, 6 SPI), whether
it counts as arrived on an OBSERVE port (R329, R401), and the parameter block. -/
structure Cmd where
  qid : BitVec 16
  tag : BitVec 16
  seq : BitVec 32
  scope : BitVec 2
  index : BitVec 30
  src : BitVec 3
  obs : Bool
  params : List Byte
  deriving DecidableEq, Repr

/-- Who makes a register write: a DEV.REG_WRITE of the host, or the PIN or BAY unit of an engine (0 to 127 the slice
engines, 128 + k the engine of BAY_k, R171). -/
inductive Agent where
  | host (c : Cmd)
  | engine (e : Fin 144)
  deriving DecidableEq, Repr

/-- The zone of a window monitor (R269). -/
inductive MonZone where
  | below
  | inside
  | above
  deriving DecidableEq, Repr

/-- The registers of the waveform source whose write is phase-continuous (R290). -/
inductive DdsReg where
  | amp
  | ftwLo
  | ftwHi
  | poff
  deriving DecidableEq, Repr

/-- What the comparator of one site pin gives in one vector (R75): the zone at STB, the zones met in the window outside
the expected ones are summed up in `exc` (one excursion of at least the minimum detectable pulse). -/
structure StrobeObs where
  zone : BitVec 2
  exc : Bool
  deriving DecidableEq, Repr

/-- An error that a scrub pass finds in one 32-byte unit (R108). -/
structure MemErr where
  unit : Nat
  fatal : Bool
  deriving DecidableEq, Repr

/-- A unit that fails on its own (R33). -/
inductive FenceUnit where
  | slice (n : Fin 128)
  | bay (k : Fin 16)
  | peDie (j : Fin 2)
  deriving DecidableEq, Repr

/-- The quality fields of an Announce message (R418). -/
structure PtpQuality where
  priority1 : BitVec 8 := 128
  priority2 : BitVec 8 := 128
  clockClass : BitVec 8 := 248
  clockAccuracy : BitVec 8 := 0xFE
  variance : BitVec 16 := 0xFFFF
  steps : BitVec 16 := 0
  identity : BitVec 64 := 0
  deriving DecidableEq, Repr

/-- The fields of a received IEEE 1588 message that the profile of R418 uses. `time` is sec, ns of its timestamp field
and `corr` its correctionField in 2^-16 ns. -/
structure PtpMsg where
  version : BitVec 4
  domain : BitVec 8
  srcDev : BitVec 10
  seqId : BitVec 16
  twoStep : Bool
  forMe : Bool
  sec : BitVec 48
  ns : BitVec 32
  corr : Int
  quality : PtpQuality := {}
  deriving DecidableEq, Repr

/-- A cross-device trigger message (R399 MTYPE 0x22, R315): kind 0 arm, 1 ready, 2 fire, 3 disarm. -/
structure TrgMsg where
  mcg : BitVec 8
  kind : BitVec 2
  dev : BitVec 10
  bay : BitVec 4
  gseq : BitVec 32
  t : Full
  deriving DecidableEq, Repr

/-- What training finds about the peer (R390 to R395). -/
structure TrainInfo where
  devid : BitVec 10
  port : BitVec 3
  pre : Bool
  laneMap : BitVec 8
  polInv : BitVec 4
  skew : BitVec 7
  credits : List Nat
  deriving DecidableEq, Repr

/-- A codeword at the receiver (R385): the 514 message symbols as sent, and how many of the 544 symbols arrived wrong. -/
structure Codeword where
  msg : List (BitVec 10)
  errors : Nat
  deriving DecidableEq, Repr

/-- The rows of spec/opcode_table.json. -/
inductive Instr where
  /-- DEV_INFO (R364): Returns silicon revision, DEVID, part code and active firmware version. -/
  | devInfo (c : Cmd)
  /-- DEV_REG_READ (R364): Reads one register of the device address map and returns its value in W6. -/
  | devRegRead (c : Cmd) (zone : BitVec 2)
  /-- DEV_REG_WRITE (R13): Writes a register that has no row of its own, applying its field checks and the reserved-bit and refusal rules. -/
  | devRegWrite (c : Cmd)
  /-- DEV_RESET_SLICE (R490): Resets one slice: its pins go SAFE, its work ends ABORTED_RESET and sites using it end. -/
  | devResetSlice (c : Cmd)
  /-- DEV_RESET_BAY (R490): Resets one bay: its pins go SAFE, its outputs trip off and its work ends ABORTED_RESET. -/
  | devResetBay (c : Cmd)
  /-- DEV_RESET_WARM (R364): Journals its own OK completion and then begins a warm reset. -/
  | devResetWarm (c : Cmd)
  /-- DEV_FW_STAGE (R493): Copies a signed firmware image into the standby management pair and verifies it. -/
  | devFwStage (c : Cmd)
  /-- DEV_FW_SWITCH (R494): Hands control to the standby pair at a command boundary and begins probation. -/
  | devFwSwitch (c : Cmd)
  /-- QUE_CREATE (R333): Creates a submission queue with its context and intake space. -/
  | queCreate (c : Cmd)
  /-- QUE_DELETE (R333): Moves a queue to CLOSING, first flushing it if it is HALTED. -/
  | queDelete (c : Cmd)
  /-- QUE_RESUME (R351): Reopens a HALTED queue by SKIP, RETRY or FLUSH. -/
  | queResume (c : Cmd)
  /-- QUE_STATUS (R330): Returns the Granary address of a queue or CQ context. -/
  | queStatus (c : Cmd)
  /-- QUE_CQ_CREATE (R365): Creates a completion queue and places its ring in the queue region. -/
  | queCqCreate (c : Cmd)
  /-- QUE_CQ_DELETE (R365): Removes a completion queue that no open queue names. -/
  | queCqDelete (c : Cmd)
  /-- GRN_READ (R94): Reads Granary bytes at any address and returns them as a data message. -/
  | grnRead (c : Cmd)
  /-- GRN_WRITE (R95): Writes pattern-region bytes and moves the segment to LOADING unless it is ACTIVE. -/
  | grnWrite (c : Cmd)
  /-- GRN_SEAL (R98): Starts a CRC-32C check of a LOADING segment over its sealed length. -/
  | grnSeal (c : Cmd)
  /-- SEAL_CHECK_DONE (R98): The seal check ends and the segment becomes READY or the seal fails SEG_CRC. -/
  | sealCheckDone (slot : BitVec 16)
  /-- GRN_RELEASE (R96): Frees a LOADING or READY segment, abandoning any running seal check. -/
  | grnRelease (c : Cmd)
  /-- GRN_SEG_STATUS (R366): Reports slot states, listing Sheaves and refill deadlines. -/
  | grnSegStatus (c : Cmd)
  /-- GRN_CAP_FREE (R366): Frees an allocated capture buffer that no work still writes. -/
  | grnCapFree (c : Cmd)
  /-- GRN_STACK_REJOIN (R114): Retrains a fenced stack and starts copying mirrored regions into it. -/
  | grnStackRejoin (c : Cmd) (trainOk : Bool)
  /-- STACK_REJOIN_COPY_DONE (R114): The rejoin copies finish, the stack reads OK and single-journal mode ends. -/
  | stackRejoinCopyDone (j : Fin 2)
  /-- STR_SITE (R128): Defines or replaces a site from its site map. -/
  | strSite (c : Cmd)
  /-- STR_SITE_RELEASE (R128): Frees a site's resources and removes its map. -/
  | strSiteRelease (c : Cmd)
  /-- STR_SHEAF (R130): Defines or removes a Sheaf from a member bitmap. -/
  | strSheaf (c : Cmd)
  /-- STR_START (R137): Checks a stream start in order and requests admission of the run. -/
  | strStart (c : Cmd)
  /-- STR_STOP (R144): Ends a Sheaf or one site at the next vector boundary, or cancels a start. -/
  | strStop (c : Cmd)
  /-- STR_JUMP (R139): Requests a jump of a running Sheaf to a JTGT position. -/
  | strJump (c : Cmd)
  /-- STR_STATUS (R367): Returns the Sheaf front or a site's progress. -/
  | strStatus (c : Cmd)
  /-- ENG_CALL (R160): Places a call with arguments in an engine's call FIFO. -/
  | engCall (c : Cmd)
  /-- ENG_STORE_MASTER (R173): Checks a control-store image and writes it into the unselected master bank. -/
  | engStoreMaster (c : Cmd)
  /-- ENG_RELOAD (R174): Loads an engine's store from a master bank, waiting for IDLE if asked. -/
  | engReload (c : Cmd)
  /-- CS_LOAD_DONE (R175): A control-store load finishes its verify and the engine becomes IDLE or stays fenced. -/
  | csLoadDone (e : Fin 144) (ok1 : Bool) (ok2 : Bool)
  /-- PIN_LEVELS (R369): Sets drive levels, VTT and VCOM of pins as one change. -/
  | pinLevels (c : Cmd)
  /-- PIN_THRESH (R369): Sets and commits the TA, TB, TC threshold triple. -/
  | pinThresh (c : Cmd)
  /-- PIN_LOAD (R369): Sets active-load source and sink currents. -/
  | pinLoad (c : Cmd)
  /-- PIN_CLAMP (R369): Sets clamp levels after checking their spacing. -/
  | pinClamp (c : Cmd)
  /-- PIN_CTRL (R369): Applies PIN_CTRL and PIN_SYMCFG images as register writes. -/
  | pinCtrl (c : Cmd)
  /-- PIN_TSET (R369): Writes a timing set and reports whether it is valid. -/
  | pinTset (c : Cmd)
  /-- DAC_SETTLED (R44): Changed pin DACs finish settling, SETTLING clears and the write completes. -/
  | dacSettled (p : Fin 256)
  /-- PIN_CTRL_WRITE (R52): A write of PIN_CTRL that may release or safe the pin and applies CLAMP_EN as one change. -/
  | pinCtrlWrite (a : Agent) (p : Fin 256) (v : BitVec 32)
  /-- PIN_THC_WRITE (R48): A write of PIN_THC checks the staged thresholds and commits the triple. -/
  | pinThcWrite (a : Agent) (p : Fin 256) (v : BitVec 32)
  /-- CLAMP_CONDUCT (R56): A clamp conducts above its flag threshold and sets CLAMP_HI or CLAMP_LO. -/
  | clampConduct (p : Fin 256) (high : Bool)
  /-- DRV_LIMIT_SAFE (R58): The driver current limit has acted for 2 µs and the pin is safed with SAFED set. -/
  | drvLimitSafe (p : Fin 256)
  /-- PMU_FV (R194): Connects the PMU and forces a voltage on a pin. -/
  | pmuFv (c : Cmd) (senseOpen : Bool)
  /-- PMU_FI (R194): Connects the PMU and forces a current on a pin. -/
  | pmuFi (c : Cmd) (senseOpen : Bool)
  /-- PMU_MV (R190): Puts a pin's PMU into voltage-measure mode. -/
  | pmuMv (c : Cmd) (senseOpen : Bool)
  /-- PMU_MEAS (R202): Starts an averaged voltage or current measurement. -/
  | pmuMeas (c : Cmd)
  /-- PMU_DISC (R195): Releases the PMU and returns it to OFF. -/
  | pmuDisc (c : Cmd)
  /-- PMU_SETTLED (R200): The forced value settles and a waiting PMU command completes. -/
  | pmuSettled (p : Fin 256)
  /-- PMU_MEAS_DONE (R202): A measurement's last sample ends and its mean and flags are delivered. -/
  | pmuMeasDone (p : Fin 256) (mean : Int) (flags : BitVec 4)
  /-- PMU_COMPLIANCE (R199): The PMU reaches its compliance limit and sets AT_LIMIT and LIM_SEEN. -/
  | pmuCompliance (p : Fin 256)
  /-- PMU_CAL_COMMIT (R207): A background PMU calibration table is committed and CE advances. -/
  | pmuCalCommit (p : Fin 256)
  /-- TDC_CAPTURE (R234): Starts stamp capture on named pins into a capture buffer. -/
  | tdcCapture (c : Cmd)
  /-- TDC_INTERVAL (R239): Starts an interval unit pairing start and stop stamps. -/
  | tdcInterval (c : Cmd)
  /-- TDC_FREQ (R245): Opens a reciprocal frequency gate on a pin. -/
  | tdcFreq (c : Cmd)
  /-- TDC_STOP (R371): Ends a named capture, interval or frequency measurement. -/
  | tdcStop (c : Cmd)
  /-- TDC_CAL_READ (R251): Writes a pin's two TDC calibration tables into a buffer. -/
  | tdcCalRead (c : Cmd)
  /-- TDC_EDGE (R228): A threshold crossing is stamped and delivered to taps and FIFO. -/
  | tdcEdge (p : Fin 256) (rise : Bool) (cycle : BitVec 56) (code : BitVec 8)
  /-- TDC_CAPTURE_END (R238): A stamp capture reaches its end time, writes headers and completes. -/
  | tdcCaptureEnd (slot : BitVec 16)
  /-- TDC_INTERVAL_TIMEOUT (R244): An interval unit's timeout expires and it completes. -/
  | tdcIntervalTimeout (n : Fin 128)
  /-- TDC_FREQ_GATE_CLOSE (R245): The frequency gate closes and the next edge ends the measurement. -/
  | tdcFreqGateClose (p : Fin 256)
  /-- TDC_FREQ_NO_SIGNAL (R246): No end edge arrives within G after the gate closes; the result is 0 with NO_SIGNAL. -/
  | tdcFreqNoSignal (p : Fin 256)
  /-- TDC_CAL_ROUND_START (R248): A calibration round starts on period or temperature change. -/
  | tdcCalRoundStart
  /-- TDC_TABLE_CHECK (R249): A calibrating table reaches 2^20 hits and is checked. -/
  | tdcTableCheck (p : Fin 256) (hits : List Nat)
  /-- TDC_CAL_COMMIT (R248): Interpolators with accepted tables swap roles and CE advances. -/
  | tdcCalCommit
  /-- PWR_ON (R263): Turns a DUT power output on through its ramp to power good. -/
  | pwrOn (c : Cmd)
  /-- PWR_OFF (R263): Ramps an output down and turns its gate off. -/
  | pwrOff (c : Cmd)
  /-- PWR_SET (R372): Changes an output's set point. -/
  | pwrSet (c : Cmd)
  /-- PWR_SEQ (R267): Runs up to eight ON or OFF steps over a site's controllers. -/
  | pwrSeq (c : Cmd)
  /-- PWR_SEQ_STEP (R267): A sequence step's delay expires and the step acts. The sequence is named by the controller of its first step. -/
  | pwrSeqStep (d : Fin 32)
  /-- PWR_MEAS (R372): Returns an output's voltage and current. -/
  | pwrMeas (c : Cmd) (uv : Int) (ua : Int)
  /-- PWR_GANG (R265): Forms or dissolves a gang of controllers. -/
  | pwrGang (c : Cmd)
  /-- DPS_CTRL_WRITE (R263): An engine or host write of DPS_CTRL.EN turns an output on or off. -/
  | dpsCtrlWrite (a : Agent) (d : Fin 32) (v : BitVec 32)
  /-- DPS_RAMP_END (R263): The set-point ramp reaches VSET and STATE becomes REG. -/
  | dpsRampEnd (d : Fin 32)
  /-- DPS_POWER_GOOD (R263): The output stays in the PG window for four loop periods; PG sets. -/
  | dpsPowerGood (d : Fin 32)
  /-- DPS_PG_TIMEOUT (R263): PG is not reached within 10 ms after the ramp ends. -/
  | dpsPgTimeout (d : Fin 32)
  /-- DPS_OFF_DONE (R263): The off ramp reaches 0 V and the gate turns off. -/
  | dpsOffDone (d : Fin 32)
  /-- DPS_CURRENT_LIMIT (R261): The limiter takes over the gate and holds current at ILIM. -/
  | dpsCurrentLimit (d : Fin 32)
  /-- DPS_LIM_OFF (R261): The limit holds for TLIM loop periods and the output turns off. -/
  | dpsLimOff (d : Fin 32)
  /-- DPS_TRIP_CLEAR (R276): A write of 1 to TRIPPED or LIM_OFF clears the trip unless the alarm persists. -/
  | dpsTripClear (a : Agent) (d : Fin 32) (v : BitVec 32)
  /-- MON_ALARM (R270): A monitor's zone enters an alarm zone and the alarm goes to its routes. -/
  | monAlarm (m : Fin 64) (zone : MonZone)
  /-- MON_CFG_WRITE (R272): Enabling a monitor or changing SRC or SPEED starts its resolve. -/
  | monCfgWrite (a : Agent) (m : Fin 64) (v : BitVec 32)
  /-- MON_THR_WRITE (R272): A threshold or HYST write holds the zone for 2 µs while DACs settle. -/
  | monThrWrite (a : Agent) (m : Fin 64) (v : BitVec 32)
  /-- MON_RESOLVE (R272): After settling the monitor resolves its zone and sets VALID. -/
  | monResolve (m : Fin 64) (zone : MonZone)
  /-- MON_EVT_ACK (R270): A write of 1 to MON_STAT.EVT acknowledges the alarm. -/
  | monEvtAck (a : Agent) (m : Fin 64) (v : BitVec 32)
  /-- BLK_GO (R273): A write of GO starts a blanking channel. -/
  | blkGo (a : Agent) (i : Fin 64) (v : BitVec 32)
  /-- BLANK_END (R273): A blanking channel ends and its monitors re-evaluate their zones. -/
  | blankEnd (i : Fin 64)
  /-- ANA_LOAD (R288): Copies samples from a slot into a waveform bank and checks the CRC. -/
  | anaLoad (c : Cmd)
  /-- ANA_SOURCE (R291): Sets the waveform source's mode and parameters and its start condition. -/
  | anaSource (c : Cmd)
  /-- ANA_SOURCE_STOP (R291): Returns the waveform source to OFF. -/
  | anaSourceStop (c : Cmd)
  /-- ANA_SPAN (R292): Changes the source span through a 2 µs safe-value hold. -/
  | anaSpan (c : Cmd)
  /-- ANA_CAPTURE (R297): Starts a digitiser capture into a buffer. -/
  | anaCapture (c : Cmd)
  /-- ANA_CAPTURE_STOP (R299): Stops a running digitiser capture. -/
  | anaCaptureStop (c : Cmd)
  /-- AWG_START (R291): The source's first sample falls at its start condition and ANA_SOURCE completes. -/
  | awgStart (k : Fin 16)
  /-- AWG_PASS_END (R288): A PLAY pass ends: switches bank, repeats, or returns to OFF. -/
  | awgPassEnd (k : Fin 16)
  /-- SPAN_HOLD_END (R292): The span hold ends and the new span takes effect. -/
  | spanHoldEnd (k : Fin 16)
  /-- AWG_DDS_WRITE (R290): A write of FTW, AMP, OFS or POFF takes effect phase-continuously. -/
  | awgDdsWrite (a : Agent) (k : Fin 16) (r : DdsReg) (v : BitVec 32)
  /-- AWG_LEG_LIMIT (R294): A leg reaches its current limit and sets AT_LIMIT and SHORT_SEEN. -/
  | awgLegLimit (k : Fin 16)
  /-- ANA_SHORT_SAFE (R294): The leg limit has acted for 100 µs and the source is safed. -/
  | anaShortSafe (k : Fin 16)
  /-- ANA_CAPTURE_END (R299): A digitiser capture reaches its count or end time and completes. -/
  | anaCaptureEnd (k : Fin 16) (samples : List (BitVec 12)) (clamped : Bool)
  /-- ANA_CAL_COMMIT (R300): A background source or digitiser calibration table is committed. -/
  | anaCalCommit (k : Fin 16)
  /-- TRG_ARM (R311): Arms a host-mastered arm group into HOLD. -/
  | trgArm (c : Cmd)
  /-- TRG_DISARM (R311): Disarms a host-mastered arm group to IDLE. -/
  | trgDisarm (c : Cmd)
  /-- TRG_FIRE (R314): Fires an arm group at its execution cycle and reports the fate. -/
  | trgFire (c : Cmd)
  /-- TRG_ACQUIRE (R316): Starts a segmented acquisition on a bay's digitiser. -/
  | trgAcquire (c : Cmd)
  /-- TRG_ACQ_STOP (R323): Stops an acquisition, completing any record in progress. -/
  | trgAcqStop (c : Cmd)
  /-- TRG_CTRL_EN (R304): Enabling the sequencer enters INIT; disabling stops it. -/
  | trgCtrlEn (a : Agent) (k : Fin 16) (v : BitVec 32)
  /-- TRG_STATE_MOVE (R304): A sequencer condition holds and the sequencer moves and runs entry actions. -/
  | trgStateMove (k : Fin 16) (pulses : BitVec 32) (t : BitVec 80)
  /-- AG_READY (R312): An arm group's hold-off ends and it becomes READY. -/
  | agReady (g : Fin 16)
  /-- AG_TRIGGER_DECIDE (R314): At t + L the group takes the earliest fire, becomes BUSY and signals FIRED. -/
  | agTriggerDecide (g : Fin 16)
  /-- AG_BUSY_END (R311): REC_TIME after the trigger the group enters REARM. -/
  | agBusyEnd (g : Fin 16)
  /-- AG_REARM_END (R311): The re-arm ends and the group enters HOLD, READY or IDLE. -/
  | agRearmEnd (g : Fin 16)
  /-- TRG_MESSAGE_RX (R315): A cross-device arm, ready, fire or disarm message arrives on VC3. -/
  | trgMessageRx (m : TrgMsg)
  /-- ACQ_RECORD_DONE (R318): A record's post-trigger samples are taken and the record is written. -/
  | acqRecordDone (k : Fin 16) (samples : List (BitVec 16)) (clamped : Bool)
  /-- TIM_SET (R412): Sets system time, at once or at the next SYNC_IN edge. -/
  | timSet (c : Cmd)
  /-- TIM_SET_TIMEOUT (R426): No SYNC_IN edge arrives within 1 s and TIM_SET completes ABORTED NO_SIGNAL. -/
  | timSetTimeout
  /-- TIM_PULSE (R432): Schedules time pulses on a TPO output. -/
  | timPulse (c : Cmd)
  /-- TPO_PULSE (R432): A scheduled TPO pulse rises at its time. -/
  | tpoPulse (i : Fin 8)
  /-- TIM_TCI (R433): Enables edges on a time-capture input. -/
  | timTci (c : Cmd)
  /-- TCI_EDGE (R433): An enabled TCI edge is stamped into its FIFO and pulses every sequencer. -/
  | tciEdge (i : Fin 4) (rise : Bool) (t : BitVec 80)
  /-- TIM_TCI_LO_READ (R433): A read of TIM_TCI_LO removes the oldest TCI entry and latches its upper word. -/
  | timTciLoRead (c : Cmd) (i : Fin 4)
  /-- TIM_SYNC_CAL (R425): Measures the SYNC loop round trip over 64 returns. -/
  | timSyncCal (c : Cmd)
  /-- TIM_RELEASE (R431): Ends a port's path holdover. -/
  | timRelease (c : Cmd)
  /-- TIM_ASYM (R430): Sets a port's asymmetry and stores it in the asymmetry table. -/
  | timAsym (c : Cmd)
  /-- TIM_STATUS (R375): Returns the present short stamp and TQ. -/
  | timStatus (c : Cmd)
  /-- TIM_REF_WRITE (R414): Changing TIM_REF.SRC counts as loss of the old reference and return of the new. -/
  | timRefWrite (a : Agent) (v : BitVec 32)
  /-- TIM_PORT_WRITE (R417): Sets a port's 1588 state, refusing a second SLAVE. -/
  | timPortWrite (a : Agent) (n : Fin 6) (v : BitVec 32)
  /-- SYNC_OUT_PULSE (R424): A SOURCE device drives a SYNC_OUT pulse at each PERIOD multiple. -/
  | syncOutPulse
  /-- SYNC_IN_EDGE (R426): A SYNC_IN edge yields a phase offset for the servo. -/
  | syncInEdge (t : BitVec 80)
  /-- SYNC_MISS (R426): Four periods pass without a valid SYNC edge and the servo falls back to 1588. -/
  | syncMiss
  /-- PTP_SYNC_SEND (R418): A MASTER port sends Sync, then Follow_Up. -/
  | ptpSyncSend (n : Fin 6) (t : BitVec 80) (replayed : Bool)
  /-- PTP_DELAY_REQ_SEND (R418): A SLAVE port sends Delay_Req. -/
  | ptpDelayReqSend (n : Fin 6) (t : BitVec 80) (replayed : Bool)
  /-- PTP_ANNOUNCE_SEND (R418): A MASTER port sends its per-second Announce. -/
  | ptpAnnounceSend (n : Fin 6)
  /-- PTP_SYNC_RECEIVE (R420): A Sync is received and stamped on the SLAVE port. -/
  | ptpSyncReceive (n : Fin 6) (m : PtpMsg) (t : BitVec 80)
  /-- PTP_FOLLOW_UP_RECEIVE (R418): A Follow_Up is matched to its Sync. -/
  | ptpFollowUpReceive (n : Fin 6) (m : PtpMsg)
  /-- PTP_DELAY_REQ_RECEIVE (R418): A MASTER port stamps a Delay_Req and answers with Delay_Resp. -/
  | ptpDelayReqReceive (n : Fin 6) (m : PtpMsg) (t : BitVec 80)
  /-- PTP_DELAY_RESP_RECEIVE (R423): A Delay_Resp completes an exchange and offset and path delay are formed. -/
  | ptpDelayRespReceive (n : Fin 6) (m : PtpMsg)
  /-- PTP_ANNOUNCE_RECEIVE (R418): An Announce is recorded and not acted on. -/
  | ptpAnnounceReceive (n : Fin 6) (m : PtpMsg)
  /-- PTP_MATCH_TIMEOUT (R418): An unmatched Sync or Delay_Req exchange is discarded after 100 ms. -/
  | ptpMatchTimeout (n : Fin 6)
  /-- REF_LOSS (R415): REFCLK is lost and the PLL moves to IOSC in holdover. -/
  | refLoss
  /-- REF_RETURN (R415): REFCLK returns and the PLL slews back to it. -/
  | refReturn
  /-- REF_MOVE_DONE (R487): The PLL move back to REFCLK ends and SL2 returns. -/
  | refMoveDone
  /-- LNK_TRAIN (R391): Starts full training or a retrain in place of a port. -/
  | lnkTrain (c : Cmd)
  /-- LNK_PORT (R406): Sets a port off, low-power idle or active. -/
  | lnkPort (c : Cmd)
  /-- LNK_ROUTE (R403): Writes routing entries for a range of device IDs. -/
  | lnkRoute (c : Cmd)
  /-- LNK_MCAST (R404): Sets a multicast group's ports and local delivery. -/
  | lnkMcast (c : Cmd)
  /-- LNK_STATUS (R410): Returns a port's 64-byte status reply. -/
  | lnkStatus (c : Cmd)
  /-- PORT_TRAINED (R391): Training completes through FEC lock and INIT exchange and the port becomes ACTIVE. -/
  | portTrained (n : Fin 6) (i : TrainInfo)
  /-- TRAIN_FAIL (R394): Training fails and its cause is recorded. -/
  | trainFail (n : Fin 6) (cause : BitVec 3)
  /-- TRAIN_RETRY (R394): 100 ms after a failed training the port restarts training. -/
  | trainRetry (n : Fin 6)
  /-- CODEWORD_RECEIVE (R385): A codeword is received, corrected and descrambled into flits. -/
  | codewordReceive (n : Fin 6) (w : Codeword)
  /-- REPLAY_TIMEOUT (R396): No ACK progress for 2 µs and the transmitter resends from ACK + 1. -/
  | replayTimeout (n : Fin 6)
  /-- FENCED_RETRAIN (R407): With AUTO set a fenced port attempts training every 1 s. -/
  | fencedRetrain (n : Fin 6)
  /-- ADAPT_WINDOW (R402): A 65,536-symbol window ends and adaptation freezes or resumes. -/
  | adaptWindow (n : Fin 6) (lane : Fin 4) (levels : List Nat)
  /-- RETRAIN_IN_PLACE (R402): Every 100 ms a non-frozen lane adapts on live traffic. -/
  | retrainInPlace (n : Fin 6)
  /-- LPI_WAKE (R406): A message for a port in low-power idle wakes it. -/
  | lpiWake (n : Fin 6)
  /-- FCK_RX_LOSS (R389): A forwarded clock is lost and the CDR moves to embedded tracking. -/
  | fckRxLoss (n : Fin 6)
  /-- FLT_ACK (R450): Clears FAULT_N hold and MAXSEV. -/
  | fltAck (c : Cmd)
  /-- FLT_SOURCE (R439): Sets a source's base severity, N and W and resets its Sieve state. -/
  | fltSource (c : Cmd)
  /-- FLT_SRC_CFG_WRITE (R439): A register write of FLT_SRC_CFG or FLT_SRC_W reconfigures a source. -/
  | fltSrcCfgWrite (a : Agent) (i : Fin 512) (second : Bool) (v : BitVec 32)
  /-- FLT_READ (R452): Returns Gleaner or snapshot records. -/
  | fltRead (c : Cmd)
  /-- FLT_ALARMS (R452): Returns the alarm bitmap. -/
  | fltAlarms (c : Cmd)
  /-- FLT_ALARM_CLR (R448): Clears alarm bits set in a mask. -/
  | fltAlarmClr (c : Cmd)
  /-- FLT_ALARM_WRITE (R448): A write of 1 to a FLT_ALARM bit clears it. -/
  | fltAlarmWrite (a : Agent) (w : Fin 16) (v : BitVec 32)
  /-- FLT_SNAP_RELEASE (R447): Releases the frozen first-fault snapshot. -/
  | fltSnapRelease (c : Cmd)
  /-- FLT_SPILL_HEAD_WRITE (R446): A write of FLT_SPILL_HEAD marks spill records read or unread. -/
  | fltSpillHeadWrite (a : Agent) (v : BitVec 32)
  /-- FLT_DUMP_WRITE (R456): Writing 1 to LOCK or STORM clears it. -/
  | fltDumpWrite (a : Agent) (v : BitVec 32)
  /-- FAULT_RECORD_WRITE (R442): The recorder writes the first eligible entry into the Gleaner. -/
  | faultRecordWrite
  /-- FAULT_HOLDOFF_END (R443): A source's hold-off ends and its held entry becomes eligible. -/
  | faultHoldoffEnd (i : Fin 512)
  /-- SPILL_COPY (R446): A Gleaner record is copied into the spill ring. -/
  | spillCopy
  /-- ALARM_SEND (R449): An ALARM message is sent after a new alarm bit or every 100 ms. -/
  | alarmSend
  /-- FAULT_N_PULSE_END (R450): FAULT_N's pulse width expires and it releases unless HOLD is set. -/
  | faultNPulseEnd
  /-- DUMP_COMPLETE (R453): The dump finishes or reaches 50 ms and the warm reset follows. -/
  | dumpComplete (truncated : Bool)
  /-- THM_STATUS (R479): Returns the 128-byte thermal and supply status. -/
  | thmStatus (c : Cmd)
  /-- THM_BAY_SLEEP (R465): Puts a bay to sleep when every sleep condition holds. -/
  | thmBaySleep (c : Cmd)
  /-- THM_BAY_WAKE (R466): Requests a bay wake. -/
  | thmBayWake (c : Cmd)
  /-- THM_BAY_PIN (R378): Pins a bay awake or releases it. -/
  | thmBayPin (c : Cmd)
  /-- THM_VIN_MODE (R461): Sets revertive or non-revertive VIN selection. -/
  | thmVinMode (c : Cmd)
  /-- THM_TD_LIMIT (R378): Sets a remote diode's limits. -/
  | thmTdLimit (c : Cmd)
  /-- BAY_AUTO_SLEEP (R468): A bay idle for IDLE ms sleeps by itself. -/
  | bayAutoSleep (k : Fin 16)
  /-- BAY_WAKE_TIME (R466): A bay's wake time approaches and a wake is requested. -/
  | bayWakeTime (k : Fin 16)
  /-- BAY_WAKE_GRANT (R466): A waiting wake is granted and the bay wakes. -/
  | bayWakeGrant (k : Fin 16)
  /-- SEQUENCE_GRANT (R473): Throttle caps allow a waiting sequence or start and it is admitted. -/
  | sequenceGrant (h : Fin 128)
  /-- SCLK_STOP (R467): After 10 µs with no user the SCLK PLL stops. -/
  | sclkStop
  /-- THM_SL0_ENTER (R469): A write of THM_SL0.ENTER takes the device to SL0. -/
  | thmSl0Enter (a : Agent) (v : BitVec 32)
  /-- SL0_EXIT (R469): A wake time, monitor wake or MCS_N low takes the device out of SL0. -/
  | sl0Exit
  /-- VIN_SWITCHOVER (R460): The active VIN input fails and the load transfers. -/
  | vinSwitchover (otherFailed : Bool) (otherHigher : Bool)
  /-- VIN_REVERT (R461): VIN_A is good for 100 ms and the load returns to it. -/
  | vinRevert
  /-- POWER_FAIL (R462): Both inputs fall below 9.5 V and the device powers down. -/
  | powerFail
  /-- VPE_LOSS (R463): VPE leaves range and pins, outputs and work react. -/
  | vpeLoss
  /-- VPE_RETURN (R463): VPE is in range for 10 ms, PE_RAIL clears and registers are rewritten. -/
  | vpeReturn
  /-- SENSOR_SAMPLE (R471): Zone sensors are sampled, checked and excluded as needed. -/
  | sensorSample (z : Fin 8) (temps : List Int)
  /-- SENSOR_READMIT (R471): An excluded sensor passes for 10 s and is readmitted. -/
  | sensorReadmit (z : Fin 8) (i : Fin 8)
  /-- EXCL_HOLD_END (R471): The 1 s hold after an exclusion ends. -/
  | exclHoldEnd (z : Fin 8)
  /-- THROTTLE_BOUNDARY (R472): A boundary crosses or uncrosses after its dwell and L changes. -/
  | throttleBoundary (z : Fin 8) (b : Fin 7) (up : Bool)
  /-- FLAPLOCK_END (R474): A zone's 1 s flap lock ends. -/
  | flaplockEnd (z : Fin 8)
  /-- STEP_FACTOR_TICK (R475): Every 100 ms the step-mode factor S falls or rises. -/
  | stepFactorTick (z : Fin 8)
  /-- THERMAL_WARN (R476): Tz holds at 145 °C and WARN sets. -/
  | thermalWarn (z : Fin 8)
  /-- THERMAL_SHUTDOWN (R476): Tz holds at 155 °C and thermal shutdown latches. -/
  | thermalShutdown (z : Fin 8)
  /-- DERATE_STEP (R107): A stack temperature boundary is crossed after 10 ms and DERATE changes. -/
  | derateStep (j : Fin 2) (up : Bool)
  /-- TD_SAMPLE (R470): Remote diodes are sampled and checked against limits. -/
  | tdSample (n : Fin 8) (temp : Int)
  /-- COMPENSATION_TICK (R478): Every 1 ms references and IOSC are corrected from sensors. -/
  | compensationTick
  /-- OBS_TRACE (R509): Sets trace enable, lanes and filter. -/
  | obsTrace (c : Cmd)
  /-- OBS_COUNTERS (R512): Returns a consistent set of event counters. -/
  | obsCounters (c : Cmd)
  /-- TRACE_SEND (R507): A buffered trace record is sent on a free lane. -/
  | traceSend (lane : Fin 2)
  /-- PACKET_INTAKE (R338): A command packet arrives and is checked against its queue. -/
  | packetIntake (src : BitVec 3) (obs : Bool) (bytes : List (BitVec 8))
  /-- INTAKE_TURN (R338): A waiting packet's turn comes and it is journaled, refused or answered as duplicate. -/
  | intakeTurn (q : BitVec 16)
  /-- DOORBELL (R336): A doorbell advances a CQ's HEAD or replays its records. -/
  | doorbell (src : BitVec 3) (bytes : List (BitVec 8))
  /-- SPI_DB_WRITE (R337): A write of SPI_DB submits the packet in SPI_CMD. -/
  | spiDbWrite (bytes : List (BitVec 8)) (v : BitVec 32)
  /-- SPI_CPL_READ (R337): Reading the last byte of SPI_CPL removes the oldest record. -/
  | spiCplRead
  /-- DEV_PORTROLE_WRITE (R356): A write of DEV_PORTROLE changes port roles from the next packet. -/
  | devPortroleWrite (a : Agent) (v : BitVec 32)
  /-- JOURNAL_LOST_CLEAR (R355): Writing 1 to QUE_STAT.JOURNAL_LOST ends JOURNAL_LOST qualification. -/
  | journalLostClear (a : Agent) (v : BitVec 32)
  /-- GRN_RGN_WRITE (R92): A write of GRN_RGN checks and moves region boundaries in both stacks. -/
  | grnRgnWrite (a : Agent) (j : Fin 2) (v : BitVec 32)
  /-- COMMAND_START (R347): An accepted command meets the ordering rules and starts. -/
  | commandStart (q : BitVec 16) (seq : BitVec 32)
  /-- COMPLETION_POST (R335): A completion is written into its CQ ring and sent on VC1. -/
  | completionPost
  /-- RUN_FIRST_VECTOR (R143): The start time arrives and every member site plays its first vector. -/
  | runFirstVector (h : Fin 128)
  /-- VECTOR (R73): A site plays one vector: edges, strobes, fails and Winnow inputs. -/
  | vector (x : Fin 128) (obs : List StrobeObs)
  /-- COMMIT_POINT (R102): The Sheaf front reaches a commit row and the next position is selected. -/
  | commitPoint (h : Fin 128)
  /-- REFILL_WARN (R104): A streamed segment is not READY WARN µs before its deadline. -/
  | refillWarn (h : Fin 128) (pos : BitVec 32)
  /-- LOG_FIFO_DRAIN (R219): A log record drains from the FIFO to the site area; a DROP record may follow. -/
  | logFifoDrain (x : Fin 128)
  /-- VERDICT_WRITE (R225): An ended site's FIFO is drained and its verdict written; STR_START completes after the last. -/
  | verdictWrite (x : Fin 128)
  /-- SCRUB_PASS (R110): A scrub pass of allocated slots and reserved regions starts. -/
  | scrubPass (errs : List MemErr) (late : Bool)
  /-- STACK_FENCE (R112): A stack fails training or parity and is fenced. -/
  | stackFence (j : Fin 2)
  /-- CALL_TAKE (R160): An idle engine takes the oldest waiting call. -/
  | callTake (e : Fin 144)
  /-- TRAP_ENTRY (R184): A pending enabled event is taken at a boundary and the handler starts. -/
  | trapEntry (e : Fin 144)
  /-- MACHINE_CHECK (R179): A fetched word fails parity and the engine stops and is fenced. -/
  | machineCheck (e : Fin 144)
  /-- GROUP_OVERRUN (R163): An effect group is still open after 64 cycles and is closed. -/
  | groupOverrun (e : Fin 144)
  /-- ENGINE_TIMER_ZERO (R154): The engine timer reaches 0 and TIMER becomes true. -/
  | engineTimerZero (e : Fin 144)
  /-- WAIT_TIMEOUT (R153): A WAIT runs CNT cycles without its condition and goes to TGT. -/
  | waitTimeout (e : Fin 144) (w : BitVec 128)
  /-- CS_PATROL (R181): The patrol finds a bad entry and sets REPAIR_PEND. -/
  | csPatrol (e : Fin 144) (addr : BitVec 14)
  /-- CS_REPAIR (R181): An idle engine's bad entry is rewritten from its selected bank. -/
  | csRepair (e : Fin 144)
  /-- ENG_CTRL_WRITE (R187): A write of ENG_CTRL MODE or VEC is accepted pending a clean boundary. -/
  | engCtrlWrite (a : Agent) (e : Fin 144) (v : BitVec 32)
  /-- ENG_MODE_APPLY (R187): A written MODE or VEC takes effect at a boundary with no group or handler. -/
  | engModeApply (e : Fin 144)
  /-- SEQ_NEXT (R153): Microword sequencer NEXT goes to PC + 1. -/
  | seqNext (e : Fin 144) (w : BitVec 128)
  /-- SEQ_JUMP (R153): Microword JUMP goes to TGT if the condition holds. -/
  | seqJump (e : Fin 144) (w : BitVec 128)
  /-- SEQ_CALL (R153): Microword CALL saves PC + 1 in SR[15] and goes to TGT. -/
  | seqCall (e : Fin 144) (w : BitVec 128)
  /-- SEQ_RET (R153): Microword RET goes to SR[15]. -/
  | seqRet (e : Fin 144) (w : BitVec 128)
  /-- SEQ_LOOP (R153): Microword LOOP decrements a loop counter and branches while non-zero. -/
  | seqLoop (e : Fin 144) (w : BitVec 128)
  /-- SEQ_WAIT (R153): Microword WAIT holds until its condition holds. -/
  | seqWait (e : Fin 144) (w : BitVec 128)
  /-- SEQ_DISP (R153): Microword DISP dispatches on SR bits. -/
  | seqDisp (e : Fin 144) (w : BitVec 128)
  /-- SEQ_HALT (R161): Microword HALT completes any open call and idles the engine. -/
  | seqHalt (e : Fin 144) (w : BitVec 128)
  /-- SEQ_RESUME (R186): Microword RESUME ends a handler and restores saved state. -/
  | seqResume (e : Fin 144) (w : BitVec 128)
  /-- ALU_NOP (R155): ALU operation NOP leaves flags and registers unchanged. -/
  | aluNop (e : Fin 144) (w : BitVec 128)
  /-- ALU_MOV (R155): ALU operation MOV writes B. -/
  | aluMov (e : Fin 144) (w : BitVec 128)
  /-- ALU_ADD (R155): ALU operation ADD writes A + B and sets flags. -/
  | aluAdd (e : Fin 144) (w : BitVec 128)
  /-- ALU_SUB (R155): ALU operation SUB writes A − B and sets flags. -/
  | aluSub (e : Fin 144) (w : BitVec 128)
  /-- ALU_CMP (R155): ALU operation CMP sets flags from A − B. -/
  | aluCmp (e : Fin 144) (w : BitVec 128)
  /-- ALU_AND (R155): ALU operation AND. -/
  | aluAnd (e : Fin 144) (w : BitVec 128)
  /-- ALU_OR (R155): ALU operation OR. -/
  | aluOr (e : Fin 144) (w : BitVec 128)
  /-- ALU_XOR (R155): ALU operation XOR. -/
  | aluXor (e : Fin 144) (w : BitVec 128)
  /-- ALU_SHL (R155): ALU operation shift left. -/
  | aluShl (e : Fin 144) (w : BitVec 128)
  /-- ALU_SHR (R155): ALU operation logical shift right. -/
  | aluShr (e : Fin 144) (w : BitVec 128)
  /-- ALU_SAR (R155): ALU operation arithmetic shift right. -/
  | aluSar (e : Fin 144) (w : BitVec 128)
  /-- ALU_MUL (R155): ALU operation MUL, low 32 bits of the signed product. -/
  | aluMul (e : Fin 144) (w : BitVec 128)
  /-- IFU_PIN_READ (R157): Engine reads a slice-block register. -/
  | ifuPinRead (e : Fin 144) (w : BitVec 128) (zone : BitVec 2)
  /-- IFU_PIN_WRITE (R157): Engine writes a slice-block register within its reach. -/
  | ifuPinWrite (e : Fin 144) (w : BitVec 128)
  /-- IFU_PMU_CONN (R191): Engine connects and selects a pin's PMU. -/
  | ifuPmuConn (e : Fin 144) (w : BitVec 128) (senseOpen : Bool)
  /-- IFU_PMU_DISC (R191): Engine returns the selected PMU to OFF. -/
  | ifuPmuDisc (e : Fin 144) (w : BitVec 128)
  /-- IFU_PMU_FV (R157): Engine forces a voltage on the selected PMU. -/
  | ifuPmuFv (e : Fin 144) (w : BitVec 128)
  /-- IFU_PMU_FI (R157): Engine forces a current on the selected PMU. -/
  | ifuPmuFi (e : Fin 144) (w : BitVec 128)
  /-- IFU_PMU_MEAS (R157): Engine starts a PMU measurement. -/
  | ifuPmuMeas (e : Fin 144) (w : BitVec 128)
  /-- IFU_PMU_READ (R158): Engine reads the PMU result and clears PMU_RDY. -/
  | ifuPmuRead (e : Fin 144) (w : BitVec 128)
  /-- IFU_TDC_ARM (R231): Engine takes or sets a pin's TDC FIFO polarities. -/
  | ifuTdcArm (e : Fin 144) (w : BitVec 128)
  /-- IFU_TDC_DISARM (R231): Engine empties the FIFO and clears the holder. -/
  | ifuTdcDisarm (e : Fin 144) (w : BitVec 128)
  /-- IFU_TDC_POPLO (R232): Engine pops the oldest stamp's low word. -/
  | ifuTdcPoplo (e : Fin 144) (w : BitVec 128)
  /-- IFU_TDC_POPHI (R157): Engine reads the high word of the last popped stamp. -/
  | ifuTdcPophi (e : Fin 144) (w : BitVec 128)
  /-- IFU_WIN_COUNT (R157): Engine reads the site fail counter. -/
  | ifuWinCount (e : Fin 144) (w : BitVec 128)
  /-- IFU_WIN_CLEAR (R157): Engine clears FAIL and ITER. -/
  | ifuWinClear (e : Fin 144) (w : BitVec 128)
  /-- IFU_WIN_MARK (R223): Engine writes a MARK record into the site's fail log. -/
  | ifuWinMark (e : Fin 144) (w : BitVec 128)
  /-- IFU_STR_MSET (R157): Engine sets the site's match flag. -/
  | ifuStrMset (e : Fin 144) (w : BitVec 128)
  /-- IFU_STR_MCLR (R157): Engine clears the site's match flag. -/
  | ifuStrMclr (e : Fin 144) (w : BitVec 128)
  /-- IFU_STR_JREQ (R139): Engine requests a jump of its Sheaf. -/
  | ifuStrJreq (e : Fin 144) (w : BitVec 128)
  /-- IFU_STR_JSCHED (R140): Engine schedules an exact jump at a position and row. -/
  | ifuStrJsched (e : Fin 144) (w : BitVec 128)
  /-- IFU_STR_PROG (R157): Engine reads its site's progress. -/
  | ifuStrProg (e : Fin 144) (w : BitVec 128)
  /-- IFU_TRG_FIRE (R157): Engine pulses its trigger line into the bay sequencer. -/
  | ifuTrgFire (e : Fin 144) (w : BitVec 128)
  /-- IFU_TRG_TAKE (R308): Engine takes its pending sequencer event. -/
  | ifuTrgTake (e : Fin 144) (w : BitVec 128)
  /-- IFU_EVT_SEND (R157): Engine sends a payload to peer engines. -/
  | ifuEvtSend (e : Fin 144) (w : BitVec 128)
  /-- IFU_EVT_TAKE (R157): Engine removes the oldest peer payload. -/
  | ifuEvtTake (e : Fin 144) (w : BitVec 128)
  /-- IFU_QUE_ARG (R157): Engine reads the next call argument. -/
  | ifuQueArg (e : Fin 144) (w : BitVec 128)
  /-- IFU_QUE_PUT (R162): Engine appends a word to the call result. -/
  | ifuQuePut (e : Fin 144) (w : BitVec 128)
  /-- IFU_QUE_DONE (R161): Engine completes the open call with a status. -/
  | ifuQueDone (e : Fin 144) (w : BitVec 128)
  /-- IFU_TMR_LOAD (R157): Engine loads its timer and clears TIMER. -/
  | ifuTmrLoad (e : Fin 144) (w : BitVec 128)
  /-- IFU_TMR_READ (R157): Engine reads its timer. -/
  | ifuTmrRead (e : Fin 144) (w : BitVec 128)
  /-- IFU_BAY_READ (R157): Engine reads a bay-block register. -/
  | ifuBayRead (e : Fin 144) (w : BitVec 128)
  /-- IFU_BAY_WRITE (R157): Engine writes a bay-block register within its reach. -/
  | ifuBayWrite (e : Fin 144) (w : BitVec 128)
  /-- MGMT_FAILOVER (R33): A lockstep mismatch in the active pair hands control to the standby pair. -/
  | mgmtFailover
  /-- FW_PROBATION_END (R494): One second after hand-over probation ends and DEV_FW_SWITCH completes. -/
  | fwProbationEnd
  /-- FW_WRITEBACK_DONE (R495): The background seed firmware rewrite finishes and FLASH_WB clears. -/
  | fwWritebackDone
  /-- COLD_START (R481): VIN arrives or RST_N rises after a cold reset and the device starts to SL1. -/
  | coldStart (vpe : Bool) (ref : Bool)
  /-- STARTUP_CAL_DONE (R481): Start-up calibration commits and the device reaches SL2 or SL1-time. -/
  | startupCalDone
  /-- RST_N_LOW (R488): RST_N held low for 1 µs begins a warm reset. -/
  | rstNLow
  /-- COLD_RESET (R488): RST_N held low for 10 ms turns the reset cold. -/
  | coldReset
  /-- RST_N_RISE (R491): RST_N rises and a held warm reset proceeds. -/
  | rstNRise
  /-- WARM_RESET (R491): A warm reset safes pins, reloads stores and reaches SL1. -/
  | warmReset
  /-- EPOCH_WRAP (R11): The short stamp wraps after 2^56 SCLK cycles and the time epoch EP increments. -/
  | epochWrap
  /-- DRV_LIMIT_ONSET (R58): The driver reaches its 80 mA current limit, sets DRV_LIMIT and starts the 2 µs timer. -/
  | drvLimitOnset (p : Fin 256)
  /-- PMU_LIMIT_RELEASE (R199): The load lets the PMU leave its compliance limit, so it returns to the programmed force and AT_LIMIT clears. -/
  | pmuLimitRelease (p : Fin 256)
  /-- DPS_LIMIT_RELEASE (R261): The DUT current falls below ILIM, the limiter lets go of the gate, AT_LIMIT clears and the limit timer breaks. -/
  | dpsLimitRelease (d : Fin 32)
  /-- DIG_CAPTURE_START (R297): A digitiser capture with a TIME or TRIGGER start condition takes its first sample at the start time or after the sequencer event. -/
  | digCaptureStart (k : Fin 16)
  /-- SYNC_RET_EDGE (R425): A return edge on SYNC_RET is stamped, or is counted missing after 1 µs, toward the TIM.SYNC_CAL round trip. -/
  | syncRetEdge (rt : Option Int)
  /-- STANDBY_PAIR_FAIL (R33): The standby management pair fails, is fenced, and MGMT_STANDBY is raised. -/
  | standbyPairFail
  /-- UNIT_FENCE (R33): A slice channel fault, a bay engine or bay analogue fault, or a PE die fault fences the unit and fails its work. -/
  | unitFence (u : FenceUnit)
  /-- FLASH_FAIL (R33): The flash die fails, is fenced, and the FLASH source is raised. -/
  | flashFail
  /-- CORE_FAULT (R437): An uncorrectable core-die error or an internal rail out of range raises CORE or CORE_RAIL at FATAL. -/
  | coreFault (rail : Bool)
  /-- WARN_CLEAR (R476): Tz stays 4 °C below 145 °C for 10 ms and WARN clears. -/
  | warnClear (z : Fin 8)
  /-- VIN_INPUT_FAIL (R459): A VIN input that is not the active one fails, and VIN_A or VIN_B is raised without a transfer. -/
  | vinInputFail (b : Bool)
  /-- LPI_EXIT_TIMEOUT (R406): A receiver leaving low-power idle does not regain FEC lock within 10 µs and starts a full training. -/
  | lpiExitTimeout (n : Fin 6)
  /-- FINE_DELAY_CAL_COMMIT (R6): A background calibration of the pin fine delays is committed and CE advances. -/
  | fineDelayCalCommit
  deriving DecidableEq, Repr

end Sys2Proof
end

