-- ==== Sys2Proof/Config.lean ====
section
/-!
DEFINITION. What an implementation fixes (strap, part, image versions) and the free values: constants without a body,
of which no proof can use a value.
-/
namespace Sys2Proof.Config

/-- Silicon revision that DEV.INFO returns (R364): the spec gives no value. Free value, log entry 3. -/
opaque siliconRevision : BitVec 16

/-- Hits of bin `bin` in the factory table of interpolator `i` of pin `p` (R250): the seed image's content. Free value,
log entry 4. -/
opaque factoryHits : Nat → Nat → Nat → Nat

/-- Whether the ECDSA P-384 signature of a firmware image verifies under the mask-programmed key (R485). Free value, log
entry 5. -/
opaque signatureOk : List Byte → Bool

/-- Bytes of the queue region that lie in no context, intake space or ring read undefined (R330): the n-th such read.
Free value, log entry 6. -/
opaque queueRegionByte : Nat → Nat → Byte

/-- The content of a dump section (R455) beyond what the model writes out: byte i of section `id` of dump `n`. Free
value, log entry 7. -/
opaque dumpByte : Nat → Nat → Nat → Byte

/-- Length of a dump section (R455 bounds it from above only). Free value, log entry 7. -/
opaque dumpLength : Nat → Nat → Nat

/-- The address the device chooses for an intake space or a ring (R330): the n-th choice among the `room` places. Free
value, log entry 8. -/
opaque placement : Nat → Nat → Nat

/-- A quantity that the device measures and that no row brings in (supply voltages, an output's voltage and current, a digitiser
sample, which rail left its range), or one that it leaves unstated: the n-th one drawn. Free value, log entry 13. -/
opaque measured : Nat → Nat

/-- The bits of a control-store entry that an upset inverts (R169, R181): the n-th upset. Free value, log entry 14. -/
opaque upset : Nat → BitVec 136

end Sys2Proof.Config
end

