-- ==== Sys2Proof/Machine/State.lean ====
section
/-!
DEFINITION. The state of the ZW256 as plain data: every register block, queue, buffer, counter, mode and pin the spec
names, one structure per unit. Registers that software reads as a word are words; the field defaults are the reset
values, so `{}` is a unit at reset. Unit tables are sparse (`Tab`): an unlisted unit is at reset.
-/
namespace Sys2Proof.Machine

/-- The faults of the machine. No command of the block ends in one: a failure of the device is an event of the Sieve
and a completion status (R345, R437), both next states. -/
inductive Fault where
  /-- Raised by no meaning; kept so that the type names a reason. Safe. -/
  | none
  deriving DecidableEq, Repr

/-- The refusals of the machine. -/
inductive Refusal where
  /-- A row whose meaning has not been written yet. Safe: nothing is claimed of it. -/
  | notModelled (mnemonic : String)
  deriving DecidableEq, Repr

/-! ## Commands, queues and the journal -/

/-- Names a command: queue and sequence number (R327). -/
structure Key where
  qid : BitVec 16 := 0
  seq : BitVec 32 := 0
  deriving DecidableEq, Repr

/-- A completion record (R344) with its arrival interface and the data message that precedes it (R362). -/
structure Cpl where
  key : Key := {}
  tag : BitVec 16 := 0
  src : BitVec 3 := 0
  cls : BitVec 4 := 0
  code : BitVec 12 := 0
  detail : BitVec 16 := 0
  w3 : Word := 0
  stamp : Short := 0
  w6 : Word := 0
  w7 : Word := 0
  data : List Byte := []
  deriving DecidableEq, Repr

/-- A command from its acceptance to its completion: its identity and the quality tags gathered so far (R4, R5, R477).
`released` is set past its release point (R347); `bays` and `stks` are what it uses. -/
structure Work where
  key : Key := {}
  op : BitVec 12 := 0
  tag : BitVec 16 := 0
  src : BitVec 3 := 0
  started : Bool := false
  released : Bool := false
  bays : BitVec 16 := 0
  stks : BitVec 2 := 0
  sl : BitVec 2 := 3
  tq : BitVec 2 := 3
  th : Bool := false
  ce : BitVec 16 := 0
  deriving DecidableEq, Repr

/-- A packet at intake (R338). -/
structure Packet where
  src : BitVec 3 := 0
  obs : Bool := false
  bytes : List Byte := []
  deriving DecidableEq, Repr

/-- A journal entry (R342): STATE 0 WRITTEN, 1 ACCEPTED, 2 STARTED, 3 COMPLETED, 4 POSTED. `off` is its byte offset in
each copy; `retry` is set while QUE.RESUME with RETRY executes it again (R351); `ringAt` is the number of its record in the
CQ ring, `sent` that a record of CQ 0 has been sent (R342, R343). -/
structure JEntry where
  key : Key := {}
  state : BitVec 8 := 0
  src : BitVec 3 := 0
  obs : Bool := false
  jsn : Nat := 0
  off : Nat := 0
  bytes : List Byte := []
  accStamp : Short := 0
  record : Option Cpl := none
  sent : Bool := false
  ringAt : Option Word := none
  retry : Option Key := none
  deriving DecidableEq, Repr

/-- A submission-queue context (R331): STATE 0 DISABLED, 1 OPEN, 2 HALTED, 3 CLOSING. `intakeAt` is the offset of its intake
space in the queue region (0: none). -/
structure Queue where
  state : BitVec 8 := 0
  flags : BitVec 8 := 0
  cq : BitVec 8 := 0
  domain : BitVec 8 := 0
  credits : BitVec 16 := 0
  maxlen : BitVec 16 := 0
  sources : BitVec 16 := 0
  nextSeq : BitVec 32 := 0
  lowSeq : BitVec 32 := 0
  firstSeq : BitVec 32 := 0
  haltSeq : BitVec 32 := 0
  accepted : BitVec 64 := 0
  posted : BitVec 64 := 0
  intakeAt : Nat := 0
  deriving DecidableEq, Repr

/-- A CQ context (R334): STATE 0 DISABLED, 1 OPEN. `ring` is the ring's offset in the queue region, `recs` the records in it
by place. -/
structure Cq where
  state : BitVec 8 := 0
  dest : BitVec 16 := 0
  depth : BitVec 32 := 0
  ring : Nat := 0
  tail : BitVec 32 := 0
  head : BitVec 32 := 0
  recs : Tab (List Byte) := []
  deriving DecidableEq, Repr

/-- The SPI command window (R337). -/
structure Spi where
  cmd : List Byte := []
  busy : Bool := false
  acc : Bool := false
  overrun : Bool := false
  accSeq : BitVec 32 := 0
  cpl : List Cpl := []
  deriving DecidableEq, Repr

/-- What the block has sent to the outside. -/
inductive Out where
  /-- A completion record on VC1 or over SPI: to a CQ's DEST (bit 16 clear) or to an arrival interface. -/
  | record (toCq : Bool) (dest : BitVec 16) (c : Cpl)
  /-- An intake answer to the arrival interface (R338). -/
  | answer (src : BitVec 3) (c : Cpl)
  /-- An acceptance notice (R339): W0 to W2. -/
  | notice (src : BitVec 3) (w0 w1 w2 : Word)
  /-- A data message before a completion (R362, R400). -/
  | data (src : BitVec 3) (bytes : List Byte)
  /-- A message sent on a port: port, virtual channel, header and body bytes (R399). -/
  | message (port : Nat) (vc : BitVec 2) (bytes : List Byte)
  /-- An ALARM message (R449). -/
  | alarm (bytes : List Byte)
  /-- A 1588 message: port, kind (0 Sync, 1 Follow_Up, 2 Delay_Req, 3 Delay_Resp), sequenceId, seconds,
  nanoseconds, correction (R418, R421). -/
  | ptp (port : Nat) (kind : Nat) (seqId : BitVec 16) (sec ns : Nat) (corr : Int)
  /-- An Announce message: port, sequenceId, quality fields (R418). -/
  | announce (port : Nat) (seqId : BitVec 16) (q : PtpQuality)
  /-- A cross-device trigger message (R315). -/
  | trigger (m : TrgMsg)
  /-- A trace record on a lane (R507). -/
  | trace (lane : Nat) (bytes : List Byte)
  /-- A SYNC_OUT pulse at a full stamp (R424). -/
  | syncOut (t : Full)
  /-- A TPO pulse: output, rise, width in fine steps (R432). -/
  | tpo (i : Nat) (t : Full) (width : Nat)
  /-- Flits sent again on a port from a sequence number (R396). -/
  | replay (port : Nat) (fromSeq : Nat)
  deriving DecidableEq, Repr

/-! ## Pins -/

/-- The output stage of a pin (R37). -/
inductive Stage where
  | drive (l : BitVec 2)
  | term
  | openZ
  | safe
  deriving DecidableEq, Repr

/-- A timing set (R77). -/
structure TSet where
  cfg : Word := 0x00000007#32
  drv : Word := 0
  ret : Word := 0x00000400#32
  stb : Word := 0x00000400#32
  wcl : Word := 0x00000400#32
  deriving DecidableEq, Repr

/-- A pin's PMU (R189 to R209). MODE and HOLDER stand in `ctrl`. -/
structure Pmu where
  ctrl : Word := 0x00010000#32
  force : Int := 0
  clim : Word := 0x00004000#32
  vclamp : Word := 0xDD5B0D05#32
  stat : Word := 0
  res : Int := 0
  resInfo : Word := 0
  resT0 : Short := 0
  kelvinBad : Bool := false
  waiting : List Key := []
  measKind : Bool := false
  measN : Nat := 0
  measBy : Option Key := none
  measT0 : Short := 0
  next : List (Bool × Nat × Option Key) := []
  deriving DecidableEq, Repr

/-- A stamp with its polarity (R228). `fine` adds 1/256 fine steps (R242), `width` is the bin's calibrated width. In the
FIFO of a capture a marker stands with its MTYPE and payload (R236); MTYPE 0 is a stamp. -/
structure TStamp where
  marker : BitVec 6 := 0
  payload : BitVec 56 := 0
  full : Full := 0
  fine : BitVec 8 := 0
  rise : Bool := false
  width : Nat := 256
  deriving DecidableEq, Repr

/-- A running frequency measurement (R245). -/
structure Freq where
  key : Key := {}
  rise : Bool := true
  gate : Nat := 0
  openedAt : Nat := 0
  closed : Bool := false
  start : Option TStamp := none
  count : Nat := 0
  refAbsent : Bool := false
  deriving DecidableEq, Repr

/-- An interpolator table (R247, R251): `factory` until one of its own is committed. -/
structure TdcTable where
  factory : Bool := true
  counts : List Nat := []
  state : BitVec 8 := 0
  ce : BitVec 16 := 0
  temp : Int := 0
  first : Short := 0
  last : Short := 0
  hits : Nat := 0
  deriving DecidableEq, Repr

/-- A pin's TDC (R228 to R255). -/
structure Tdc where
  ctrl : Word := 0x00010100#32
  holder : BitVec 2 := 0
  pol : BitVec 2 := 0
  fifo : List TStamp := []
  popped : TStamp := {}
  lastStamp : Option Nat := none
  ovf : Bool := false
  degraded : Bool := false
  svc : Bool := false
  dead : Word := 0
  lost : Word := 0
  lostPending : Nat := 0
  rej : BitVec 8 := 0
  tableCe : BitVec 16 := 0
  tab0 : TdcTable := {}
  tab1 : TdcTable := {}
  inRound : Bool := false
  checked : Option Bool := none
  stale : Bool := false
  freq : Option Freq := none
  deriving DecidableEq, Repr

/-- A pin channel (R37 to R64, R76 to R86). -/
structure Pin where
  lvl01 : Word := 0x34153415#32
  lvl23 : Word := 0x34153415#32
  thabStaged : Word := 0x34153415#32
  thab : Word := 0x34153415#32
  thc : Word := 0x00003415#32
  vtvc : Word := 0x34153415#32
  loadi : Word := 0
  clamp : Word := 0xEA600000#32
  path : Word := 0
  ctrl : Word := 0x00020008#32
  stat : Word := 0x00000001#32
  tavcnt : Word := 0
  stage : Stage := .safe
  sets : Tab TSet := []
  symcfg : Word := 0
  settling : List Key := []
  limitSince : Option Nat := none
  released : Option Nat := none
  prevAct : Option (BitVec 4) := none
  prevSym : Option (BitVec 4) := none
  viaSym : Bool := false
  txState : BitVec 2 := 0
  rxState : BitVec 2 := 0
  lastStrobe : Option Nat := none
  pendEvents : List (Nat × Nat) := []
  pmu : Pmu := {}
  tdc : Tdc := {}
  deriving DecidableEq, Repr

/-! ## Slices: Winnow unit, interval unit -/

/-- A fail window (R212, R227). -/
structure WinWindow where
  ws : BitVec 64 := 0
  we : BitVec 64 := 0
  mode : Word := 0
  cnt : Word := 0
  deriving DecidableEq, Repr

/-- First-fail capture (R214). -/
structure FirstFail where
  idx : BitVec 64 := 0
  stamp : Short := 0
  pins : BitVec 64 := 0
  values : BitVec 128 := 0
  iter : BitVec 32 := 0
  pos : BitVec 32 := 0
  row : BitVec 32 := 0
  deriving DecidableEq, Repr

/-- The staged part of a Winnow unit (R215): counts, capture, records and signature of the open staged iterations. -/
structure Staged where
  fcnt : Nat := 0
  fvcnt : Nat := 0
  strobes : Nat := 0
  pf : Tab Nat := []
  wf : Tab Nat := []
  ff : Option FirstFail := none
  recs : List (List Byte) := []
  misr : BitVec 64 := 0
  deriving DecidableEq, Repr

/-- A Winnow unit (R210 to R227). -/
structure Winnow where
  ctrl : Word := 0x00100000#32
  verdict : Bool := false
  logFull : Bool := false
  dropped : Bool := false
  pcntSat : Bool := false
  iter : Bool := false
  fail : Bool := false
  pmask : BitVec 64 := 0
  seed : BitVec 64 := 0
  misr : BitVec 64 := 0
  fcnt : BitVec 64 := 0
  fvcnt : BitVec 64 := 0
  mfcnt : BitVec 64 := 0
  strobes : BitVec 64 := 0
  recs : Word := 0
  lost : Word := 0
  ff : Option FirstFail := none
  windows : Tab WinWindow := []
  pfcnt : Tab Word := []
  hi : Tab Word := []
  fifo : List (List Byte) := []
  refused : Nat := 0
  staged : List Staged := []
  deriving DecidableEq, Repr

/-- An interval measurement (R239 to R244). -/
structure Interval where
  key : Key := {}
  startPin : Nat := 0
  stopPin : Nat := 0
  startRise : Bool := true
  stopRise : Bool := true
  index : Bool := false
  n : Nat := 0
  recRate : Nat := 0
  first : Nat := 0
  count : Nat := 0
  wrap : Bool := false
  timeoutAt : Option Nat := none
  armed : Full := 0
  starts : List TStamp := []
  stops : List TStamp := []
  pairs : Nat := 0
  least : Int := 0
  greatest : Int := 0
  sum : Int := 0
  sumsq : Nat := 0
  subBin : Nat := 0
  order : Nat := 0
  unpaired : Nat := 0
  surplus : Nat := 0
  recs : Nat := 0
  lost : Nat := 0
  dead : Nat := 0
  overflow : Bool := false
  fifo : List (List Byte) := []
  nextDrain : Nat := 0
  refused : Nat := 0
  full : Bool := false
  wrapped : Bool := false
  qual : Option (BitVec 12) := none
  deriving DecidableEq, Repr

/-- What belongs to a slice besides its pins and engine. -/
structure Slice where
  adc : Word := 0
  win : Winnow := {}
  tiv : Option Interval := none
  tivPairs : BitVec 64 := 0
  tivUnpaired : Word := 0
  tivSurplus : Word := 0
  deriving DecidableEq, Repr

/-- A stamp capture over several pins (R234 to R238). Per pin: entries accepted, stamps lost, dead edges, last upper
stamp bits written by a BASE marker, flags. -/
structure TdcArea where
  entries : Nat := 0
  lost : Nat := 0
  dead : Nat := 0
  base : Option (BitVec 18) := none
  full : Bool := false
  wrapped : Bool := false
  nextDrain : Nat := 0
  deriving DecidableEq, Repr

structure TdcCap where
  key : Key := {}
  pins : List Nat := []
  pol : BitVec 2 := 0
  rate : Nat := 1
  first : Nat := 0
  count : Nat := 0
  wrap : Bool := false
  endAt : Nat := 0
  start : Full := 0
  areas : Tab TdcArea := []
  qual : Option (BitVec 12) := none
  refAbsent : Bool := false
  deriving DecidableEq, Repr

/-! ## Engines -/

/-- A call waiting in the FIFO (R160): entry, arguments, result buffer. -/
structure Call where
  key : Key := {}
  entry : BitVec 14 := 0
  args : List Word := []
  first : Nat := 0
  count : Nat := 0
  deriving DecidableEq, Repr

/-- The open call (R160 to R162): arguments not yet read, results kept. -/
structure OpenCall where
  call : Call := {}
  left : List Word := []
  put : List Word := []
  deriving DecidableEq, Repr

/-- What is fixed of the word in execution (R152): the condition and the loop counter's value at its start, the value the
interface returned, whether the ALU has written LC[LCS], and which of its parts have acted. -/
structure WordCur where
  cond : Bool := false
  lc : Word := 0
  ret : Word := 0
  aluLc : Bool := false
  aluDone : Bool := false
  ifDone : Bool := false
  deriving DecidableEq, Repr

/-- The save area of an engine (R184, R188). -/
structure SaveArea where
  info : Word := 0
  flags : Word := 0
  wait : Word := 0
  sr : Tab Word := []
  lc : Tab Word := []
  deriving DecidableEq, Repr

/-- The HALT word with its parity bits: what an unlisted control-store entry holds (R170, R168). -/
def haltEntry : BitVec 136 := 0x7F70000000000000000000000000000000#136

/-- An engine (R147 to R188): `state` 0 IDLE, 1 RUN, 2 HANDLER, 3 STOPPED. `timerEnd` is the moment the timer reaches 0, `waitEnd` the
end of a holding WAIT's limit (0: none), `nextAt` the start of the next word, `groupAt` the opening of the group, `sp` whether the last
word was a safe point, `mcFence` whether a machine check or a failed load of this engine fences its unit. -/
structure Engine where
  store : Tab (BitVec 136) := []
  pc : BitVec 14 := 0
  sr : Tab Word := []
  lc : Tab Word := []
  z : Bool := false
  n : Bool := false
  c : Bool := false
  v : Bool := false
  uf : BitVec 4 := 0
  timerEnd : Nat := 0
  timerZero : Bool := false
  ctrl : Word := 0x00040000#32
  ctrlPend : Option Word := none
  even : Word := 0
  state : BitVec 2 := 0
  group : Bool := false
  groupEnd : Bool := false
  waiting : Bool := false
  waitEnd : Nat := 0
  nextAt : Nat := 0
  groupAt : Nat := 0
  sp : Bool := false
  mcFence : Bool := false
  latched : BitVec 6 := 0
  calls : List Call := []
  open? : Option OpenCall := none
  peer : List Word := []
  govr : Word := 0
  sel : Bool := false
  refuse : Bool := false
  sat : Bool := false
  cur : Option WordCur := none
  partialFx : Bool := false
  mustRun : Bool := false
  idleOrigin : Bool := false
  loading : Bool := false
  bank : Bool := false
  repair : List (BitVec 14) := []
  ver : Word := 0
  crc : Word := 0
  reload : Option (Bool × Key) := none
  save : SaveArea := {}
  mcInfo : Word := 0
  mcWord : Tab Word := []
  mcStamp : Short := 0
  mcCount : Word := 0
  deriving DecidableEq, Repr

/-! ## Bays: power, monitors, waveform, digitiser, triggers -/

/-- A DUT power controller (R258 to R283). EN stands in `ctrl`, STATE and the flags in `stat`. `down` is set while an off
request ramps, `rampDone` once the ramp has ended (at `rampEndAt`); `limitAt` is the onset of the current limit; `cmds` are the
commands that wait for PG or OFF. -/
structure Dps where
  ctrl : Word := 0x000003E8#32
  vset : Word := 0
  ilim : Word := 0x00C80CCD#32
  shunt : Word := 0x00002710#32
  pg : Word := 0xEA600000#32
  stat : Word := 0
  vmeas : Int := 0
  imeas : Int := 0
  tripsrc : Word := 0
  tripT : Short := 0
  gang : Word := 0
  down : Bool := false
  rampDone : Bool := false
  rampEndAt : Nat := 0
  limitAt : Nat := 0
  cmds : List Key := []
  deriving DecidableEq, Repr

/-- A window monitor (R269 to R283). `holding` is set while a threshold write holds the zone, `resolveAt` is the end of the
settling (R272). -/
structure Mon where
  cfg : Word := 0x03000000#32
  thr : Word := 0xEA600000#32
  stat : Word := 0x00000004#32
  trip : Word := 0
  cap : Short := 0
  ecnt : Word := 0
  holding : Bool := false
  resolveAt : Nat := 0
  deriving DecidableEq, Repr

/-- A blanking channel (R273): BLK_CFG with ACTIVE, and the end of its run. -/
structure Blk where
  cfg : Word := 0
  endAt : Nat := 0
  deriving DecidableEq, Repr

/-- A digitiser capture (R297 to R299). `startAt` is none while the sequencer event of a TRIGGER start is awaited; `stopped`
names the ANA.CAPTURE_STOP that ended it. -/
structure DigCap where
  key : Key := {}
  first : Nat := 0
  count : Nat := 0
  wrap : Bool := false
  pending : Bool := false
  startKind : BitVec 2 := 0
  startAt : Option Nat := none
  limit : Nat := 0
  endAt : Nat := 0
  start : Full := 0
  startMono : Nat := 0
  w3 : Word := 0
  stopped : Option Key := none
  qual : Option (BitVec 12) := none
  refAbsent : Bool := false
  deriving DecidableEq, Repr

/-- A segmented acquisition (R316 to R323). `emptied` is when the pre-trigger memory was last emptied, `drawn` when the record
in progress took its trigger, `recMissed` the misses that it carries; `rsl` to `rce` are the quality tags over that record; `endBy` 1 TRG.ACQ_STOP, 2 the group's
return to IDLE. -/
structure Acq where
  key : Key := {}
  pre : Nat := 0
  post : Nat := 0
  nrec : Nat := 0
  wrap : Bool := false
  first : Nat := 0
  count : Nat := 0
  group : Nat := 0
  start : Full := 0
  emptied : Nat := 0
  records : Nat := 0
  missed : Nat := 0
  missTotal : Nat := 0
  missStamp : Full := 0
  holdign : Nat := 0
  inRecord : Option Full := none
  drawn : Nat := 0
  recMissed : Nat := 0
  recMissStamp : Full := 0
  source : BitVec 8 := 0
  origin : BitVec 16 := 0
  late : Bool := false
  xgap : Bool := false
  rsl : BitVec 2 := 3
  rtq : BitVec 2 := 3
  rth : Bool := false
  rce : BitVec 16 := 0
  refAbsent : Bool := false
  flags : BitVec 8 := 0
  w3 : Word := 0
  endBy : BitVec 2 := 0
  endAt : Full := 0
  stopKeys : List Key := []
  qual : Option (BitVec 12) := none
  deriving DecidableEq, Repr

/-- A waveform source change that waits for its start (R291): who asked, whether the accumulator is cleared, whether it starts at a
TIME, and the moment of the first sample (none: the sequencer event is awaited). -/
structure AwgPend where
  key : Option Key := none
  timed : Bool := false
  phaseReset : Bool := false
  startAt : Option Nat := none
  deriving DecidableEq, Repr

/-- What a waveform source plays (R287, R289): its mode, bank, DC code, AMP, OFS, POFF and FTW in force. -/
structure AwgRun where
  mode : BitVec 3 := 0
  bank : Bool := false
  loop : Bool := true
  dc : BitVec 16 := 0
  amp : Word := 0
  poff : BitVec 16 := 0
  ftw : BitVec 48 := 0
  deriving DecidableEq, Repr

/-- A waveform source (R284 to R294). `eff` is what plays now; `acc` and `runAt` are the accumulator and the moment of the
last sample that the model has accounted for (for PLAY the start of the present pass); `span` is the span in force; `bankPend` names who asked for a bank switch; `holdKey` is the ANA.SOURCE whose
PLAY pass runs; `spanAt` ends a span hold; `limitAt` is the onset of the leg limit. -/
structure Awg where
  ctrl : Word := 0x00000008#32
  stat : Word := 0x00000001#32
  level : Word := 0x34150000#32
  amp : Word := 0
  ftw : BitVec 48 := 0
  poff : Word := 0
  bank0 : Word := 0
  bank1 : Word := 0
  tstart : BitVec 64 := 0
  tstartEp : Word := 0
  shorts : Word := 0
  eff : AwgRun := {}
  span : BitVec 2 := 0
  acc : BitVec 48 := 0
  runAt : Nat := 0
  samples0 : List (BitVec 16) := []
  samples1 : List (BitVec 16) := []
  pend : Option AwgPend := none
  bankPend : Option (Option Key) := none
  holdKey : Option Key := none
  spanKey : Option Key := none
  spanAt : Nat := 0
  limitAt : Nat := 0
  deriving DecidableEq, Repr

/-- A digitiser (R295 to R303). -/
structure Dig where
  ctrl : Word := 0x00022000#32
  dly : Word := 0
  stat : Word := 0
  last : Word := 0
  cap : Option DigCap := none
  acq : Option Acq := none
  done : Bool := false
  deriving DecidableEq, Repr

/-- A pulse on its way to a trigger sequencer (R305): when it arrives, its source code and the stamp it carries. -/
structure Pulse where
  at_ : Nat := 0
  code : Nat := 0
  stamp : Full := 0
  deriving DecidableEq, Repr

/-- A trigger sequencer (R304 to R309, R325). `pend` holds the state numbers of the latches, `set` which are set; `tend` the
moments at which the timers reach 0; `lastMove` the last evaluation. -/
structure Trg where
  ctrl : Word := 0
  pend : Tab (BitVec 3) := []
  set : BitVec 9 := 0
  evlost : Word := 0
  csrc : Tab Word := []
  clim : Tab Word := []
  cval : Tab Word := []
  tlen : Tab Word := []
  tend : Tab Nat := []
  diglvl : Word := 0
  time : BitVec 64 := 0
  timeEp : Word := 0
  cond : Tab Word := []
  act : Tab Word := []
  pulses : List Pulse := []
  lastMove : Option Nat := none
  deriving DecidableEq, Repr

/-- A fire that waits for its decision (R313, R314). -/
structure Fire where
  t : Nat := 0
  dev : BitVec 10 := 0
  bay : BitVec 4 := 0
  source : BitVec 8 := 0xFF
  key : Option Key := none
  late : Bool := false
  deriving DecidableEq, Repr

/-- An arm group (R310 to R315, R326): state 0 IDLE, 1 HOLD, 2 READY, 3 BUSY, 4 REARM. -/
structure Ag where
  cfg : Word := 0
  hold : Word := 0
  hval : Word := 0
  recTime : Word := 0
  xlat : Word := 0x00000190#32
  nfire : Word := 0
  state : BitVec 3 := 0
  fires : Word := 0
  miss : Word := 0
  holdign : Word := 0
  xlate : Word := 0
  xgap : Word := 0
  last : Short := 0
  armAt : Nat := 0
  readyAt : Nat := 0
  trigAt : Nat := 0
  holdCount : Nat := 0
  known : List Fire := []
  seqOut : BitVec 32 := 0
  seqIn : Tab (BitVec 32) := []
  deriving DecidableEq, Repr

/-- A running PWR.SEQ (R267, R268), kept under the controller of its first step: its steps (controller, ON, delay in µs), the present step, whether it has acted or the
moment it acts; `turnedOn` the controllers turned on, the latest first; `unwind` the code it aborts with. -/
structure PwrSeq where
  key : Key := {}
  steps : List (Nat × Bool × Nat) := []
  cur : Nat := 0
  acting : Bool := false
  stepAt : Nat := 0
  turnedOn : List Nat := []
  unwind : Option (BitVec 12) := none
  failStep : Nat := 0
  deriving DecidableEq, Repr

/-- What belongs to a bay. -/
structure Bay where
  awg : Awg := {}
  dig : Dig := {}
  trg : Trg := {}
  cfg : Word := 0x00000064#32
  state : BitVec 2 := 0
  lastWake : BitVec 4 := 0
  wake : BitVec 64 := 0
  wakeReq : BitVec 4 := 0
  wakeKeys : List Key := []
  deriving DecidableEq, Repr

/-! ## Streams -/

/-- A pin of a site map (R127). -/
structure SitePin where
  pin : Nat := 0
  col : Nat := 0
  paired : Bool := false
  pair : Nat := 0
  deriving DecidableEq, Repr

/-- A site (R127): home slice, pins, controllers, monitors, and its match flag (R126). -/
structure Site where
  home : Nat := 0
  pins : List SitePin := []
  dps : List Nat := []
  mons : List Nat := []
  deriving DecidableEq, Repr

/-- A loop entry (R123): kind 0 COUNT, 1 MATCH, 2 BRANCH; cond 0 PASS, 1 FAIL, 2 ENGINE. -/
structure Loop where
  sp : Nat := 0
  sr : Nat := 0
  ep : Nat := 0
  er : Nat := 0
  kind : Nat := 0
  cond : Nat := 0
  least : Nat := 0
  most : Nat := 0
  deriving DecidableEq, Repr

/-- A position descriptor (R120). -/
structure Pos where
  slot : Nat := 0
  rows : Nat := 0
  tset : Nat := 0
  jtgt : Bool := false
  last : Bool := false
  deriving DecidableEq, Repr

/-- A loop a site is inside (R125, R132): entry, iteration number from 1, run index of the pass's first row, whether a
strobe of the iteration failed before its last 32 rows, the fails of those last rows (latest first), and the sampled
ENGINE flag. -/
structure LoopSt where
  entry : Nat := 0
  iter : Nat := 1
  passIdx : Nat := 0
  fail : Bool := false
  recent : List Bool := []
  eng : Bool := false
  deriving DecidableEq, Repr

/-- A member site in a run (R132 to R135, R146): the row it plays next (`pos`, `row`, run index `nidx`) and its start
`vstart` on the clock that is never set, the position it holds (`hpos`), its progress `idx`, and its end: status
0 COMPLETE, 1 MATCH_TIMEOUT, 2 UNDERRUN, 3 STOPPED, 4 FAULT. `ending` is an end that falls at the next vector boundary
(status, timeout cause, loop entry); `stopPos` the position after which it ends in an underrun; `privAt` the ECLK cycle in
which it took private fetch. -/
structure SiteRun where
  pos : Nat := 0
  row : Nat := 0
  hpos : Nat := 0
  idx : Nat := 0
  nidx : Nat := 0
  begun : Bool := false
  stopPos : Option Nat := none
  privAt : Nat := 0
  loops : List LoopSt := []
  live : Bool := true
  ending : Option (BitVec 8 × BitVec 8 × BitVec 8) := none
  status : BitVec 8 := 0
  cause : BitVec 8 := 0
  loopNo : BitVec 8 := 0xFF
  maxLag : Nat := 0
  priv : Bool := false
  vstart : Nat := 0
  endStamp : Short := 0
  drained : Bool := false
  sl : BitVec 2 := 3
  tq : BitVec 2 := 3
  th : Bool := false
  ce : BitVec 16 := 0
  ep : BitVec 16 := 0
  bays : BitVec 16 := 0
  deriving DecidableEq, Repr

/-- A pending jump request (R139): who asked (none: an engine), the target, the ECLK cycle of its arrival, and whether the
switch can still come at the end of the position the lead held then. -/
structure JumpReq where
  key : Option Key := none
  target : Nat := 0
  cycle : Nat := 0
  onTime : Bool := true
  deriving DecidableEq, Repr

/-- A commit point that the front has reached and that is not yet taken (R102): the position the lead holds, the run index
of the commit row, the ECLK cycle, the boundary row that ends the visit, the scheduled jump's target if the visit ends at
one (R140), and the position that the nominal path gives next (none: it ends). -/
structure ComPt where
  pos : Nat := 0
  idx : Nat := 0
  cycle : Nat := 0
  row : Nat := 0
  sched : Option Nat := none
  nominal : Option Nat := none
  inBody : Bool := false
  deriving DecidableEq, Repr

/-- A committed visit (R102) whose boundary no site has crossed: its position, commit index, boundary row, the target of a
committed jump, whether that jump is a scheduled one, and the selected position. -/
structure Sel where
  pos : Nat := 0
  idx : Nat := 0
  row : Nat := 0
  jump : Option Nat := none
  sched : Bool := false
  next : Option Nat := none
  deriving DecidableEq, Repr

/-- A jump request whose jump has been committed: who asked, the run index of the first target row once a site has taken
the jump, and whether it came late (R139). -/
structure Taken where
  key : Option Key := none
  idx : Option Nat := none
  late : Bool := false
  deriving DecidableEq, Repr

/-- A STR.START that waits for its grant (R473): the Sheaf, the listing slot, the capture buffer, the requested time. -/
structure StartReq where
  key : Key := {}
  sheaf : Nat := 0
  listing : Nat := 0
  first : Nat := 0
  count : Nat := 0
  time : Nat := 0
  obs : Bool := false
  deriving DecidableEq, Repr

/-- A run of a Sheaf from its admission to its completion (R136 to R146): phase 1 admitted, 2 playing, 3 over and waiting
for its verdicts. `lanes` counts vector-buffer lanes per bay; `jumps` lists the run indices after which the path jumps and
the targets; `held` the committed segments no site has entered. -/
structure Run where
  key : Key := {}
  phase : BitVec 2 := 1
  listing : Nat := 0
  width : Nat := 1
  symcols : BitVec 64 := 0
  maxLag : Nat := 0
  divSites : Nat := 0
  und : Option (List (BitVec 4)) := none
  safe : Option (List (BitVec 4)) := none
  loops : List Loop := []
  poss : List Pos := []
  first : Nat := 0
  count : Nat := 0
  startAt : Nat := 0
  start : Full := 0
  members : List Nat := []
  lanes : Tab Nat := []
  class1 : Nat := 0
  class2 : Nat := 0
  stks : BitVec 2 := 0
  sites : Tab SiteRun := []
  front : Nat := 0
  begun : Bool := false
  com : Option ComPt := none
  sel : Option Sel := none
  held : List Nat := []
  jump : Option JumpReq := none
  taken : List Taken := []
  scheds : List (Nat × Nat × Nat) := []
  jumps : List (Nat × Nat) := []
  under : Bool := false
  memUe : Option Nat := none
  stopped : Bool := false
  fault : Option (BitVec 12 × BitVec 16) := none
  quals : Word := 0
  firstQual : Option (BitVec 12) := none
  endStamp : Short := 0
  stopKeys : List (Option Nat × Key) := []
  warned : List Nat := []
  deriving DecidableEq, Repr

/-! ## Granary -/

/-- A pattern slot (R95): 0 FREE, 1 LOADING, 2 READY, 3 ACTIVE, 4 DRAINING; its sealed length. -/
structure Slot where
  st : BitVec 3 := 0
  len : Nat := 0
  deriving DecidableEq, Repr

/-- A running seal check (R98): slot, length, CRC, whether a write has spoilt it, whether a release abandoned it. -/
structure Seal where
  slot : Nat := 0
  len : Nat := 0
  crc : Word := 0
  spoilt : Bool := false
  key : Key := {}
  deriving DecidableEq, Repr

/-- A capture buffer (R93): first slot, slot count, whether work still writes to it. -/
structure Buf where
  first : Nat := 0
  count : Nat := 0
  busy : Bool := false
  deriving DecidableEq, Repr

/-- The Granary controller's registers and tables (R89 to R116). -/
structure Granary where
  mem : List Host.Cell := []
  slots : Tab Slot := []
  seals : List Seal := []
  caps : List Buf := []
  stat : Word := 0x02000000#32
  rgn0 : Word := 0x10000040#32
  rgn1 : Word := 0x10000040#32
  rsv0 : Word := 0
  rsv1 : Word := 0
  temp0 : Word := 0x02580000#32
  temp1 : Word := 0x02580000#32
  ce0 : Word := 0
  ce1 : Word := 0
  ue0 : Word := 0
  ue1 : Word := 0
  scrub : Word := 24
  warn : Word := 0
  ues : List Nat := []
  spillOut : List Nat := []
  deriving DecidableEq, Repr

/-! ## Faults -/

/-- A queued entry of the record queue (R442). -/
structure FEntry where
  stamp : Full := 0
  lastStamp : Full := 0
  sev : BitVec 2 := 0
  cause : BitVec 8 := 0
  detail : BitVec 32 := 0
  count : Nat := 1
  coalesced : Bool := false
  coarse : Bool := false
  same : Bool := false
  deriving DecidableEq, Repr

/-- A fault source and its Sieve state (R437 to R443). `hold` is the hold-off after its last record, `holdEnd` its end. -/
structure Source where
  base : BitVec 2 := 0
  sev : BitVec 2 := 0
  n : Nat := 16
  w : Nat := 1562500
  c : Nat := 0
  ws : Nat := 0
  esc : Bool := false
  alarm : Bool := false
  entry : Option FEntry := none
  hold : Bool := false
  holdEnd : Nat := 0
  lastSev : BitVec 2 := 0
  deriving DecidableEq, Repr

/-- A fault record (R444). -/
structure FRecord where
  stamp : Full := 0
  src : BitVec 12 := 0
  sev : BitVec 2 := 0
  flags : BitVec 8 := 0
  cause : BitVec 8 := 0
  count : BitVec 16 := 0
  seq : BitVec 32 := 0
  detail : BitVec 32 := 0
  span : BitVec 32 := 0
  copied : Bool := false
  deriving DecidableEq, Repr

/-- The fault system (R437 to R458). `dumping` is set while a FATAL's dump is written, `dumpEp` and `dumpSeq` are the epoch and SEQ of
its record; `warmAfter` holds an
RST_N low that came meanwhile; `pulseEnd` ends FAULT_N's pulse, `alarmAt` is the last ALARM message. -/
structure Faults where
  sources : Tab Source := []
  gleaner : List FRecord := []
  snap : Option (List FRecord) := none
  snapStamp : Full := 0
  cfg : Word := 0x061B0000#32
  asserted : Bool := false
  pulse : Bool := false
  pin : Word := 0x30000064#32
  dst : Word := 0
  maxsev : BitVec 2 := 0
  seq : BitVec 32 := 0
  lost : Word := 0
  tail : Nat := 0
  head : Nat := 0
  size : Nat := 1048576
  unread : Nat := 0
  slots : Tab Word := []
  dump : Word := 0
  dumpT : Short := 0
  dumpSrc : Word := 0
  dumpEp : BitVec 16 := 0
  dumpSeq : BitVec 32 := 0
  dumping : Bool := false
  fatalTimes : List Nat := []
  resetFlag : Bool := false
  lastEvent : Option Full := none
  alarmNew : Bool := false
  warmAfter : Bool := false
  pulseEnd : Nat := 0
  alarmAt : Nat := 0
  deriving DecidableEq, Repr

/-! ## Time -/

/-- An entry of a port's transmit-timestamp queue (R422). -/
structure TsqEntry where
  id : BitVec 16 := 0
  kind : BitVec 4 := 0
  t : Full := 0
  replayed : Bool := false
  deriving DecidableEq, Repr

/-- A Sync at a SLAVE port (R418, R423): its t2 and, once known, t1, in 1/256 fine steps, its correctionField, and when it came. -/
structure PtpSync where
  id : BitVec 16 := 0
  t2 : Int := 0
  t1 : Option Int := none
  corr : Int := 0
  at_ : Nat := 0
  deriving DecidableEq, Repr

/-- A Delay_Req of a SLAVE port that waits for its Delay_Resp (R418, R423): its t3 in 1/256 fine steps unless it is not to be
used, the Sync it pairs with, and when it left. -/
structure PtpReq where
  id : BitVec 16 := 0
  t3 : Option Int := none
  sync : Option PtpSync := none
  at_ : Nat := 0
  deriving DecidableEq, Repr

/-- A running TIM.SYNC_CAL (R425): pulses answered or missing so far, the missing ones, the sum of the round trips, and whether a
pulse awaits its return; later commands wait for their own measurement. -/
structure SyncCal where
  key : Key := {}
  waiting : List Key := []
  seen : Nat := 0
  missing : Nat := 0
  sum : Int := 0
  out : Bool := false
  deriving DecidableEq, Repr

/-- An entry of a port's asymmetry table (R430). -/
structure AsymEntry where
  peer : BitVec 13 := 0
  delay : Int := 0
  asym : Int := 0
  age : Nat := 0
  deriving DecidableEq, Repr

/-- The 1588 side of a port (R417 to R431). `delays` are the last path delays, latest first, `above` and `below` count consecutive
ones off the filtered delay, `since` counts measurements since a path step, `loaded` updates since a table entry was loaded,
`asymSum` the values of R431, `syncs` the Syncs that may still be used, the latest first, `dreqs` the Delay_Reqs that wait. `oldPeer`
is the peer when the link was last ACTIVE (none before; 0x1FFF after a fence). -/
structure TPort where
  reg : Word := 0
  pdelay : Int := 0
  asym : Int := 0
  tsq : List TsqEntry := []
  ovf : Bool := false
  lostId : BitVec 16 := 0
  lost : Word := 0
  bad : Word := 0
  table : Tab AsymEntry := []
  delays : List Int := []
  above : Nat := 0
  below : Nat := 0
  since : Nat := 0
  asymSum : List Int := []
  loaded : Option Nat := none
  syncs : List PtpSync := []
  dreqs : List PtpReq := []
  syncSeq : BitVec 16 := 0
  dreqSeq : BitVec 16 := 0
  annSeq : BitVec 16 := 0
  announce : Option PtpMsg := none
  oldPeer : Option (BitVec 13) := none
  deriving DecidableEq, Repr

/-- A TPO schedule (R432): mode 0 off, 1 once, 2 periodic; times in system time. `key` waits for the first pulse; `pend` is a new
schedule that waits for its own: mode, time, width, period, command. -/
structure Tpo where
  mode : BitVec 2 := 0
  first : Nat := 0
  nextAt : Nat := 0
  width : Nat := 0
  period : Nat := 0
  key : Option Key := none
  pend : Option (BitVec 2 × Nat × Nat × Nat × Key) := none
  deriving DecidableEq, Repr

/-- A TCI input (R433). -/
structure Tci where
  cfg : Word := 0
  lost : BitVec 8 := 0
  ovf : Bool := false
  fifo : List Full := []
  latch : Full := 0
  last : Option Nat := none
  deriving DecidableEq, Repr

/-- The time block (R411 to R436). The present time is State.now. `integ` is the servo integral in 2^-60, `theta` and `thetaS` the
latest offsets in 1/256 fine steps, `locks` and `unlocks` the consecutive updates inside and outside the thresholds; `syncAt` is
the moment from which four periods without a valid SYNC edge count. -/
structure Time where
  tq : BitVec 2 := 0
  lockHist : Bool := false
  stepPend : Bool := false
  refPresent : Bool := false
  refIosc : Bool := true
  phaseSync : Bool := false
  cfg : Word := 0
  ref : Word := 0
  nowHi : Word := 0
  nowEp : Word := 0
  servo : Word := 0x40250028#32
  servo2 : Word := 0x01900320#32
  trim : Int := 0
  integ : Int := 0
  offset : Int := 0
  ptp : Word := 0x00000440#32
  sync : Word := 0x000003E8#32
  syncDly : Int := 0
  syncRt : Word := 0
  stray : Word := 0
  locks : Nat := 0
  unlocks : Nat := 0
  theta : Option Int := none
  thetaS : Option Int := none
  ports : Tab TPort := []
  tpo : Tab Tpo := []
  tci : Tab Tci := []
  setPend : Option (Key × Full) := none
  setUntil : Nat := 0
  syncAt : Option Nat := none
  cal : Option SyncCal := none
  moving : Bool := false
  sclk : Bool := true
  calPeriod : Word := 10
  calActive : Bool := false
  calDone : Bool := false
  calRej : Word := 0
  deriving DecidableEq, Repr

/-! ## Obros ports -/

/-- A DATA flit at a transmitter (R395), its sequence number apart: VC, first and last of its message, payload. -/
structure TxFlit where
  vc : BitVec 2 := 0
  som : Bool := false
  eom : Bool := false
  payload : List Byte := []
  deriving DecidableEq, Repr

/-- An Obros port (R380 to R410): STATE 0 OFF, 1 TRAINING, 2 ACTIVE, 3 LPI, 4 FENCED. `txBuf` holds the unacknowledged flits from
`txAck` + 1 on, `txWait` flits that wait for credit or room, `rrVc` and `rrLeft` the place of the round robin, `freed` the last CCNT of
each channel, `nakAck` the last ACK value answered with a replay, `stuck` the replays since the last ACK progress, `uncRun` the
consecutive uncorrectable codewords, `relock` a training after they broke FEC lock, `failAt` the end of a failed training (0: none),
`fenceAt` the start of the present 1 s of a fence (0: not fenced). -/
structure Port where
  cfg : Word := 0x00000FC2#32
  state : BitVec 3 := 1
  lastFail : BitVec 3 := 0
  fckIn : Bool := false
  fckLost : Bool := false
  frozen : BitVec 4 := 0
  preRx : Bool := false
  polInv : BitVec 4 := 0
  laneMap : BitVec 8 := 0
  skew : BitVec 7 := 0
  peerDev : BitVec 10 := 0
  peerPort : BitVec 3 := 0
  vcw : Word := 0x00000842#32
  cwcor : BitVec 64 := 0
  cwunc : Word := 0
  crcerr : Word := 0
  replays : Word := 0
  freezes : Word := 0
  trains : Word := 0
  fences : Word := 0
  badmsg : Word := 0
  totCor : BitVec 64 := 0
  totUnc : BitVec 64 := 0
  totSym : BitVec 64 := 0
  totCrc : Word := 0
  totReplay : Word := 0
  totFence : Word := 0
  totFreeze : Word := 0
  totTrain : Word := 0
  upStamp : Short := 0
  descr : BitVec 58 := 0
  txSeq : Nat := 0
  txAck : Nat := 1023
  txBuf : List TxFlit := []
  txWait : List TxFlit := []
  rrVc : Nat := 0
  rrLeft : Nat := 0
  rxSeq : Nat := 0
  nak : Bool := false
  nakAck : Option Nat := none
  stuck : Nat := 0
  uncRun : Nat := 0
  asm : Tab (List Byte) := []
  credits : List Nat := []
  freed : List Nat := []
  txLpi : Bool := false
  rxLpi : Bool := false
  relock : Bool := false
  failAt : Nat := 0
  fenceAt : Nat := 0
  clkTrained : Bool := false
  preTrained : Bool := false
  deriving DecidableEq, Repr

/-! ## Thermal and supplies -/

/-- A thermal zone (R470 to R476). `changes` are the moments of the level changes within the last second, `prev` the last samples,
`passAt` the moments since when excluded sensors pass every check, `holdAt`, `lockAt` and `stepAt` the starts of the hold, the flap
lock and the present 100 ms of S. -/
structure Zone where
  temp : Int := 0
  s : BitVec 4 := 8
  crossed : BitVec 7 := 0
  level : BitVec 3 := 0
  warn : Bool := false
  hold : Bool := false
  flaplock : Bool := false
  novalid : Bool := false
  excl : BitVec 8 := 0
  flaps : Word := 0
  changes : List Nat := []
  prev : List Int := []
  eventAt : Option Nat := none
  passAt : Tab Nat := []
  holdAt : Nat := 0
  lockAt : Nat := 0
  stepAt : Nat := 0
  deriving DecidableEq, Repr

/-- A remote diode (R32, R470). -/
structure Diode where
  temp : Int := 0
  lim : Word := 0x7FFF8000#32
  deriving DecidableEq, Repr

/-- Supplies, sleep and the governor (R459 to R480). -/
structure Thermal where
  supCfg : Word := 1
  supStat : Word := 0
  vin : Word := 0
  vpe : Word := 0
  switches : Word := 0
  switchTotal : Word := 0
  flapTotal : Word := 0
  sl0 : Word := 2
  zones : Tab Zone := []
  diodes : Tab Diode := []
  shutdown : Bool := false
  inSl0 : Bool := false
  deriving DecidableEq, Repr

/-! ## Observation -/

/-- The trace port and the counters (R505 to R513). -/
structure Obs where
  en : Bool := false
  lanes : Bool := false
  filter : BitVec 64 := 0
  drop : Word := 0
  tseq : BitVec 32 := 0
  buffer : List (List Byte) := []
  dropped : Nat := 0
  dropFirst : BitVec 32 := 0
  dropStamp : Short := 0
  counters : Tab Nat := []
  latch : Tab Word := []
  deriving DecidableEq, Repr

/-! ## The seed image and the management pairs -/

/-- The flash die and the management pairs (R172, R481 to R496). -/
structure Boot where
  sl : BitVec 2 := 1
  cause : BitVec 4 := 0
  recovery : Bool := false
  fwCopy : Bool := false
  coefNom : Bool := false
  flashWb : Bool := false
  switching : Bool := false
  active : Bool := false
  stbyImg : Bool := true
  warms : Word := 0
  fwAct : Word := 0
  fwStby : Word := 0
  stbyFailed : Bool := false
  switchKey : Option Key := none
  flashOk : Bool := true
  sliceImg : List (BitVec 128) := [0x70000000000000000000000000000000#128]
  bayImg : List (BitVec 128) := [0x70000000000000000000000000000000#128]
  mcVersion : Word := 0
  mcFirstBad : Bool := false
  mcSecondBad : Bool := false
  fwVer0 : Word := 0
  fwVer1 : Word := 0
  fwBad0 : Bool := false
  fwBad1 : Bool := false
  coefBad : Bool := false
  calDone : Bool := false
  held : Bool := false
  coldPend : Bool := false
  warmBusy : Bool := false
  warmCause : BitVec 4 := 0
  off : Bool := false
  deriving DecidableEq, Repr

/-! ## The whole block -/

/-- The state of the block. `pending` is the queue of commands that wait, first in, first out; `out` and `freeNo` are
the model's own (what the block has sent; a counter that steps through free values). `now` is system time (R11); `mono` counts the fine
steps passed since power-up and is never set: spans of time are taken from it. -/
structure State where
  pending : List Instr := []
  now : Full := 0
  mono : Nat := 0
  part16 : Bool := false
  devid : BitVec 10 := 0
  ce : BitVec 16 := 0
  boot : Boot := {}
  -- commands
  works : List Work := []
  compl : List Cpl := []
  queues : Tab Queue := [(0, { state := 1, credits := 16, maxlen := 510, sources := 0x7F })]
  cqs : Tab Cq := [(0, { state := 1 })]
  intake : Tab (List Packet) := []
  journal : List JEntry := []
  jsn : Nat := 0
  jtail : Nat := 0
  jfull : Bool := false
  journalLost : Bool := true
  role : Word := 0x0000003F#32
  crcerr : Word := 0
  dups : Word := 0
  spi : Spi := {}
  out : List Out := []
  -- pin side
  pins : Tab Pin := []
  slices : Tab Slice := []
  caps : List TdcCap := []
  engines : Tab Engine := []
  dps : Tab Dps := []
  mons : Tab Mon := []
  blks : Tab Blk := []
  bays : Tab Bay := []
  groups : Tab Ag := []
  seqs : Tab PwrSeq := []
  fenced : List FenceUnit := []
  -- streams
  sites : Tab Site := []
  sheaves : Tab (BitVec 128) := []
  runs : Tab Run := []
  starts : List StartReq := []
  match? : BitVec 128 := 0
  -- shared blocks
  grn : Granary := {}
  flt : Faults := {}
  tim : Time := {}
  ports : Tab Port := []
  routes : Tab Word := []
  mcast : Tab Word := []
  noroute : Word := 0
  ttldrop : Word := 0
  thm : Thermal := {}
  obs : Obs := {}
  freeNo : Nat := 0
  deriving DecidableEq, Repr

/-- The machine right after reset: every block as R486 gives it at SL1 before the first command. Where the spec states
no reset value the log entries 1 and 2 name it. -/
def State.reset : State := {}

end Sys2Proof.Machine
end

