-- ==== Sys2Proof/Machine/Ops.lean ====
section
/-!
DEFINITION. The named operations every family shares: bit fields, sparse tables, bytes and CRC-32C, Granary memory, the
passing of time, trace and counters, the Sieve, and completions with their quality tags.
-/
namespace Sys2Proof.Machine

/-! ## Bit fields -/

/-- The field of `len` bits at bit `lo`. -/
def fld {n : Nat} (w : BitVec n) (lo len : Nat) : Nat := (w.toNat >>> lo) % 2 ^ len

/-- `w` with the field of `len` bits at bit `lo` replaced by `v` (its low `len` bits). -/
def setFld {n : Nat} (w : BitVec n) (lo len v : Nat) : BitVec n :=
  (w &&& ~~~(BitVec.ofNat n ((2 ^ len - 1) <<< lo))) ||| BitVec.ofNat n ((v % 2 ^ len) <<< lo)

/-- Bit `i`. -/
def bit {n : Nat} (w : BitVec n) (i : Nat) : Bool := w.getLsbD i

/-- `w` with bit `i` replaced. -/
def setBit {n : Nat} (w : BitVec n) (i : Nat) (b : Bool) : BitVec n := setFld w i 1 b.toNat

/-- The numbers `0` to `n - 1` whose bit is set. -/
def bitsOf (n w : Nat) : List Nat := (List.range n).filter (fun i => w.testBit i)

/-- The word whose bits are the listed numbers. -/
def bitsToNat (l : List Nat) : Nat := l.foldl (fun a i => a ||| 2 ^ i) 0

/-- `n` read as a signed number of `len` bits. -/
def toSigned (len n : Nat) : Int := if n % 2 ^ len < 2 ^ (len - 1) then (n % 2 ^ len : Nat) else (n % 2 ^ len : Nat) - (2 ^ len : Nat)

/-- The two's complement of `len` bits of a number. -/
def ofSigned (len : Nat) (v : Int) : Nat := (v % (2 ^ len : Nat)).toNat

/-- Saturating increment of a 32-bit counter. -/
def satInc (w : Word) : Word := if w = 0xFFFFFFFF#32 then w else w + 1

/-- Saturating addition to a 32-bit counter. -/
def satAdd (w : Word) (n : Nat) : Word := BitVec.ofNat 32 (min (w.toNat + n) 0xFFFFFFFF)

/-- Ceiling division. -/
def cdiv (a b : Nat) : Nat := (a + b - 1) / b

/-- Nearest integer to `a / b`, halves rounded up (R39, R369), for `0 < b`. -/
def roundDiv (a : Int) (b : Nat) : Int := (2 * a + b) / (2 * (b : Int))

/-- Nearest integer to `a / b`, halves rounded away from zero (R242), for `0 < b`. -/
def roundAway (a : Int) (b : Nat) : Int :=
  if a < 0 then -((2 * (-a) + b) / (2 * (b : Int))) else (2 * a + b) / (2 * (b : Int))

/-! ## Sparse tables -/

/-- The entry at `k`, or the default. -/
def Tab.get {α : Type} (d : α) : Tab α → Nat → α
  | [], _ => d
  | (k', v) :: t, k => if k = k' then v else Tab.get d t k

/-- The entry at `k`, if one is listed. -/
def Tab.find {α : Type} : Tab α → Nat → Option α
  | [], _ => none
  | (k', v) :: t, k => if k = k' then some v else Tab.find t k

/-- Replaces the entry at `k`, keeping the keys in order. -/
def Tab.set {α : Type} : Tab α → Nat → α → Tab α
  | [], k, v => [(k, v)]
  | (k', v') :: t, k, v =>
    if k = k' then (k, v) :: t else if k < k' then (k, v) :: (k', v') :: t else (k', v') :: Tab.set t k v

/-- Changes the entry at `k`. -/
def Tab.upd {α : Type} (d : α) (t : Tab α) (k : Nat) (f : α → α) : Tab α := Tab.set t k (f (Tab.get d t k))

/-- Removes the entry at `k`. -/
def Tab.erase {α : Type} (t : Tab α) (k : Nat) : Tab α := t.filter (fun e => e.1 != k)

/-- Changes every listed entry. -/
def Tab.mapVals {α : Type} (t : Tab α) (f : Nat → α → α) : Tab α := t.map (fun e => (e.1, f e.1 e.2))

/-- The listed keys. -/
def Tab.keys {α : Type} (t : Tab α) : List Nat := t.map (·.1)

/-- The keys of a table rise. -/
def Tab.wf {α : Type} : Tab α → Bool
  | [] => true
  | [_] => true
  | (k, _) :: (k', v') :: t => decide (k < k') && Tab.wf ((k', v') :: t)

/-! ## Bytes -/

/-- The `n` bytes of a number, least significant first (R10, R13). -/
def leBytes : Nat → Nat → List Byte
  | 0, _ => []
  | n + 1, v => BitVec.ofNat 8 v :: leBytes n (v / 256)

/-- The number that bytes spell, least significant first. -/
def fromLe : List Byte → Nat
  | [] => 0
  | b :: l => b.toNat + 256 * fromLe l

/-- The number of `n` bytes at offset `o`; bytes past the end read 0. -/
def rdLe (l : List Byte) (o n : Nat) : Nat := fromLe ((l.drop o).take n)

/-- `l` with zeros up to length `n`, cut at `n`. -/
def padTo (n : Nat) (l : List Byte) : List Byte := (l ++ List.replicate (n - l.length) 0).take n

/-- `l` with zeros up to a multiple of `n`. -/
def padMult (n : Nat) (l : List Byte) : List Byte := padTo (cdiv l.length n * n) l

/-- `l` with the bytes `b` at offset `o`. -/
def patch (l : List Byte) (o : Nat) (b : List Byte) : List Byte := l.take o ++ b ++ l.drop (o + b.length)

/-- One bit of CRC-32C, reflected polynomial 0x82F63B78. -/
def crcBit (c : Word) : Word := if bit c 0 then (c >>> 1) ^^^ 0x82F63B78#32 else c >>> 1

/-- One byte of CRC-32C. -/
def crcByte (c : Word) (b : Byte) : Word :=
  crcBit (crcBit (crcBit (crcBit (crcBit (crcBit (crcBit (crcBit (c ^^^ b.setWidth 32))))))))

/-- CRC-32C (Castagnoli) of bytes: initial and final value all ones. -/
def crc32c (l : List Byte) : Word := (l.foldl crcByte 0xFFFFFFFF#32) ^^^ 0xFFFFFFFF#32

/-! ## Granary memory -/

/-- The byte at an address; an address that nothing has written reads 0. DESIGN CHOICE, log entry 10. -/
def memRead : List Host.Cell → Nat → Byte
  | [], _ => 0
  | (a', v) :: m, a => if a = a' then v else memRead m a

/-- Lists a byte other than 0 at its place. -/
def memInsert : List Host.Cell → Nat → Byte → List Host.Cell
  | [], a, v => [(a, v)]
  | (a', v') :: m, a, v =>
    if a < a' then (a, v) :: (a', v') :: m else if a = a' then (a, v) :: m else (a', v') :: memInsert m a v

/-- Unlists an address. -/
def memErase : List Host.Cell → Nat → List Host.Cell
  | [], _ => []
  | (a', v') :: m, a => if a = a' then memErase m a else (a', v') :: memErase m a

/-- Writes one byte, keeping the canonical form. -/
def memWrite (m : List Host.Cell) (a : Nat) (v : Byte) : List Host.Cell :=
  if v = 0 then memErase m a else memInsert m a v

/-- Writes bytes from an address upward. -/
def memWrites : List Host.Cell → Nat → List Byte → List Host.Cell
  | m, _, [] => m
  | m, a, b :: l => memWrites (memWrite m a b) (a + 1) l

/-- Reads `n` bytes from an address upward. -/
def memReads (m : List Host.Cell) (a n : Nat) : List Byte := (List.range n).map (fun i => memRead m (a + i))

/-- Addresses above `lo` rising, no byte 0. -/
def memWfFrom : Option Nat → List Host.Cell → Bool
  | _, [] => true
  | lo, (a, v) :: m => (match lo with | none => true | some l => decide (l < a)) && v != 0 && memWfFrom (some a) m

/-- The canonical form of memory: addresses strictly rising, no entry equal to what an unlisted address reads as. -/
def Memory.wf (m : List Host.Cell) : Bool := memWfFrom none m

/-- Slots per stack (R89). -/
def slotsPerStack (s : State) : Nat := if s.part16 then 8192 else 16384

/-- 1 MiB, a slot (R89). -/
def slotSize : Nat := 1048576

/-- The stack of a slot (R89). -/
def stackOf (s : State) (slot : Nat) : Nat := slot / slotsPerStack s

/-- The Granary's size in bytes (R89). -/
def grnSize (s : State) : Nat := 2 * slotsPerStack s * slotSize

/-! ## Units -/

def State.pin (s : State) (p : Nat) : Pin := Tab.get {} s.pins p
def State.updPin (s : State) (p : Nat) (f : Pin → Pin) : State := { s with pins := Tab.upd {} s.pins p f }
def State.slice (s : State) (n : Nat) : Slice := Tab.get {} s.slices n
def State.updSlice (s : State) (n : Nat) (f : Slice → Slice) : State := { s with slices := Tab.upd {} s.slices n f }
def State.eng (s : State) (e : Nat) : Engine := Tab.get {} s.engines e
def State.updEng (s : State) (e : Nat) (f : Engine → Engine) : State := { s with engines := Tab.upd {} s.engines e f }
def State.dpsOf (s : State) (d : Nat) : Dps := Tab.get {} s.dps d
def State.updDps (s : State) (d : Nat) (f : Dps → Dps) : State := { s with dps := Tab.upd {} s.dps d f }
def State.mon (s : State) (m : Nat) : Mon := Tab.get {} s.mons m
def State.updMon (s : State) (m : Nat) (f : Mon → Mon) : State := { s with mons := Tab.upd {} s.mons m f }
def State.bay (s : State) (k : Nat) : Bay := Tab.get {} s.bays k
def State.updBay (s : State) (k : Nat) (f : Bay → Bay) : State := { s with bays := Tab.upd {} s.bays k f }
def State.group (s : State) (g : Nat) : Ag := Tab.get {} s.groups g
def State.updGroup (s : State) (g : Nat) (f : Ag → Ag) : State := { s with groups := Tab.upd {} s.groups g f }
def State.port (s : State) (n : Nat) : Port := Tab.get {} s.ports n
def State.updPort (s : State) (n : Nat) (f : Port → Port) : State := { s with ports := Tab.upd {} s.ports n f }
def State.tport (s : State) (n : Nat) : TPort := Tab.get {} s.tim.ports n
def State.updTport (s : State) (n : Nat) (f : TPort → TPort) : State :=
  { s with tim := { s.tim with ports := Tab.upd {} s.tim.ports n f } }
def State.zone (s : State) (z : Nat) : Zone := Tab.get {} s.thm.zones z
def State.updZone (s : State) (z : Nat) (f : Zone → Zone) : State :=
  { s with thm := { s.thm with zones := Tab.upd {} s.thm.zones z f } }
def State.queue (s : State) (q : Nat) : Queue := Tab.get {} s.queues q
def State.updQueue (s : State) (q : Nat) (f : Queue → Queue) : State := { s with queues := Tab.upd {} s.queues q f }
def State.cq (s : State) (c : Nat) : Cq := Tab.get {} s.cqs c
def State.updCq (s : State) (c : Nat) (f : Cq → Cq) : State := { s with cqs := Tab.upd {} s.cqs c f }
def State.slot (s : State) (n : Nat) : Slot := Tab.get {} s.grn.slots n
def State.updSlot (s : State) (n : Nat) (f : Slot → Slot) : State :=
  { s with grn := { s.grn with slots := Tab.upd {} s.grn.slots n f } }
def State.updGrn (s : State) (f : Granary → Granary) : State := { s with grn := f s.grn }
def State.updFlt (s : State) (f : Faults → Faults) : State := { s with flt := f s.flt }
def State.updTim (s : State) (f : Time → Time) : State := { s with tim := f s.tim }
def State.updThm (s : State) (f : Thermal → Thermal) : State := { s with thm := f s.thm }
def State.updObs (s : State) (f : Obs → Obs) : State := { s with obs := f s.obs }
def State.updBoot (s : State) (f : Boot → Boot) : State := { s with boot := f s.boot }
def State.run? (s : State) (h : Nat) : Option Run := Tab.find s.runs h
def State.updRun (s : State) (h : Nat) (f : Run → Run) : State :=
  match Tab.find s.runs h with
  | none => s
  | some r => { s with runs := Tab.set s.runs h (f r) }

/-- Changes every unit of a list of numbers in turn. -/
def forAll (l : List Nat) (f : Nat → State → State) (s : State) : State := l.foldl (fun s i => f i s) s

/-- Sends something to the outside. -/
def emit (o : Out) (s : State) : State := { s with out := s.out ++ [o] }

/-! ## Time -/

/-- The present short stamp (R11). -/
def State.stamp (s : State) : Short := s.now.setWidth 64

/-- The present time epoch (R11). -/
def State.ep (s : State) : BitVec 16 := s.now.extractLsb' 64 16

/-- Fine steps in an ECLK cycle (R22): 8 SCLK cycles of 256 fine steps. -/
def eclkSteps : Nat := 2048

/-- Fine steps in an AOCLK tick: 2,048 SCLK cycles (R22). -/
def aoclkSteps : Nat := 524288

/-- Fine steps in a microsecond: 3,200 SCLK cycles. -/
def usSteps : Nat := 819200

/-- Lets `d` fine steps pass. Carrying past 2^64 increments EP (R11). -/
def advance (d : Nat) (s : State) : State := { s with now := s.now + BitVec.ofNat 80 d, mono := s.mono + d }

/-- Lets time pass until system time `t`, when it has not passed already. -/
def advanceTo (t : Nat) (s : State) : State := if s.now.toNat < t then advance (t - s.now.toNat) s else s

/-- Lets time pass until `t` on the clock that is never set. -/
def advanceMono (t : Nat) (s : State) : State := if s.mono < t then advance (t - s.mono) s else s

/-- One idle step: an ECLK cycle passes. -/
def idle (s : State) : State := advance eclkSteps s

/-- SCLK runs: the device is above SL0 and the SCLK PLL has not stopped (R22, R467). -/
def State.sclkOn (s : State) : Bool := s.tim.sclk && !s.thm.inSl0

/-- The stamp an event gets at the Sieve and in trace records (R413, R441, R508): the start of the ECLK cycle, or the
AOCLK tick while SCLK is stopped. -/
def State.evStamp (s : State) : Full :=
  let g := if s.sclkOn then eclkSteps else aoclkSteps
  BitVec.ofNat 80 (s.now.toNat / g * g)

/-- A free value is drawn: its number, and the state with the counter advanced. -/
def draw (s : State) : Nat × State := (s.freeNo, { s with freeNo := s.freeNo + 1 })

/-- A quantity that the device measures, or a value that the spec leaves unstated: the n-th one drawn, free. -/
def measure (s : State) : Nat × State :=
  let (n, s) := draw s
  (Config.measured n, s)

/-! ## Trace and counters -/

/-- Counter `i` counts `n` more, modulo 2^48 (R512). -/
def count (i n : Nat) (s : State) : State :=
  s.updObs (fun o => { o with counters := Tab.set o.counters i ((Tab.get 0 o.counters i + n) % 2 ^ 48) })

/-- A trace record (R508). -/
def traceRecord (ty sub : Nat) (stamp : Full) (tseq : BitVec 32) (body : List Byte) : List Byte :=
  leBytes 1 ty ++ leBytes 1 sub ++ leBytes 2 (stamp.toNat / 2 ^ 64) ++ leBytes 4 tseq.toNat
    ++ leBytes 8 (stamp.toNat % 2 ^ 64) ++ padTo 16 body

/-- Whether the filter passes an event (R509). `sel` is the Sheaf of a STREAM record or the queue of a COMMAND record. -/
def tracePasses (o : Obs) (ty sub sel : Nat) : Bool :=
  o.en && o.filter.getLsbD ty && decide (ty ≤ 7) && decide (ty ≠ 0) &&
    (ty != 1 || decide (fld o.filter 16 2 ≤ sub)) &&
    (ty != 3 || fld o.filter 24 8 == 0xFF || fld o.filter 24 8 == sel) &&
    (ty != 2 || !bit o.filter 48 || fld o.filter 32 16 == sel)

/-- Room of the trace buffer for records other than DROP (R510): one of the 4,096 places is kept for a DROP record. -/
def traceRoom : Nat := 4095

/-- Puts the DROP record of all drops since the last one into the buffer when space has returned (R510). -/
def traceDropRecord (st : Full) (o : Obs) : Obs :=
  if o.dropped = 0 ∨ traceRoom ≤ o.buffer.length then o
  else { o with
    buffer := o.buffer ++ [traceRecord 0x0F 0 st o.tseq
      (leBytes 4 o.dropped ++ leBytes 4 o.dropFirst.toNat ++ leBytes 8 (o.dropStamp.toNat % 2 ^ 64))]
    tseq := o.tseq + 1
    dropped := 0 }

/-- Offers a record to the trace buffer (R508 to R510). -/
def trace (ty sub sel : Nat) (body : List Byte) (s : State) : State :=
  if tracePasses s.obs ty sub sel then
    let o := s.obs
    if o.buffer.length < traceRoom then
      let o := traceDropRecord s.evStamp o
      s.updObs (fun _ => { o with
        buffer := o.buffer ++ [traceRecord ty sub s.evStamp o.tseq body]
        tseq := o.tseq + 1 })
    else
      count 700 1 (s.updObs (fun _ => { o with
        drop := satInc o.drop
        dropped := o.dropped + 1
        dropFirst := if o.dropped = 0 then o.tseq else o.dropFirst
        dropStamp := if o.dropped = 0 then s.evStamp.setWidth 64 else o.dropStamp
        tseq := o.tseq + 1 }))
  else s

/-! ## Bytes of the Granary, counted -/

/-- The 64-byte units that a run of bytes touches, counted per stack from counter `base` (R512). -/
def countUnits (base a n : Nat) (s : State) : State :=
  if n = 0 then s else count (base + min 1 (a / (slotsPerStack s * slotSize))) ((a + n - 1) / 64 - a / 64 + 1) s

/-- Writes bytes into the Granary. -/
def grnStore (a : Nat) (l : List Byte) (s : State) : State :=
  countUnits 692 a l.length (s.updGrn (fun g => { g with mem := memWrites g.mem a l }))

/-- The uncorrectable units that a write of whole units makes sound again. -/
def rewriteUnits (a n : Nat) (s : State) : State :=
  s.updGrn (fun g => { g with ues := g.ues.filter (fun u => decide (32 * u < a) || decide (a + n < 32 * u + 32)) })

/-- Reads bytes of the Granary. -/
def grnLoad (a n : Nat) (s : State) : List Byte := memReads s.grn.mem a n

/-! ## The Sieve -/

/-- Source IDs of R437. -/
def srcPin (p : Nat) : Nat := 0x000 + p
def srcMon (m : Nat) : Nat := 0x100 + m
def srcDps (d : Nat) : Nat := 0x140 + d
def srcAna (k : Nat) : Nat := 0x160 + k
def srcBay (k : Nat) : Nat := 0x170 + k
def srcPeDie (j : Nat) : Nat := 0x180 + j
def srcTdcCal : Nat := 0x182
def srcCe (j : Nat) : Nat := 0x183 + j
def srcUe (j : Nat) : Nat := 0x185 + j
def srcStackFenced (j : Nat) : Nat := 0x187 + j
def srcJournalUe : Nat := 0x189
def srcFlash : Nat := 0x18A
def srcTrainFail (n : Nat) : Nat := 0x18B + n
def srcPortFenced (n : Nat) : Nat := 0x191 + n
def srcFckLost (n : Nat) : Nat := 0x197 + n
def srcAdapt (n : Nat) : Nat := 0x19D + n
def srcNoroute : Nat := 0x1A3
def srcXfireLate : Nat := 0x1A4
def srcTimeStep : Nat := 0x1A5
def srcRefLoss : Nat := 0x1A6
def srcSyncMiss : Nat := 0x1A7
def srcUnlock : Nat := 0x1A8
def srcTsqOvf (n : Nat) : Nat := 0x1A9 + n
def srcPathStep (n : Nat) : Nat := 0x1AF + n
def srcThrottle (z : Nat) : Nat := 0x1B5 + z
def srcWarn (z : Nat) : Nat := 0x1BD + z
def srcSensor (z : Nat) : Nat := 0x1C5 + z
def srcStackHot (j : Nat) : Nat := 0x1CD + j
def srcTd (n : Nat) : Nat := 0x1CF + n
def srcShutdown : Nat := 0x1D7
def srcSeedMc : Nat := 0x1D8
def srcCsVerify : Nat := 0x1D9
def srcCsPatrol : Nat := 0x1DA
def srcGroupOverrun : Nat := 0x1DB
def srcMgmtActive : Nat := 0x1DC
def srcMgmtStandby : Nat := 0x1DD
def srcCore : Nat := 0x1DE
def srcCsParity (k : Nat) : Nat := 0x1DF + k
def srcRefillWarn : Nat := 0x1EF
def srcUnderrun : Nat := 0x1F0
def srcPktCrc : Nat := 0x1F1
def srcJournalLost : Nat := 0x1F2
def srcDumpDone : Nat := 0x1F3
def srcPeRail : Nat := 0x1F4
def srcVin (b : Bool) : Nat := if b then 0x1F6 else 0x1F5
def srcSwitchover : Nat := 0x1F7
def srcCoreRail : Nat := 0x1F8

/-- Ranges of source IDs with their reset base severity (R437): first, last, base. -/
def baseRanges : List (Nat × Nat × Nat) :=
  [(0x000, 0x0FF, 1), (0x100, 0x13F, 0), (0x140, 0x16F, 1), (0x170, 0x181, 2), (0x182, 0x182, 1), (0x183, 0x184, 0),
   (0x185, 0x188, 2), (0x189, 0x189, 3), (0x18A, 0x18A, 2), (0x18B, 0x190, 0), (0x191, 0x196, 2), (0x197, 0x19C, 1),
   (0x19D, 0x1A3, 0), (0x1A4, 0x1A4, 1), (0x1A5, 0x1A5, 0), (0x1A6, 0x1A6, 1), (0x1A7, 0x1A7, 0), (0x1A8, 0x1A8, 1),
   (0x1A9, 0x1AE, 0), (0x1AF, 0x1B4, 1), (0x1B5, 0x1BC, 0), (0x1BD, 0x1C4, 2), (0x1C5, 0x1CC, 1), (0x1CD, 0x1CE, 2),
   (0x1CF, 0x1D6, 1), (0x1D7, 0x1D7, 3), (0x1D8, 0x1D8, 1), (0x1D9, 0x1D9, 2), (0x1DA, 0x1DB, 1), (0x1DC, 0x1DD, 2),
   (0x1DE, 0x1DE, 3), (0x1DF, 0x1EE, 2), (0x1EF, 0x1EF, 0), (0x1F0, 0x1F0, 1), (0x1F1, 0x1F1, 0), (0x1F2, 0x1F2, 2),
   (0x1F3, 0x1F3, 0), (0x1F4, 0x1F4, 2), (0x1F5, 0x1F6, 1), (0x1F7, 0x1F7, 0), (0x1F8, 0x1F8, 3)]

/-- Reset base severity of a source (R437); the reserved IDs read INFO. -/
def resetBase (i : Nat) : BitVec 2 :=
  match baseRanges.find? (fun r => decide (r.1 ≤ i) && decide (i ≤ r.2.1)) with
  | none => 0
  | some r => BitVec.ofNat 2 r.2.2

/-- A source at reset. -/
def source0 (i : Nat) : Source := { base := resetBase i, sev := resetBase i }

def State.source (s : State) (i : Nat) : Source := Tab.get (source0 i) s.flt.sources i
def State.updSource (s : State) (i : Nat) (f : Source → Source) : State :=
  s.updFlt (fun t => { t with sources := Tab.upd (source0 i) t.sources i f })

/-- AOCLK ticks passed (R440). -/
def State.ticks (s : State) : Nat := s.mono / aoclkSteps

/-- The Sieve grades one event of a source at tick `t` (R440); `atLeast` is the severity an event of the source is raised
at, where a rule names one (R437). -/
def sieveGrade (t : Nat) (atLeast : BitVec 2) (x : Source) : Source :=
  let newWin := decide (x.w ≤ t - x.ws)
  let esc0 := if newWin && (decide (2 * x.w ≤ t - x.ws) || decide (x.c < x.n)) then false else x.esc
  let ws := if newWin then t else x.ws
  let c := min ((if newWin then 0 else x.c) + 1) 65535
  let esc := esc0 || decide (x.n ≤ c)
  let sev : Nat := if 2 ≤ x.base.toNat then x.base.toNat else min (x.base.toNat + esc.toNat) 2
  { x with ws := ws, c := c, esc := esc, sev := BitVec.ofNat 2 (max sev atLeast.toNat), alarm := true }

/-- Queues a graded event (R442): a new entry, or a merge into the unwritten one. -/
def queueEvent (stamp : Full) (sev : BitVec 2) (cause : BitVec 8) (detail : BitVec 32) (coarse same : Bool)
    (x : Source) : Source :=
  match x.entry with
  | none =>
    { x with entry := some { stamp := stamp, lastStamp := stamp, sev := sev, cause := cause, detail := detail,
                             coarse := coarse, same := same } }
  | some e =>
    { x with entry := some { e with lastStamp := stamp, sev := if e.sev.toNat < sev.toNat then sev else e.sev
                                    cause := cause, detail := detail, count := min (e.count + 1) 65535
                                    coalesced := true, coarse := e.coarse || coarse, same := e.same || same } }

/-- Marks entries of the same cycle (R441, R442). -/
def markSame (stamp : Full) (x : Source) : Source :=
  match x.entry with
  | none => x
  | some e => if e.lastStamp = stamp then { x with entry := some { e with same := true } } else x

/-- An event of a fault source reaches the Sieve (R440 to R443, R448). -/
def raiseAt (atLeast : BitVec 2) (i cause detail : Nat) (s : State) : State :=
  let st := s.evStamp
  let same := s.flt.lastEvent == some st
  let s := if same then s.updFlt (fun t => { t with sources := Tab.mapVals t.sources (fun _ x => markSame st x) }) else s
  let x := s.source i
  let y := sieveGrade s.ticks atLeast x
  let y := queueEvent st y.sev (BitVec.ofNat 8 cause) (BitVec.ofNat 32 detail) (!s.sclkOn) same y
  (s.updSource i (fun _ => y)).updFlt (fun t =>
    { t with lastEvent := some st, alarmNew := t.alarmNew || !x.alarm })

/-- An event of a fault source at its own severity. -/
def raise (i cause detail : Nat) (s : State) : State := raiseAt 0 i cause detail s

/-! ## Quality tags -/

/-- The thermal zone of a bay (R31). -/
def zoneOfBay (k : Nat) : Nat := 2 + k / 4

/-- Throttling is active for work on these bays and stacks (R477). -/
def State.throttled (s : State) (bays : BitVec 16) (stks : BitVec 2) : Bool :=
  (([0, 1] ++ (bitsOf 16 bays.toNat).map zoneOfBay).any
      (fun z => decide (1 ≤ (s.zone z).level.toNat) || decide ((s.zone z).s.toNat < 8)))
    || (bit stks 0 && decide (0 < fld s.grn.stat 8 4)) || (bit stks 1 && decide (0 < fld s.grn.stat 12 4))

/-- The word of quality tags (R4). -/
def tagWord (sl tq : BitVec 2) (th : Bool) (ce : BitVec 16) : Word :=
  BitVec.ofNat 32 (sl.toNat * 2 ^ 30 + th.toNat * 2 ^ 29 + tq.toNat * 2 ^ 27 + ce.toNat)

/-- The lower of two tag values (R5). -/
def minTag (a b : BitVec 2) : BitVec 2 := if a.toNat ≤ b.toNat then a else b

/-- Lowers the tags of all work in progress to the present conditions (R5, R477): TH from acceptance, SL and TQ from the
start. -/
def lowerTags (s : State) : State :=
  { s with
    works := s.works.map (fun w =>
      { w with
        sl := if w.started then minTag w.sl s.boot.sl else w.sl
        tq := if w.started then minTag w.tq s.tim.tq else w.tq
        th := w.th || s.throttled w.bays w.stks })
    runs := Tab.mapVals s.runs (fun _ r =>
      { r with sites := Tab.mapVals r.sites (fun _ x =>
          if x.drained then x
          else { x with sl := minTag x.sl s.boot.sl, tq := minTag x.tq s.tim.tq
                        th := x.th || s.throttled x.bays r.stks }) })
    bays := Tab.mapVals s.bays (fun k b =>
      match b.dig.acq with
      | none => b
      | some a =>
        let a := { a with rsl := minTag a.rsl s.boot.sl, rtq := minTag a.rtq s.tim.tq
                          rth := a.rth || s.throttled (BitVec.ofNat 16 (2 ^ k)) (BitVec.ofNat 2 (2 ^ stackOf s a.first)) }
        let d := b.dig
        { b with dig := { d with acq := some a } }) }

def State.blk (s : State) (i : Nat) : Blk := Tab.get {} s.blks i
def State.updBlk (s : State) (i : Nat) (f : Blk → Blk) : State := { s with blks := Tab.upd {} s.blks i f }

/-- Sets the service level (R5). -/
def setSl (sl : BitVec 2) (s : State) : State := lowerTags (s.updBoot (fun b => { b with sl := sl }))

/-! ## Work and completions -/

/-- The work of a command. -/
def State.work? (s : State) (k : Key) : Option Work := s.works.find? (fun w => w.key == k)

/-- Changes the work of a command. -/
def State.updWork (s : State) (k : Key) (f : Work → Work) : State :=
  { s with works := s.works.map (fun w => if w.key = k then f w else w) }

/-- The opcodes executed by the management pair as firmware (R357 and the class tables). -/
def slowOpcodes : List Nat :=
  [0x012, 0x020, 0x021, 0x100, 0x101, 0x110, 0x111, 0x204, 0x205, 0x206, 0x300, 0x301, 0x302, 0x303, 0x401, 0x402,
   0x700, 0x701, 0x704, 0x803, 0x805, 0x900, 0x904, 0xA03, 0xB00, 0xB01, 0xB02, 0xB03, 0xB04, 0xB05, 0xC00, 0xC01,
   0xC02, 0xC03, 0xD01, 0xD05, 0xE01, 0xE04, 0xE05]

/-- The device-level condition that an OK completion of queue `qid` carries (R346): JOURNAL_LOST, SINGLE_JOURNAL,
STACK_HOT for work on a stack at derating step 6 (R107). -/
def deviceQualifier (s : State) (qid : BitVec 16) (stks : BitVec 2) : Option Nat :=
  if s.journalLost && qid == 0 then some 0x013
  else if bit s.grn.stat 17 then some 0x010
  else if (bit stks 0 && fld s.grn.stat 8 4 == 6) || (bit stks 1 && fld s.grn.stat 12 4 == 6) then some 0x14D
  else none

/-- The completion record of a command's work (R344, R346). -/
def mkCpl (s : State) (w : Work) (cls code detail : Nat) (w6 w7 : Word) (data : List Byte) : Cpl :=
  let q := if cls = 0 then deviceQualifier s w.key.qid w.stks else none
  { key := w.key, tag := w.tag, src := w.src
    cls := BitVec.ofNat 4 (if q.isSome then 1 else cls)
    code := BitVec.ofNat 12 (q.getD code)
    detail := BitVec.ofNat 16 detail
    w3 := tagWord (minTag w.sl s.boot.sl) (minTag w.tq s.tim.tq) (w.th || s.throttled w.bays w.stks) w.ce
    stamp := s.stamp, w6 := w6, w7 := w7, data := data }

/-- W2 of a completion record (R344). -/
def Cpl.w2 (c : Cpl) : Word := BitVec.ofNat 32 (c.cls.toNat * 2 ^ 28 + c.code.toNat * 2 ^ 16 + c.detail.toNat)

/-- The journal entry of a command. -/
def State.entry? (s : State) (k : Key) : Option JEntry := s.journal.find? (fun e => e.key == k && e.state != 0)

/-- Changes the journal entry of a command. -/
def State.updEntry (s : State) (k : Key) (f : JEntry → JEntry) : State :=
  { s with journal := s.journal.map (fun e => if e.key = k ∧ e.state ≠ 0 then f e else e) }

/-- A COMMAND trace record (R508): SUB 0 accepted, 1 started, 2 completed. -/
def traceCommand (sub : Nat) (k : Key) (op : Nat) (jsn : Nat) (w2 : Word) (s : State) : State :=
  trace 2 sub k.qid.toNat
    (leBytes 2 k.qid.toNat ++ leBytes 2 op ++ leBytes 4 k.seq.toNat ++ leBytes 4 jsn ++ leBytes 4 w2.toNat) s

/-- A REFUSED_STATE completion halts its queue unless the queue has CONTINUE_ON_REFUSE (R350). -/
def haltQueue (k : Key) (s : State) : State :=
  s.updQueue k.qid.toNat (fun q =>
    if q.state = 1 ∧ bit q.flags 1 = false then { q with state := 2, haltSeq := k.seq } else q)

/-- The work of a command, or an empty one under its key. -/
def State.workOf (s : State) (k : Key) : Work :=
  (s.work? k).getD { key := k, sl := s.boot.sl, tq := s.tim.tq, ce := s.ce }

/-- Removes the work of a command. -/
def dropWork (k : Key) (s : State) : State := { s with works := s.works.filter (fun w => w.key != k) }

/-- The completion is journaled and waits to be posted (R342, R349). Data of an SPI submission goes into SPI_CMD (R362). -/
def journalCpl (c : Cpl) (s : State) : State :=
  let s := if c.src = 6 ∧ c.data ≠ [] then { s with spi := { s.spi with cmd := patch (padTo 4160 s.spi.cmd) 0 c.data } } else s
  { (s.updEntry c.key (fun e => { e with state := 3, record := some c })) with compl := s.compl ++ [c] }

/-- The one completion of a command (R344 to R351). An execution that QUE.RESUME with RETRY began reports to that
QUE.RESUME, and reopens the queue unless it is REFUSED_STATE again. A command without work in progress has completed already. -/
def complete (k : Key) (cls code detail : Nat) (w6 w7 : Word) (data : List Byte) (s : State) : State :=
  if (s.work? k).isNone then s
  else
  let w := s.workOf k
  let c := mkCpl s w cls code detail w6 w7 data
  let e := s.entry? k
  let s := count (if w.op.toNat ∈ slowOpcodes then 697 else 696) 1 (dropWork k s)
  let s := traceCommand 2 k w.op.toNat ((e.map (·.jsn)).getD 0) c.w2 s
  match e.bind (·.retry) with
  | some rk =>
    let rw := s.workOf rk
    let c' : Cpl := { c with key := rk, tag := rw.tag, src := rw.src }
    let s := journalCpl c' (dropWork rk (s.updEntry k (fun e => { e with retry := none })))
    if c.cls = 2 then s
    else s.updQueue k.qid.toNat (fun q => if q.state = 2 then { q with state := 1 } else q)
  | none =>
    let s := journalCpl c s
    if c.cls = 2 then haltQueue k s else s

/-- Completion with W6 and W7 from one 64-bit number. -/
def completeOk (k : Key) (res : Nat) (s : State) : State :=
  complete k 0 0 0 (BitVec.ofNat 32 res) (BitVec.ofNat 32 (res / 2 ^ 32)) [] s

/-- Completion OK_QUALIFIED with a reason, or OK. -/
def completeQual (k : Key) (q : Option Nat) (detail res : Nat) (s : State) : State :=
  complete k (if q.isSome then 1 else 0) (q.getD 0) detail (BitVec.ofNat 32 res) (BitVec.ofNat 32 (res / 2 ^ 32)) [] s

/-- Completion in a class other than OK. -/
def completeBad (k : Key) (cls code detail : Nat) (s : State) : State := complete k cls code detail 0 0 [] s

/-! ## Calibration epoch -/

/-- CE advances (R6): after 0xFFFF it continues at 0x0001. -/
def bumpCe (s : State) : State := { s with ce := if s.ce = 0xFFFF then 1 else s.ce + 1 }

end Sys2Proof.Machine
end

