-- ==== Sys2Proof/Machine/Packet.lean ====
section
/-!
DEFINITION. Command packets (R327): the header fields, the CRC trailer, and the command that a packet spells.
-/
namespace Sys2Proof.Machine

/-- Word `i` of a packet. -/
def pkWord (b : List Byte) (i : Nat) : Nat := rdLe b (4 * i) 4

def pkOp (b : List Byte) : Nat := pkWord b 0 / 2 ^ 20
/-- The reserved flag. -/
def pkRsv (b : List Byte) : Bool := (pkWord b 0).testBit 19
def pkLink (b : List Byte) : Bool := (pkWord b 0).testBit 18
def pkFence (b : List Byte) : Bool := (pkWord b 0).testBit 17
def pkBarrier (b : List Byte) : Bool := (pkWord b 0).testBit 16
def pkQid (b : List Byte) : Nat := pkWord b 0 % 65536
def pkTag (b : List Byte) : Nat := pkWord b 1 / 65536
/-- L: the parameters' length in 8-byte units. -/
def pkLen (b : List Byte) : Nat := pkWord b 1 % 65536
def pkSeq (b : List Byte) : Nat := pkWord b 2
def pkScope (b : List Byte) : Nat := pkWord b 3 / 2 ^ 30
def pkIndex (b : List Byte) : Nat := pkWord b 3 % 2 ^ 30

/-- The length that LEN gives a packet. -/
def pkSize (b : List Byte) : Nat := 20 + 8 * pkLen b

/-- Step 1 of R338 holds off: LEN, the packet's length, and the CRC-32C trailer. -/
def pkOk (b : List Byte) : Bool :=
  decide (pkLen b ≤ 510) && b.length == pkSize b && crc32c (b.take (16 + 8 * pkLen b)) == BitVec.ofNat 32 (rdLe b (16 + 8 * pkLen b) 4)

/-- The command that a packet spells (R327). -/
def pkCmd (src : BitVec 3) (obs : Bool) (b : List Byte) : Cmd :=
  { qid := BitVec.ofNat 16 (pkQid b), tag := BitVec.ofNat 16 (pkTag b), seq := BitVec.ofNat 32 (pkSeq b)
    scope := BitVec.ofNat 2 (pkScope b), index := BitVec.ofNat 30 (pkIndex b), src := src, obs := obs
    params := (b.drop 16).take (8 * pkLen b) }

/-- The name of the command of a packet. -/
def pkKey (b : List Byte) : Key := { qid := BitVec.ofNat 16 (pkQid b), seq := BitVec.ofNat 32 (pkSeq b) }

/-- A command may run: the journal holds it as STARTED, or as one that QUE.RESUME executes again, with this opcode and these
fields (R342, R347, R351). A command that the journal does not hold stands for one accepted and started before. -/
def mayRun (op : Nat) (c : Cmd) (s : State) : Bool :=
  match s.entry? { qid := c.qid, seq := c.seq } with
  | none => true
  | some e => (e.state == 2 || e.retry.isSome) && pkOp e.bytes == op && pkCmd e.src e.obs e.bytes == c

end Sys2Proof.Machine
end

