-- ==== Sys2Proof/Machine/RegMap.lean ====
section
/-!
DEFINITION. The register map of the device (R13, R15): which register an address names.
-/
namespace Sys2Proof.Machine

/-- A register, by its unit and its offset within the unit's block. -/
inductive RegName where
  /-- PIN_ registers of a pin (R46). -/
  | pin (p off : Nat)
  /-- Timing sets and PIN_SYMCFG of a pin (R76). -/
  | timing (p off : Nat)
  /-- PMU registers of a pin (R209). -/
  | pmu (p off : Nat)
  /-- ADC_CTRL of a slice (R209). -/
  | adc (n : Nat)
  /-- TDC registers of a pin (R255). -/
  | tdc (p off : Nat)
  /-- Interval unit of a slice (R256). -/
  | tiv (n off : Nat)
  /-- Registers of an engine (R167, R188). -/
  | eng (e off : Nat)
  /-- Winnow registers of a slice (R227). -/
  | win (n off : Nat)
  /-- A DUT power controller, a monitor, a blanking channel (R283). -/
  | dps (d off : Nat)
  | mon (m off : Nat)
  | blk (i off : Nat)
  /-- Waveform source, digitiser (R303), trigger sequencer (R325) of a bay. -/
  | awg (k off : Nat)
  | dig (k off : Nat)
  | trg (k off : Nat)
  /-- An arm group (R326). -/
  | ag (g off : Nat)
  /-- An Obros port (R408), the fabric (R409). -/
  | port (n off : Nat)
  | fabric (off : Nat)
  | route (i : Nat)
  | mcast (g : Nat)
  /-- The time block, its ports, asymmetry tables, TPO and TCI (R436), and the calibration registers (R257). -/
  | tim (off : Nat)
  | tport (n off : Nat)
  | asym (n e off : Nat)
  | tpo (i : Nat)
  | tci (i off : Nat)
  | cal (off : Nat)
  /-- Fault registers (R458). -/
  | flt (off : Nat)
  | fltSlot (j : Nat)
  | fltAlarm (w : Nat)
  | fltSrc (i : Nat) (second : Bool)
  /-- Supplies and thermal (R480). -/
  | sup (off : Nat)
  | bay (k off : Nat)
  | zone (z off : Nat)
  | td (n : Nat)
  | tdLim (n : Nat)
  /-- Granary control (R116), observation (R513), start-up (R496), queues (R356). -/
  | grn (off : Nat)
  | obs (off : Nat)
  | obsCnt (i : Nat) (hi : Bool)
  | boot (off : Nat)
  | que (off : Nat)
  deriving DecidableEq, Repr

/-- The registers of an engine block (R167, R188), by offset from 0x1000. -/
def engOff (off : Nat) : Bool :=
  decide (off ≤ 0x01C) || (decide (0x040 ≤ off) && decide (off < 0x090)) || (decide (0x100 ≤ off) && decide (off ≤ 0x108))
    || (decide (0x140 ≤ off) && decide (off < 0x190)) || (decide (0x200 ≤ off) && decide (off ≤ 0x220))

/-- Winnow offsets (R227). -/
def winOff (off : Nat) : Bool :=
  decide (off ≤ 0x04C) || (decide (0x080 ≤ off) && decide (off < 0x100) && decide (off % 32 < 0x18))
    || (decide (0x100 ≤ off) && decide (off < 0x200))

/-- A register of a slice block (R46, R76, R209, R255, R256, R167, R227). -/
def sliceReg (n off : Nat) : Option RegName :=
  if off < 0x200 then
    if off % 0x100 ≤ 0x028 then some (.pin (2 * n + off / 0x100) (off % 0x100)) else none
  else if off < 0x280 then
    if (off - 0x200) % 0x40 ≤ 0x28 then some (.pmu (2 * n + (off - 0x200) / 0x40) ((off - 0x200) % 0x40)) else none
  else if off = 0x280 then some (.adc n)
  else if 0x300 ≤ off ∧ off < 0x380 then
    if (off - 0x300) % 0x40 ≤ 0x10 then some (.tdc (2 * n + (off - 0x300) / 0x40) ((off - 0x300) % 0x40)) else none
  else if 0x380 ≤ off ∧ off ≤ 0x390 then some (.tiv n (off - 0x380))
  else if 0x800 ≤ off ∧ off < 0x1000 then
    let o := (off - 0x800) % 0x400
    if o = 0x200 ∨ (o < 0x200 ∧ o % 0x20 ≤ 0x10) then some (.timing (2 * n + (off - 0x800) / 0x400) o) else none
  else if 0x1000 ≤ off ∧ off < 0x2000 then if engOff (off - 0x1000) then some (.eng n (off - 0x1000)) else none
  else if 0x2000 ≤ off ∧ off < 0x3000 then if winOff (off - 0x2000) then some (.win n (off - 0x2000)) else none
  else none

/-- Offsets of the trigger sequencer (R325) from 0x7000. -/
def trgOff (off : Nat) : Bool :=
  [0x000, 0x004, 0x008, 0x010, 0x014, 0x018, 0x020, 0x024, 0x028, 0x040, 0x044, 0x048, 0x04C, 0x050, 0x058, 0x05C, 0x060].contains off
    || (decide (0x100 ≤ off) && decide (off < 0x140))

/-- A register of a bay block (R167, R283, R303, R325). -/
def bayReg (k off : Nat) : Option RegName :=
  if 0x1000 ≤ off ∧ off < 0x2000 then if engOff (off - 0x1000) then some (.eng (128 + k) (off - 0x1000)) else none
  else if 0x4000 ≤ off ∧ off < 0x4200 then
    if off % 0x100 ≤ 0x2C then some (.dps (2 * k + (off - 0x4000) / 0x100) (off % 0x100)) else none
  else if 0x5000 ≤ off ∧ off < 0x5100 then
    if off % 0x40 ≤ 0x18 then some (.mon (4 * k + (off - 0x5000) / 0x40) (off % 0x40)) else none
  else if 0x5800 ≤ off ∧ off < 0x5820 then some (.blk (4 * k + (off - 0x5800) / 8) (off % 8))
  else if 0x6000 ≤ off ∧ off ≤ 0x603C then
    if [0x1C, 0x28, 0x2C].contains (off - 0x6000) then none else some (.awg k (off - 0x6000))
  else if 0x6400 ≤ off ∧ off ≤ 0x640C then some (.dig k (off - 0x6400))
  else if 0x7000 ≤ off ∧ off < 0x7140 then if trgOff (off - 0x7000) then some (.trg k (off - 0x7000)) else none
  else none

/-- A register of the time block (R436, R257, R326). -/
def timeReg (off : Nat) : Option RegName :=
  if off ≤ 0x038 then some (.tim off)
  else if 0x100 ≤ off ∧ off < 0x1C0 then
    if off % 0x20 ≤ 0x14 then some (.tport ((off - 0x100) / 0x20) (off % 0x20)) else none
  else if 0x200 ≤ off ∧ off < 0x380 then
    if off % 0x10 ≤ 8 then some (.asym ((off - 0x200) / 0x40) (off % 0x40 / 0x10) (off % 0x10)) else none
  else if 0x400 ≤ off ∧ off < 0x420 then some (.tpo ((off - 0x400) / 4))
  else if 0x480 ≤ off ∧ off < 0x4C0 then some (.tci ((off - 0x480) / 0x10) (off % 0x10))
  else if 0x800 ≤ off ∧ off ≤ 0x808 then some (.cal (off - 0x800))
  else if 0x1000 ≤ off ∧ off < 0x1400 then
    if off % 0x40 ≤ 0x34 then some (.ag ((off - 0x1000) / 0x40) (off % 0x40)) else none
  else none

/-- A register of the fault block (R458). -/
def faultReg (off : Nat) : Option RegName :=
  if off ≤ 0x024 then some (.flt off)
  else if 0x040 ≤ off ∧ off < 0x0C0 then some (.fltSlot ((off - 0x040) / 4))
  else if 0x100 ≤ off ∧ off ≤ 0x10C then some (.flt off)
  else if 0x200 ≤ off ∧ off < 0x240 then some (.fltAlarm ((off - 0x200) / 4))
  else if 0x400 ≤ off ∧ off < 0x1400 then some (.fltSrc ((off - 0x400) / 8) (off % 8 == 4))
  else none

/-- A register of the thermal block (R480). -/
def thermReg (off : Nat) : Option RegName :=
  if off ≤ 0x010 ∨ off = 0x020 then some (.sup off)
  else if 0x100 ≤ off ∧ off < 0x200 then some (.bay ((off - 0x100) / 0x10) (off % 0x10))
  else if 0x200 ≤ off ∧ off < 0x280 then some (.zone ((off - 0x200) / 0x10) (off % 0x10))
  else if 0x300 ≤ off ∧ off < 0x320 then some (.td ((off - 0x300) / 4))
  else if 0x320 ≤ off ∧ off < 0x340 then some (.tdLim ((off - 0x320) / 4))
  else none

/-- The number of event counters (R512). -/
def obsCounters : Nat := 1024

/-- The register at an address (R13, R15, R364): none where the address is not a multiple of 4 or lies in no register. -/
def regAt (a : Nat) : Option RegName :=
  if a % 4 ≠ 0 then none
  else if 0x100 ≤ a ∧ a ≤ 0x10C then some (.boot (a - 0x100))
  else if 0x400 ≤ a ∧ a ≤ 0x41C then some (.que (a - 0x400))
  else if 0x1000000 ≤ a ∧ a < 0x1800000 then sliceReg ((a - 0x1000000) / 0x10000) (a % 0x10000)
  else if 0x2000000 ≤ a ∧ a < 0x3000000 then bayReg ((a - 0x2000000) / 0x100000) (a % 0x100000)
  else if 0x3000000 ≤ a ∧ a < 0x3006000 then
    if a % 0x1000 ≤ 0x030 then some (.port ((a - 0x3000000) / 0x1000) (a % 0x1000)) else none
  else if 0x3007000 ≤ a ∧ a ≤ 0x3007008 then some (.fabric (a - 0x3007000))
  else if 0x3008000 ≤ a ∧ a < 0x3009000 then some (.route ((a - 0x3008000) / 4))
  else if 0x3009000 ≤ a ∧ a < 0x3009400 then some (.mcast ((a - 0x3009000) / 4))
  else if 0x3100000 ≤ a ∧ a < 0x3110000 then timeReg (a - 0x3100000)
  else if 0x3200000 ≤ a ∧ a < 0x3210000 then faultReg (a - 0x3200000)
  else if 0x3300000 ≤ a ∧ a < 0x3310000 then thermReg (a - 0x3300000)
  else if [0x000, 0x004, 0x010, 0x014, 0x020, 0x024, 0x030, 0x034, 0x040, 0x044, 0x048, 0x04C, 0x050, 0x054].contains (a - 0x4000000) ∧ 0x4000000 ≤ a then
    some (.grn (a - 0x4000000))
  else if 0x5000000 ≤ a ∧ a ≤ 0x5000010 then some (.obs (a - 0x5000000))
  else if 0x5001000 ≤ a ∧ a < 0x5001000 + 8 * obsCounters then some (.obsCnt ((a - 0x5001000) / 8) (a % 8 == 4))
  else none

end Sys2Proof.Machine
end

