-- ==== Sys2Proof/WellFormed.lean ====
section
/-!
DEFINITION. Well-formedness of commands: what the types of Syntax.lean leave open about lengths and ranges.
-/
namespace Sys2Proof

/-- A parameter block holds 0 to 4,080 bytes in 8-byte units (R16, R327). -/
def Cmd.wf (c : Cmd) : Bool := c.params.length % 8 == 0 && decide (c.params.length ≤ 4080)

/-- An agent is well formed when the host command that it stands for is. -/
def Agent.wf : Agent → Bool
  | .host c => c.wf
  | .engine _ => true

/-- A unit of 32 bytes inside the larger part's Granary (R89, R108). -/
def MemErr.wf (e : MemErr) : Bool := decide (e.unit < 32768 * 32768)

/-- Nanoseconds of an IEEE 1588 timestamp stay below 10^9 (R418). -/
def PtpMsg.wf (m : PtpMsg) : Bool := decide (m.ns.toNat < 1000000000)

/-- 514 message symbols of 544 in a codeword (R385). -/
def Codeword.wf (w : Codeword) : Bool := w.msg.length == 514 && decide (w.errors ≤ 544)

/-- A peer grants credits for its virtual channels 0 to 3 (R397). -/
def TrainInfo.wf (i : TrainInfo) : Bool := i.credits.length == 4

/-- Well-formedness of a command or event. -/
def Instr.wf : Instr → Bool
  | .devInfo c => c.wf
  | .devRegRead c _ => c.wf
  | .devRegWrite c => c.wf
  | .devResetSlice c => c.wf
  | .devResetBay c => c.wf
  | .devResetWarm c => c.wf
  | .devFwStage c => c.wf
  | .devFwSwitch c => c.wf
  | .queCreate c => c.wf
  | .queDelete c => c.wf
  | .queResume c => c.wf
  | .queStatus c => c.wf
  | .queCqCreate c => c.wf
  | .queCqDelete c => c.wf
  | .grnRead c => c.wf
  | .grnWrite c => c.wf
  | .grnSeal c => c.wf
  | .sealCheckDone _ => true
  | .grnRelease c => c.wf
  | .grnSegStatus c => c.wf
  | .grnCapFree c => c.wf
  | .grnStackRejoin c _ => c.wf
  | .stackRejoinCopyDone _ => true
  | .strSite c => c.wf
  | .strSiteRelease c => c.wf
  | .strSheaf c => c.wf
  | .strStart c => c.wf
  | .strStop c => c.wf
  | .strJump c => c.wf
  | .strStatus c => c.wf
  | .engCall c => c.wf
  | .engStoreMaster c => c.wf
  | .engReload c => c.wf
  | .csLoadDone _ _ _ => true
  | .pinLevels c => c.wf
  | .pinThresh c => c.wf
  | .pinLoad c => c.wf
  | .pinClamp c => c.wf
  | .pinCtrl c => c.wf
  | .pinTset c => c.wf
  | .dacSettled _ => true
  | .pinCtrlWrite a _ _ => a.wf
  | .pinThcWrite a _ _ => a.wf
  | .clampConduct _ _ => true
  | .drvLimitSafe _ => true
  | .pmuFv c _ => c.wf
  | .pmuFi c _ => c.wf
  | .pmuMv c _ => c.wf
  | .pmuMeas c => c.wf
  | .pmuDisc c => c.wf
  | .pmuSettled _ => true
  | .pmuMeasDone _ _ _ => true
  | .pmuCompliance _ => true
  | .pmuCalCommit _ => true
  | .tdcCapture c => c.wf
  | .tdcInterval c => c.wf
  | .tdcFreq c => c.wf
  | .tdcStop c => c.wf
  | .tdcCalRead c => c.wf
  | .tdcEdge _ _ _ _ => true
  | .tdcCaptureEnd _ => true
  | .tdcIntervalTimeout _ => true
  | .tdcFreqGateClose _ => true
  | .tdcFreqNoSignal _ => true
  | .tdcCalRoundStart => true
  | .tdcTableCheck _ hits => decide (hits.length = 256)
  | .tdcCalCommit => true
  | .pwrOn c => c.wf
  | .pwrOff c => c.wf
  | .pwrSet c => c.wf
  | .pwrSeq c => c.wf
  | .pwrSeqStep _ => true
  | .pwrMeas c _ _ => c.wf
  | .pwrGang c => c.wf
  | .dpsCtrlWrite a _ _ => a.wf
  | .dpsRampEnd _ => true
  | .dpsPowerGood _ => true
  | .dpsPgTimeout _ => true
  | .dpsOffDone _ => true
  | .dpsCurrentLimit _ => true
  | .dpsLimOff _ => true
  | .dpsTripClear a _ _ => a.wf
  | .monAlarm _ _ => true
  | .monCfgWrite a _ _ => a.wf
  | .monThrWrite a _ _ => a.wf
  | .monResolve _ _ => true
  | .monEvtAck a _ _ => a.wf
  | .blkGo a _ _ => a.wf
  | .blankEnd _ => true
  | .anaLoad c => c.wf
  | .anaSource c => c.wf
  | .anaSourceStop c => c.wf
  | .anaSpan c => c.wf
  | .anaCapture c => c.wf
  | .anaCaptureStop c => c.wf
  | .awgStart _ => true
  | .awgPassEnd _ => true
  | .spanHoldEnd _ => true
  | .awgDdsWrite a _ _ _ => a.wf
  | .awgLegLimit _ => true
  | .anaShortSafe _ => true
  | .anaCaptureEnd _ _ _ => true
  | .anaCalCommit _ => true
  | .trgArm c => c.wf
  | .trgDisarm c => c.wf
  | .trgFire c => c.wf
  | .trgAcquire c => c.wf
  | .trgAcqStop c => c.wf
  | .trgCtrlEn a _ _ => a.wf
  | .trgStateMove _ _ _ => true
  | .agReady _ => true
  | .agTriggerDecide _ => true
  | .agBusyEnd _ => true
  | .agRearmEnd _ => true
  | .trgMessageRx _ => true
  | .acqRecordDone _ _ _ => true
  | .timSet c => c.wf
  | .timSetTimeout => true
  | .timPulse c => c.wf
  | .tpoPulse _ => true
  | .timTci c => c.wf
  | .tciEdge _ _ _ => true
  | .timTciLoRead c _ => c.wf
  | .timSyncCal c => c.wf
  | .timRelease c => c.wf
  | .timAsym c => c.wf
  | .timStatus c => c.wf
  | .timRefWrite a _ => a.wf
  | .timPortWrite a _ _ => a.wf
  | .syncOutPulse => true
  | .syncInEdge _ => true
  | .syncMiss => true
  | .ptpSyncSend _ _ _ => true
  | .ptpDelayReqSend _ _ _ => true
  | .ptpAnnounceSend _ => true
  | .ptpSyncReceive _ m _ => m.wf
  | .ptpFollowUpReceive _ m => m.wf
  | .ptpDelayReqReceive _ m _ => m.wf
  | .ptpDelayRespReceive _ m => m.wf
  | .ptpAnnounceReceive _ m => m.wf
  | .ptpMatchTimeout _ => true
  | .refLoss => true
  | .refReturn => true
  | .refMoveDone => true
  | .lnkTrain c => c.wf
  | .lnkPort c => c.wf
  | .lnkRoute c => c.wf
  | .lnkMcast c => c.wf
  | .lnkStatus c => c.wf
  | .portTrained _ i => i.wf
  | .trainFail _ _ => true
  | .trainRetry _ => true
  | .codewordReceive _ w => w.wf
  | .replayTimeout _ => true
  | .fencedRetrain _ => true
  | .adaptWindow _ _ _ => true
  | .retrainInPlace _ => true
  | .lpiWake _ => true
  | .fckRxLoss _ => true
  | .fltAck c => c.wf
  | .fltSource c => c.wf
  | .fltSrcCfgWrite a _ _ _ => a.wf
  | .fltRead c => c.wf
  | .fltAlarms c => c.wf
  | .fltAlarmClr c => c.wf
  | .fltAlarmWrite a _ _ => a.wf
  | .fltSnapRelease c => c.wf
  | .fltSpillHeadWrite a _ => a.wf
  | .fltDumpWrite a _ => a.wf
  | .faultRecordWrite => true
  | .faultHoldoffEnd _ => true
  | .spillCopy => true
  | .alarmSend => true
  | .faultNPulseEnd => true
  | .dumpComplete _ => true
  | .thmStatus c => c.wf
  | .thmBaySleep c => c.wf
  | .thmBayWake c => c.wf
  | .thmBayPin c => c.wf
  | .thmVinMode c => c.wf
  | .thmTdLimit c => c.wf
  | .bayAutoSleep _ => true
  | .bayWakeTime _ => true
  | .bayWakeGrant _ => true
  | .sequenceGrant _ => true
  | .sclkStop => true
  | .thmSl0Enter a _ => a.wf
  | .sl0Exit => true
  | .vinSwitchover _ _ => true
  | .vinRevert => true
  | .powerFail => true
  | .vpeLoss => true
  | .vpeReturn => true
  | .sensorSample z temps => decide (temps.length = if z.val < 6 then 8 else 1)
  | .sensorReadmit _ _ => true
  | .exclHoldEnd _ => true
  | .throttleBoundary _ _ _ => true
  | .flaplockEnd _ => true
  | .stepFactorTick _ => true
  | .thermalWarn _ => true
  | .thermalShutdown _ => true
  | .derateStep _ _ => true
  | .tdSample _ _ => true
  | .compensationTick => true
  | .obsTrace c => c.wf
  | .obsCounters c => c.wf
  | .traceSend _ => true
  | .packetIntake _ _ _ => true
  | .intakeTurn _ => true
  | .doorbell _ bytes => decide (bytes.length = 16)
  | .spiDbWrite bytes _ => decide (bytes.length = 4160)
  | .spiCplRead => true
  | .devPortroleWrite a _ => a.wf
  | .journalLostClear a _ => a.wf
  | .grnRgnWrite a _ _ => a.wf
  | .commandStart _ _ => true
  | .completionPost => true
  | .runFirstVector _ => true
  | .vector _ obs => decide (obs.length ≤ 64)
  | .commitPoint _ => true
  | .refillWarn _ _ => true
  | .logFifoDrain _ => true
  | .verdictWrite _ => true
  | .scrubPass errs _ => errs.all MemErr.wf
  | .stackFence _ => true
  | .callTake _ => true
  | .trapEntry _ => true
  | .machineCheck _ => true
  | .groupOverrun _ => true
  | .engineTimerZero _ => true
  | .waitTimeout _ _ => true
  | .csPatrol _ _ => true
  | .csRepair _ => true
  | .engCtrlWrite a _ _ => a.wf
  | .engModeApply _ => true
  | .seqNext _ _ => true
  | .seqJump _ _ => true
  | .seqCall _ _ => true
  | .seqRet _ _ => true
  | .seqLoop _ _ => true
  | .seqWait _ _ => true
  | .seqDisp _ _ => true
  | .seqHalt _ _ => true
  | .seqResume _ _ => true
  | .aluNop _ _ => true
  | .aluMov _ _ => true
  | .aluAdd _ _ => true
  | .aluSub _ _ => true
  | .aluCmp _ _ => true
  | .aluAnd _ _ => true
  | .aluOr _ _ => true
  | .aluXor _ _ => true
  | .aluShl _ _ => true
  | .aluShr _ _ => true
  | .aluSar _ _ => true
  | .aluMul _ _ => true
  | .ifuPinRead _ _ _ => true
  | .ifuPinWrite _ _ => true
  | .ifuPmuConn _ _ _ => true
  | .ifuPmuDisc _ _ => true
  | .ifuPmuFv _ _ => true
  | .ifuPmuFi _ _ => true
  | .ifuPmuMeas _ _ => true
  | .ifuPmuRead _ _ => true
  | .ifuTdcArm _ _ => true
  | .ifuTdcDisarm _ _ => true
  | .ifuTdcPoplo _ _ => true
  | .ifuTdcPophi _ _ => true
  | .ifuWinCount _ _ => true
  | .ifuWinClear _ _ => true
  | .ifuWinMark _ _ => true
  | .ifuStrMset _ _ => true
  | .ifuStrMclr _ _ => true
  | .ifuStrJreq _ _ => true
  | .ifuStrJsched _ _ => true
  | .ifuStrProg _ _ => true
  | .ifuTrgFire _ _ => true
  | .ifuTrgTake _ _ => true
  | .ifuEvtSend _ _ => true
  | .ifuEvtTake _ _ => true
  | .ifuQueArg _ _ => true
  | .ifuQuePut _ _ => true
  | .ifuQueDone _ _ => true
  | .ifuTmrLoad _ _ => true
  | .ifuTmrRead _ _ => true
  | .ifuBayRead _ _ => true
  | .ifuBayWrite _ _ => true
  | .mgmtFailover => true
  | .fwProbationEnd => true
  | .fwWritebackDone => true
  | .coldStart _ _ => true
  | .startupCalDone => true
  | .rstNLow => true
  | .coldReset => true
  | .rstNRise => true
  | .warmReset => true
  | .epochWrap => true
  | .drvLimitOnset _ => true
  | .pmuLimitRelease _ => true
  | .dpsLimitRelease _ => true
  | .digCaptureStart _ => true
  | .syncRetEdge _ => true
  | .standbyPairFail => true
  | .unitFence _ => true
  | .flashFail => true
  | .coreFault _ => true
  | .warnClear _ => true
  | .vinInputFail _ => true
  | .lpiExitTimeout _ => true
  | .fineDelayCalCommit => true

end Sys2Proof
end

