-- ==== Sys2Proof/Machine/Operands.lean ====
section
/-!
DEFINITION. Operands of host commands: the reasons of refusals (R345, R363), targets (R328), the checks of R357 to R361
and the operand forms PIN, BUF, TIME and DPS of R360, with the Granary's regions and reservations that BUF needs.
-/
namespace Sys2Proof.Machine

/-! ## Reasons (R345, R363) -/

abbrev Code.seqGap : Nat := 0x001
abbrev Code.pktLen : Nat := 0x002
abbrev Code.portRole : Nat := 0x003
abbrev Code.queueClosed : Nat := 0x004
abbrev Code.noCredit : Nat := 0x005
abbrev Code.opcode : Nat := 0x006
abbrev Code.scope : Nat := 0x007
abbrev Code.linkBroken : Nat := 0x008
abbrev Code.flushed : Nat := 0x009
abbrev Code.resetWarm : Nat := 0x00A
abbrev Code.resetSlice : Nat := 0x00B
abbrev Code.resetBay : Nat := 0x00C
abbrev Code.mgmtFailover : Nat := 0x00D
abbrev Code.staleSeq : Nat := 0x00E
abbrev Code.notHalted : Nat := 0x00F
abbrev Code.singleJournal : Nat := 0x010
abbrev Code.queueSpace : Nat := 0x011
abbrev Code.creditLimit : Nat := 0x012
abbrev Code.journalLost : Nat := 0x013
abbrev Code.source : Nat := 0x014
abbrev Code.threshOrder : Nat := 0x100
abbrev Code.clampOrder : Nat := 0x101
abbrev Code.streamActive : Nat := 0x102
abbrev Code.safed : Nat := 0x103
abbrev Code.peRail : Nat := 0x104
abbrev Code.kelvinOpen : Nat := 0x105
abbrev Code.pinSafed : Nat := 0x106
abbrev Code.turnaround : Nat := 0x107
abbrev Code.symUnpaired : Nat := 0x108
abbrev Code.tsetInvalid : Nat := 0x109
abbrev Code.periodMismatch : Nat := 0x10A
abbrev Code.sl1Rate : Nat := 0x10B
abbrev Code.edgeDrop : Nat := 0x10C
abbrev Code.addrRange : Nat := 0x140
abbrev Code.slotInUse : Nat := 0x141
abbrev Code.queuesOpen : Nat := 0x142
abbrev Code.region : Nat := 0x143
abbrev Code.slotCross : Nat := 0x144
abbrev Code.segActive : Nat := 0x145
abbrev Code.segCrc : Nat := 0x146
abbrev Code.segNotReady : Nat := 0x147
abbrev Code.loopNotResident : Nat := 0x148
abbrev Code.segShort : Nat := 0x149
abbrev Code.segUnsealed : Nat := 0x14A
abbrev Code.streamUnderrun : Nat := 0x14B
abbrev Code.memUe : Nat := 0x14C
abbrev Code.stackHot : Nat := 0x14D
abbrev Code.stackFenced : Nat := 0x14E
abbrev Code.readLen : Nat := 0x14F
abbrev Code.capRange : Nat := 0x150
abbrev Code.capInUse : Nat := 0x151
abbrev Code.capSmall : Nat := 0x152
abbrev Code.capBusy : Nat := 0x153
abbrev Code.capNotBuffer : Nat := 0x154
abbrev Code.stackNotFenced : Nat := 0x155
abbrev Code.segState : Nat := 0x156
abbrev Code.stackBw : Nat := 0x157
abbrev Code.listingShort : Nat := 0x180
abbrev Code.listingAsSegment : Nat := 0x181
abbrev Code.listingVersion : Nat := 0x182
abbrev Code.vecCode : Nat := 0x183
abbrev Code.segRows : Nat := 0x184
abbrev Code.loopForm : Nat := 0x185
abbrev Code.siteMap : Nat := 0x186
abbrev Code.siteRunning : Nat := 0x187
abbrev Code.pinMapRange : Nat := 0x188
abbrev Code.pairNotSymbol : Nat := 0x189
abbrev Code.siteUndefined : Nat := 0x18A
abbrev Code.sheafRunning : Nat := 0x18B
abbrev Code.bufferLanes : Nat := 0x18C
abbrev Code.privBay : Nat := 0x18D
abbrev Code.notJumpTarget : Nat := 0x18E
abbrev Code.jumpLate : Nat := 0x18F
abbrev Code.jumpPending : Nat := 0x190
abbrev Code.runEnded : Nat := 0x191
abbrev Code.notRunning : Nat := 0x192
abbrev Code.startFine : Nat := 0x193
abbrev Code.startFar : Nat := 0x194
abbrev Code.startLate : Nat := 0x195
abbrev Code.timeUnset : Nat := 0x196
abbrev Code.matchTimeout : Nat := 0x197
abbrev Code.siteStopped : Nat := 0x198
abbrev Code.stopped : Nat := 0x199
abbrev Code.resOwned : Nat := 0x19A
abbrev Code.siteOwned : Nat := 0x19B
abbrev Code.fenced : Nat := 0x19C
abbrev Code.jumpInLoop : Nat := 0x19D
abbrev Code.sheafUndefined : Nat := 0x19E
abbrev Code.uword : Nat := 0x1C0
abbrev Code.engCalls : Nat := 0x1C1
abbrev Code.engDisabled : Nat := 0x1C2
abbrev Code.entryRange : Nat := 0x1C3
abbrev Code.csImage : Nat := 0x1C4
abbrev Code.csEmpty : Nat := 0x1C5
abbrev Code.csBusy : Nat := 0x1C6
abbrev Code.engBusy : Nat := 0x1C7
abbrev Code.csVerify : Nat := 0x1C8
abbrev Code.csParity : Nat := 0x1C9
abbrev Code.engStopped : Nat := 0x1CA
abbrev Code.pmuHeld : Nat := 0x200
abbrev Code.pinSafe : Nat := 0x201
abbrev Code.pmuValue : Nat := 0x202
abbrev Code.pmuRange : Nat := 0x203
abbrev Code.pmuHiRange : Nat := 0x204
abbrev Code.pmuMode : Nat := 0x205
abbrev Code.pmuConnected : Nat := 0x206
abbrev Code.pmuReleased : Nat := 0x207
abbrev Code.pmuSat : Nat := 0x208
abbrev Code.pmuCompliance : Nat := 0x209
abbrev Code.pmuRangeSw : Nat := 0x20A
abbrev Code.pinDisabled : Nat := 0x20B
abbrev Code.tdcHeld : Nat := 0x240
abbrev Code.tdcBusy : Nat := 0x241
abbrev Code.tdcParam : Nat := 0x242
abbrev Code.refAbsent : Nat := 0x243
abbrev Code.tdcDegraded : Nat := 0x244
abbrev Code.calStale : Nat := 0x245
abbrev Code.tdcLost : Nat := 0x246
abbrev Code.tdcDead : Nat := 0x247
abbrev Code.pairOverflow : Nat := 0x248
abbrev Code.tdcTimeout : Nat := 0x249
abbrev Code.noSignal : Nat := 0x24A
abbrev Code.subBin : Nat := 0x24B
abbrev Code.order : Nat := 0x24C
abbrev Code.unpaired : Nat := 0x24D
abbrev Code.pgTimeout : Nat := 0x280
abbrev Code.dpsTripped : Nat := 0x281
abbrev Code.gangMember : Nat := 0x282
abbrev Code.gangRule : Nat := 0x283
abbrev Code.seqTrip : Nat := 0x284
abbrev Code.seqPgTimeout : Nat := 0x285
abbrev Code.seqRunning : Nat := 0x286
abbrev Code.tripActive : Nat := 0x287
abbrev Code.dpsTrip : Nat := 0x288
abbrev Code.anaHeld : Nat := 0x2C0
abbrev Code.bankActive : Nat := 0x2C1
abbrev Code.anaCrc : Nat := 0x2C2
abbrev Code.bankPending : Nat := 0x2C3
abbrev Code.bankEmpty : Nat := 0x2C4
abbrev Code.anaFreq : Nat := 0x2C5
abbrev Code.superseded : Nat := 0x2C6
abbrev Code.anaShort : Nat := 0x2C7
abbrev Code.anaBusy : Nat := 0x2C8
abbrev Code.ovr : Nat := 0x2C9
abbrev Code.clamped : Nat := 0x2CA
abbrev Code.logFull : Nat := 0x2CB
abbrev Code.anaParam : Nat := 0x2CC
abbrev Code.trgCond : Nat := 0x300
abbrev Code.trgRunning : Nat := 0x301
abbrev Code.trgMember : Nat := 0x302
abbrev Code.trgArmed : Nat := 0x303
abbrev Code.trgHold : Nat := 0x304
abbrev Code.trgParam : Nat := 0x305
abbrev Code.trgNogroup : Nat := 0x306
abbrev Code.trgPost : Nat := 0x307
abbrev Code.trgRing : Nat := 0x308
abbrev Code.acqShort : Nat := 0x309
abbrev Code.late : Nat := 0x30A
abbrev Code.xgap : Nat := 0x30B
abbrev Code.shortPre : Nat := 0x30C
abbrev Code.missed : Nat := 0x30D
abbrev Code.trgNotMaster : Nat := 0x30E
abbrev Code.addrUnmapped : Nat := 0x340
abbrev Code.paramLen : Nat := 0x341
abbrev Code.paramRsv : Nat := 0x342
abbrev Code.queueExists : Nat := 0x343
abbrev Code.queueFixed : Nat := 0x344
abbrev Code.cqClosed : Nat := 0x345
abbrev Code.cqInUse : Nat := 0x346
abbrev Code.queParam : Nat := 0x347
abbrev Code.fwSignature : Nat := 0x348
abbrev Code.fwNotStaged : Nat := 0x349
abbrev Code.fwStandby : Nat := 0x34A
abbrev Code.notHoldover : Nat := 0x34B
abbrev Code.portSelf : Nat := 0x34C
abbrev Code.bayBusy : Nat := 0x34D
abbrev Code.valueRange : Nat := 0x34E
abbrev Code.timeLocked : Nat := 0x34F
/-- A completion other than OK: class, code, detail, W6 and W7 (R344). -/
structure Reason where
  cls : Nat
  code : Nat
  detail : Nat := 0
  w6 : Nat := 0
  w7 : Nat := 0
  deriving DecidableEq, Repr

/-- REFUSED_STATE (R350). -/
def rState (code : Nat) (detail : Nat := 0) : Reason := { cls := 2, code := code, detail := detail }
/-- REFUSED_FORMAT (R359). -/
def rFormat (code : Nat) (detail : Nat := 0) : Reason := { cls := 3, code := code, detail := detail }
/-- REFUSED_RESOURCE. -/
def rResource (code : Nat) (detail : Nat := 0) : Reason := { cls := 4, code := code, detail := detail }
/-- FAILED_FAULT (R33, R361). -/
def rFault (code : Nat) (detail : Nat := 0) : Reason := { cls := 8, code := code, detail := detail }

/-- The first failure of a list of checks (R359). -/
def firstFail (l : List (Option Reason)) : Option Reason := l.findSome? id

/-- A check: the reason when the condition holds. -/
def when? (b : Bool) (r : Reason) : Option Reason := if b then some r else none

/-- Completes a command with a reason (R350, R359). -/
def refuse (k : Key) (r : Reason) (s : State) : State :=
  complete k r.cls r.code r.detail (BitVec.ofNat 32 r.w6) (BitVec.ofNat 32 r.w7) [] s

/-! ## Targets (R328) -/

/-- A target. -/
inductive Target where
  | device
  | sheaf (n : Nat)
  | bay (k : Nat)
  | slice (n : Nat)
  | site (x : Nat)
  deriving DecidableEq, Repr

/-- The target that SCOPE and INDEX spell, if they are valid (R328). -/
def targetOf (scope : BitVec 2) (index : BitVec 30) : Option Target :=
  let i := index.toNat
  match scope.toNat with
  | 0 => if i = 0 then some .device else if i / 2 ^ 28 = 1 ∧ i % 2 ^ 28 < 128 then some (.sheaf (i % 128)) else none
  | 1 => if i < 16 then some (.bay i) else none
  | 2 => if i < 128 then some (.slice i) else none
  | _ => if i < 128 then some (.site i) else none

end Sys2Proof.Machine

namespace Sys2Proof

/-- The target of a command (R328). -/
def Cmd.target (c : Cmd) : Option Machine.Target := Machine.targetOf c.scope c.index

/-- The command's name (R327). -/
def Cmd.key (c : Cmd) : Machine.Key := { qid := c.qid, seq := c.seq }

/-- The unsigned parameter of `n` bytes at offset `o` (R359). -/
def Cmd.u (c : Cmd) (o n : Nat) : Nat := Machine.rdLe c.params o n

/-- The signed parameter of `n` bytes at offset `o` (R10). -/
def Cmd.i (c : Cmd) (o n : Nat) : Int := Machine.toSigned (8 * n) (Machine.rdLe c.params o n)

/-- TIME as a full stamp (R360). -/
def Cmd.time (c : Cmd) (o : Nat) : Nat := c.u o 10

end Sys2Proof

namespace Sys2Proof.Machine

/-- Scopes as bits: device 1, Sheaf 2, bay 4, slice 8, site 16. -/
def Target.scopeBit : Target → Nat
  | .device => 1
  | .sheaf _ => 2
  | .bay _ => 4
  | .slice _ => 8
  | .site _ => 16

/-! ## Sites and ownership (R18 to R20) -/

def State.site? (s : State) (x : Nat) : Option Site := Tab.find s.sites x

/-- The site that holds a pin. -/
def siteOfPin (s : State) (p : Nat) : Option Nat :=
  (s.sites.find? (fun e => e.2.pins.any (fun q => q.pin == p))).map (·.1)
/-- The site that holds a DUT power controller. -/
def siteOfDps (s : State) (d : Nat) : Option Nat := (s.sites.find? (fun e => e.2.dps.contains d)).map (·.1)
/-- The site that holds a monitor. -/
def siteOfMon (s : State) (m : Nat) : Option Nat := (s.sites.find? (fun e => e.2.mons.contains m)).map (·.1)
/-- The site whose home a slice is. -/
def siteOfHome (s : State) (n : Nat) : Option Nat := (s.sites.find? (fun e => e.2.home == n)).map (·.1)

/-- The pin numbers of a site. -/
def Site.pinNos (x : Site) : List Nat := x.pins.map (·.pin)

/-- The bays whose resources a site uses (R18, R466). -/
def Site.bayNos (x : Site) : List Nat :=
  (x.pinNos.map (· / 16) ++ x.dps.map (· / 2) ++ x.mons.map (· / 4) ++ [x.home / 8]).eraseDups

/-- The members of a Sheaf (R130). -/
def State.members (s : State) (h : Nat) : List Nat := bitsOf 128 (Tab.get 0 s.sheaves h).toNat

/-- The Sheaf whose run a site is in, and the run (R19). -/
def runOfSite (s : State) (x : Nat) : Option (Nat × Run) := s.runs.find? (fun e => e.2.members.contains x)

/-- The bays a target reaches (R18, R347). -/
def Target.bays (s : State) : Target → List Nat
  | .device => []
  | .sheaf h => ((s.members h).flatMap (fun x => ((s.site? x).map Site.bayNos).getD [])).eraseDups
  | .bay k => [k]
  | .slice n => [n / 8]
  | .site x => ((s.site? x).map Site.bayNos).getD []

/-- Whether a target takes in a pin (R358). -/
def Target.hasPin (s : State) (t : Target) (p : Nat) : Bool :=
  match t with
  | .device => true
  | .sheaf _ => false
  | .bay k => p / 16 == k
  | .slice n => p / 2 == n
  | .site x => siteOfPin s p == some x

/-- Whether a target takes in a controller (R358). -/
def Target.hasDps (s : State) (t : Target) (d : Nat) : Bool :=
  match t with
  | .device => true
  | .sheaf _ => false
  | .bay k => d / 2 == k
  | .slice _ => false
  | .site x => siteOfDps s d == some x

/-- Whether a target takes in a monitor (R358). -/
def Target.hasMon (s : State) (t : Target) (m : Nat) : Bool :=
  match t with
  | .device => true
  | .sheaf _ => false
  | .bay k => m / 4 == k
  | .slice _ => false
  | .site x => siteOfMon s m == some x

/-- SITE_OWNED: a resource of a site addressed other than at that site's scope (R20, R361). -/
def siteOwned (t : Target) (owner : Option Nat) (w6 : Nat) : Option Reason :=
  match owner with
  | none => none
  | some x => if t = .site x then none else some { cls := 2, code := Code.siteOwned, detail := x, w6 := w6 }

/-! ## Fences (R33, R361) -/

def sliceFenced (s : State) (n : Nat) : Bool := s.fenced.any (fun u => match u with | .slice m => m.val == n | _ => false)
def bayFenced (s : State) (k : Nat) : Bool := s.fenced.any (fun u => match u with | .bay m => m.val == k | _ => false)
def dieFenced (s : State) (j : Nat) : Bool := s.fenced.any (fun u => match u with | .peDie m => m.val == j | _ => false)

/-- The fence row of R361 for slices and bays: DETAIL holds the unit. -/
def fenceCheck (s : State) (slices bays : List Nat) : Option Reason :=
  firstFail
    (slices.map (fun n => when? (sliceFenced s n) (rFault Code.fenced n))
      ++ (bays ++ slices.map (· / 8)).flatMap (fun k =>
        [when? (bayFenced s k) (rFault Code.fenced k), when? (dieFenced s (k / 8)) (rFault Code.fenced (k / 8))]))

/-- A stack is fenced (R112): GRN_STAT.STACKj reads FENCED. -/
def stackFenced (s : State) (j : Nat) : Bool := fld s.grn.stat (2 * j) 2 == 2

/-- A slot of a fenced stack (R113, R361). -/
def slotFenceCheck (s : State) (slot : Nat) : Option Reason :=
  when? (stackFenced s (stackOf s slot)) (rFault Code.stackFenced (stackOf s slot))

/-! ## Parameter blocks (R359) -/

/-- PARAM_LEN: the block has exactly the length of its table (R359). -/
def lenCheck (c : Cmd) (n : Nat) : Option Reason := when? (c.params.length != n) (rFormat Code.paramLen)
/-- PARAM_RSV: a field shown as a dash must be 0 (R359). The detail is the field's offset. -/
def rsv (c : Cmd) (o n : Nat) : Option Reason := when? (c.u o n != 0) (rFormat Code.paramRsv o)
/-- VALUE_RANGE: an unsigned field inside its range (R359). -/
def rng (c : Cmd) (o n lo hi : Nat) : Option Reason :=
  when? (decide (c.u o n < lo) || decide (hi < c.u o n)) (rFormat Code.valueRange o)
/-- VALUE_RANGE: a signed field inside its range (R359). -/
def rngS (c : Cmd) (o n : Nat) (lo hi : Int) : Option Reason :=
  when? (decide (c.i o n < lo) || decide (hi < c.i o n)) (rFormat Code.valueRange o)
/-- VALUE_RANGE under a condition. -/
def rngIf (b : Bool) (o : Nat) : Option Reason := when? b (rFormat Code.valueRange o)
/-- TIME: bytes 10 to 15 are 0 (R360). -/
def timeRsv (c : Cmd) (o : Nat) : Option Reason := when? (c.u (o + 10) 6 != 0) (rFormat Code.paramRsv o)
/-! ## The prologue of a command (R345, R357 to R361) -/

/-- The reading opcodes (R357, class tables); every OBS opcode is reading. -/
def readingOpcodes : List Nat :=
  [0x000, 0x001, 0x103, 0x200, 0x204, 0x306, 0x704, 0x804, 0xB06, 0xC04, 0xD02, 0xD03, 0xE00, 0xF00, 0xF01]

/-- Begins a command's work unless it has begun: quality tags from now on (R5), TH from acceptance (R477). -/
def beginWork (op : Nat) (c : Cmd) (bays : List Nat) (s : State) : State :=
  match s.work? c.key with
  | some w =>
    if w.started then s
    else s.updWork c.key (fun w => { w with started := true, op := BitVec.ofNat 12 op, sl := s.boot.sl, tq := s.tim.tq
                                            ce := s.ce, bays := w.bays ||| BitVec.ofNat 16 (bitsToNat bays) })
  | none =>
    let b := BitVec.ofNat 16 (bitsToNat bays)
    { s with works := s.works ++ [{ key := c.key, op := BitVec.ofNat 12 op, tag := c.tag, src := c.src, started := true
                                    bays := b, sl := s.boot.sl, tq := s.tim.tq, th := s.throttled b 0, ce := s.ce }] }

/-- The form of an opcode: its number, the scopes it is accepted at (bits of `Target.scopeBit`). -/
structure Form where
  op : Nat
  scopes : Nat
  deriving DecidableEq, Repr

/-- SCOPE: W3 is invalid, or the entry does not list the scope (R345, R358). -/
def scopeCheck (f : Form) (c : Cmd) : Option Reason :=
  match c.target with
  | none => some (rFormat Code.scope)
  | some t => when? (f.scopes &&& t.scopeBit == 0) (rFormat Code.scope)

/-- PORT_ROLE: a changing opcode that arrived on an OBSERVE port (R329, R401). It is a state refusal, so it follows the
format checks (R359). DEDUCED, log entry 11. -/
def roleCheck (f : Form) (c : Cmd) : Option Reason :=
  when? (c.obs && !(readingOpcodes.contains f.op)) (rState Code.portRole)

/-- The device is above SL0, powered and not shut down (R462, R469, R476). -/
def State.powered (s : State) : Bool := !s.boot.off && !s.thm.shutdown && !s.thm.inSl0 && decide (s.boot.sl ≠ 0)

/-- The device serves commands: it is powered, in no FATAL sequence and in no reset (R357, R453, R491). -/
def State.serving (s : State) : Bool := s.powered && !s.boot.warmBusy && !s.flt.dumping

/-- FW_NOT_STAGED: in recovery the only slow-path opcode served is DEV.FW_STAGE (R483). -/
def recoveryCheck (f : Form) (s : State) : Option Reason :=
  when? (s.boot.recovery && slowOpcodes.contains f.op && f.op != 0x020) (rState Code.fwNotStaged)

/-- A host command: begins its work, makes its checks in order (format, then role, then state and resource), and on the
first failure completes with that reason and changes nothing else; otherwise it has its effect (R350, R359). A device
that serves no command, and a command that has completed or not started, leave it without effect. -/
def runCmd (f : Form) (c : Cmd) (format : State → Target → List (Option Reason))
    (state : State → Target → List (Option Reason)) (effect : Target → State → State) (s : State) : State :=
  if s.serving ∧ mayRun f.op c s then
    let t := c.target.getD .device
    let s := beginWork f.op c (t.bays s) s
    match firstFail ([scopeCheck f c] ++ format s t ++ [roleCheck f c, recoveryCheck f s] ++ state s t) with
    | some r => refuse c.key r s
    | none => effect t s
  else s

/-! ## PIN (R360) -/

/-- The pins that a PIN field names within a target: one pin, or with 0xFFFF every pin of the target within reach. -/
def pinsNamed (s : State) (t : Target) (v : Nat) : List Nat :=
  if v = 0xFFFF then
    match t with
    | .site x => ((s.site? x).map Site.pinNos).getD []
    | _ => (List.range 256).filter (fun p => t.hasPin s p && (siteOfPin s p).isNone)
  else [v]

/-- PIN field of a command on several pins: 0 to 255 or 0xFFFF, inside the target (R358, R360). -/
def pinField (c : Cmd) (s : State) (t : Target) (o : Nat) : Option Reason :=
  let v := c.u o 2
  if v = 0xFFFF then none
  else if 255 < v then some (rFormat Code.valueRange o)
  else when? (!t.hasPin s v) (rFormat Code.scope v)

/-- PIN field that names a single pin (R370). -/
def onePin (c : Cmd) (s : State) (t : Target) (o : Nat) : Option Reason :=
  let v := c.u o 2
  if 255 < v then some (rFormat Code.valueRange o) else when? (!t.hasPin s v) (rFormat Code.scope v)

/-- A check made on every named pin in turn; the first failing pin is reported (R360). -/
def eachPin (l : List Nat) (f : Nat → Option Reason) : Option Reason := l.findSome? f

/-- Reach and fence of a pin (R20, R361). -/
def pinReach (s : State) (t : Target) (p : Nat) : Option Reason :=
  firstFail [siteOwned t (siteOfPin s p) p, fenceCheck s [p / 2] []]

/-! ## DPS (R360) -/

/-- DPS field: 0 to 31, inside the target (R358). -/
def dpsField (c : Cmd) (s : State) (t : Target) (o : Nat) : Option Reason :=
  let v := c.u o 1
  if 31 < v then some (rFormat Code.valueRange o) else when? (!t.hasDps s v) (rFormat Code.scope v)

/-- Reach and fence of a controller. -/
def dpsReach (s : State) (t : Target) (d : Nat) : Option Reason :=
  firstFail [siteOwned t (siteOfDps s d) 0, fenceCheck s [] [d / 2]]

/-! ## Regions of the Granary (R90, R91) -/

/-- Slots of a stack below its reserved regions (R90). -/
def configurable (s : State) (j : Nat) : Nat := slotsPerStack s - (if j = 0 then 832 else 800)

def rgnOf (s : State) (j : Nat) : Word := if j = 0 then s.grn.rgn0 else s.grn.rgn1
def captureSlots (s : State) (j : Nat) : Nat := fld (rgnOf s j) 16 14
def queueSlots (s : State) : Nat := fld s.grn.rgn0 0 11
def patternSlots (s : State) (j : Nat) : Nat := configurable s j - captureSlots s j - queueSlots s

/-- The regions of a stack (R90, R91). -/
inductive Region where
  | pattern
  | capture
  | queue
  | reserved
  deriving DecidableEq, Repr

/-- A slot of the pattern region that the rebuilt spill ring has taken (R113). -/
def regionOf (s : State) (slot : Nat) : Region :=
  let j := stackOf s slot
  let r := slot % slotsPerStack s
  if slot ∈ s.grn.spillOut then .reserved
  else if r < patternSlots s j then .pattern
  else if r < patternSlots s j + captureSlots s j then .capture
  else if r < configurable s j then .queue
  else .reserved

/-- First byte of a stack's queue region (R330). -/
def queueBase (s : State) (j : Nat) : Nat := (j * slotsPerStack s + configurable s j - queueSlots s) * slotSize

/-- ADDR_RANGE, then REGION, of a slot field that needs a segment (R366, R368). -/
def segSlot (s : State) (slot detail : Nat) : Option Reason :=
  if 2 * slotsPerStack s ≤ slot then some (rFormat Code.addrRange detail)
  else when? (regionOf s slot ≠ .pattern) (rFormat Code.region detail)

/-- A segment's state; every slot of a fenced stack reads FREE (R113). -/
def segState (s : State) (slot : Nat) : Nat :=
  if stackFenced s (stackOf s slot) then 0 else (s.slot slot).st.toNat

/-! ## BUF (R360, R93, R234) -/

/-- A BUF operand. -/
structure BufArg where
  first : Nat
  count : Nat
  wrap : Bool
  deriving DecidableEq, Repr

def bufOf (c : Cmd) (o : Nat) : BufArg := { first := c.u o 4, count := c.u (o + 4) 2, wrap := c.u (o + 6) 1 == 1 }

/-- BUF field: reserved bits, then its ranges (R359, R360). -/
def bufField (c : Cmd) (o lo hi : Nat) : Option Reason :=
  firstFail [when? (c.u (o + 7) 1 != 0) (rFormat Code.paramRsv o),
    rngIf (decide (1 < c.u (o + 6) 1) || decide (c.u (o + 4) 2 < lo) || decide (hi < c.u (o + 4) 2)) o]

/-- Whole slots in the capture region of one stack (R234 step 2). -/
def bufInRange (s : State) (b : BufArg) : Bool :=
  decide (b.first + b.count ≤ 2 * slotsPerStack s) &&
    (List.range b.count).all (fun i =>
      decide (regionOf s (b.first + i) = .capture) && stackOf s (b.first + i) == stackOf s b.first)

/-- CAP_RANGE (R234 step 2). -/
def bufRange (s : State) (b : BufArg) : Option Reason :=
  when? (b.count != 0 && !bufInRange s b) (rFormat Code.capRange)

def Buf.has (b : Buf) (slot : Nat) : Bool := decide (b.first ≤ slot) && decide (slot < b.first + b.count)

/-- CAP_IN_USE (R234 step 5). -/
def bufFree (s : State) (b : BufArg) : Option Reason :=
  when? ((List.range b.count).any (fun i => s.grn.caps.any (fun u => u.has (b.first + i)))) (rState Code.capInUse)

/-- A buffer in a fenced stack (R113). -/
def bufFence (s : State) (b : BufArg) : Option Reason := if b.count = 0 then none else slotFenceCheck s b.first

/-- First byte of a buffer. -/
def BufArg.addr (b : BufArg) : Nat := b.first * slotSize
def BufArg.size (b : BufArg) : Nat := b.count * slotSize

/-- Allocates a buffer until GRN.CAP_FREE (R93). -/
def allocBuf (b : BufArg) (s : State) : State :=
  if b.count = 0 then s
  else s.updGrn (fun g => { g with caps := g.caps ++ [{ first := b.first, count := b.count, busy := true }] })

/-- The work that writes to a buffer has ended (R366). -/
def bufDone (first : Nat) (s : State) : State :=
  s.updGrn (fun g => { g with caps := g.caps.map (fun u => if u.first = first then { u with busy := false } else u) })

/-- Work of a command uses a stack (R107, R477). -/
def useStack (k : Key) (slot : Nat) (s : State) : State :=
  s.updWork k (fun w => { w with stks := w.stks ||| BitVec.ofNat 2 (2 ^ stackOf s slot) })

/-- Work of a command uses bays (R477). -/
def useBays (k : Key) (l : List Nat) (s : State) : State :=
  s.updWork k (fun w => { w with bays := w.bays ||| BitVec.ofNat 16 (bitsToNat l) })

/-- A command's work passes its release point (R347, the Rel column of the class tables). -/
def releaseWork (k : Key) (s : State) : State := s.updWork k (fun w => { w with released := true })

/-- The quality tags of a command's work at this moment, laid out as W3 (R4, R344). -/
def State.w3Of (s : State) (k : Key) : Word :=
  let w := s.workOf k
  tagWord (minTag w.sl s.boot.sl) (minTag w.tq s.tim.tq) (w.th || s.throttled w.bays w.stks) w.ce

/-- The full stamp at an earlier moment of the clock that is never set. -/
def State.fullAt (s : State) (m : Nat) : Full := s.now - BitVec.ofNat 80 (s.mono - m)

/-- The moment of a full stamp on the clock that is never set. -/
def State.monoOf (s : State) (t : Nat) : Nat := s.mono + t - s.now.toNat

/-- The nearest full stamp to the present whose short stamp is given (R11). -/
def State.nearFull (s : State) (short : Nat) : Nat :=
  let c := s.now.toNat / 2 ^ 64 * 2 ^ 64 + short
  if c + 2 ^ 63 < s.now.toNat then c + 2 ^ 64 else if s.now.toNat + 2 ^ 63 < c ∧ 2 ^ 64 ≤ c then c - 2 ^ 64 else c

/-- The reference is absent (R24, R252). -/
def State.refAbsent (s : State) : Bool := !s.tim.refPresent

/-! ## Reservations (R28, R29) -/

def rsvOf (s : State) (j : Nat) : Word := if j = 0 then s.grn.rsv0 else s.grn.rsv1

/-- Units reserved in a stack, both classes. -/
def rsvTotal (s : State) (j : Nat) : Nat := fld (rsvOf s j) 16 12 + fld (rsvOf s j) 0 12

/-- STACK_BW: the reserved total would exceed 2,800 units (R29). -/
def rsvCheck (s : State) (j units : Nat) : Option Reason :=
  when? (units != 0 && decide (2800 < rsvTotal s j + units)) (rResource Code.stackBw j)

def updRsv (j : Nat) (f : Word → Word) (s : State) : State :=
  s.updGrn (fun g => if j = 0 then { g with rsv0 := f g.rsv0 } else { g with rsv1 := f g.rsv1 })

/-- Takes class 1 units in a stack. -/
def reserve1 (j units : Nat) (s : State) : State := updRsv j (fun w => setFld w 0 12 (fld w 0 12 + units)) s
/-- Takes class 2 units in a stack. -/
def reserve2 (j units : Nat) (s : State) : State := updRsv j (fun w => setFld w 16 12 (fld w 16 12 + units)) s
/-- Releases class 1 units. -/
def release1 (j units : Nat) (s : State) : State := updRsv j (fun w => setFld w 0 12 (fld w 0 12 - units)) s
/-- Releases class 2 units. -/
def release2 (j units : Nat) (s : State) : State := updRsv j (fun w => setFld w 16 12 (fld w 16 12 - units)) s

/-! ## Register writes -/

/-- What a register write comes to (R13, R44): done, done later by an event of its own, or refused. -/
inductive WRes where
  | done (s : State)
  | later (s : State)
  | refused (r : Reason)

/-- The form of DEV.REG_WRITE (R364): device, bay, slice or site scope. -/
def formRegWrite : Form := { op := 0x002, scopes := 29 }

/-- Whether a target takes in a slice: a site takes in its home and the slices of its pins (R358). -/
def Target.hasSlice (s : State) (t : Target) (n : Nat) : Bool :=
  match t with
  | .device => true
  | .sheaf _ => false
  | .bay k => n / 8 == k
  | .slice m => n == m
  | .site x => ((s.site? x).map (fun y => y.home == n || y.pins.any (fun q => q.pin / 2 == n))).getD false

/-- Whether a target takes in a bay (R358). -/
def Target.hasBay (t : Target) (k : Nat) : Bool :=
  match t with
  | .device => true
  | .bay j => j == k
  | _ => false

/-- SCOPE: the register of a pin, controller, monitor, slice or bay outside the target (R358). -/
def regScope (s : State) (t : Target) (n : RegName) : Option Reason :=
  match n with
  | .pin p _ | .timing p _ | .pmu p _ | .tdc p _ => when? (!t.hasPin s p) (rFormat Code.scope p)
  | .adc n | .tiv n _ | .win n _ => when? (!t.hasSlice s n) (rFormat Code.scope n)
  | .eng e _ =>
    if e < 128 then when? (!t.hasSlice s e) (rFormat Code.scope e) else when? (!t.hasBay (e - 128)) (rFormat Code.scope (e - 128))
  | .dps d _ => when? (!t.hasDps s d) (rFormat Code.scope d)
  | .mon m _ => when? (!t.hasMon s m) (rFormat Code.scope m)
  | .blk i _ => when? (!t.hasBay (i / 4)) (rFormat Code.scope (i / 4))
  | .awg k _ | .dig k _ | .trg k _ => when? (!t.hasBay k) (rFormat Code.scope k)
  | _ => none

/-- ADDR_UNMAPPED, then SCOPE, of a register address (R358, R364). -/
def addrCheck (s : State) (t : Target) (a : Nat) : Option Reason :=
  match regAt a with
  | none => some (rFormat Code.addrUnmapped)
  | some n => regScope s t n

/-- A DEV.REG_WRITE of one register: the command's prologue, then the write. It completes once the register has changed
or, where the write says so, once its DACs have settled (R364). -/
def hostRegWrite (c : Cmd) (f : State → WRes) (s : State) : State :=
  runCmd formRegWrite c (fun s t => [lenCheck c 8, addrCheck s t (c.u 0 4)]) (fun _ _ => [])
    (fun _ s => match f s with
      | .done t => completeOk c.key 0 t
      | .later t => t
      | .refused r => refuse c.key r s) s

/-- The engine executes words: RUN or HANDLER (R167), above SL0 and not shut down. -/
def engRunning (s : State) (e : Nat) : Bool := s.serving && (decide ((s.eng e).state = 1) || decide ((s.eng e).state = 2))

/-- An accepted operation clears REFUSE, a refused one sets it (R159). -/
def setRefuse (e : Nat) (b : Bool) (s : State) : State := s.updEng e (fun x => { x with refuse := b })

/-- A register write by an engine: out of reach or refused it sets REFUSE and changes nothing, accepted it clears REFUSE
and completes when the register changes (R148, R158, R159). -/
def engRegWrite (e : Nat) (reach : Bool) (f : State → WRes) (s : State) : State :=
  if engRunning s e then
    if reach then
      match f s with
      | .done t => setRefuse e false t
      | .later t => setRefuse e false t
      | .refused _ => setRefuse e true s
    else setRefuse e true s
  else s

/-- The site whose home slice an engine is. -/
def homeSite (s : State) (e : Nat) : Option Nat := if e < 128 then siteOfHome s e else none

/-- The PIN unit of an engine reaches a pin (R148). -/
def engPin (s : State) (e p : Nat) : Bool :=
  decide (e < 128) && (match siteOfPin s p with | none => p / 2 == e | some x => homeSite s e == some x)

/-- The BAY unit of an engine reaches a controller (R148). -/
def engDps (s : State) (e d : Nat) : Bool :=
  if e < 128 then (siteOfDps s d).isSome && siteOfDps s d == homeSite s e
  else d / 2 == e - 128 && (siteOfDps s d).isNone

/-- The BAY unit of an engine reaches a monitor (R148). -/
def engMon (s : State) (e m : Nat) : Bool :=
  if e < 128 then (siteOfMon s m).isSome && siteOfMon s m == homeSite s e
  else m / 4 == e - 128 && (siteOfMon s m).isNone

/-- The BAY unit of an engine reaches the units of a bay that belong to no site (R148, R503). -/
def engBayUnit (e k : Nat) : Bool := decide (128 ≤ e) && k == e - 128

/-- A register that no engine reaches (R148). -/
def noReach (_ : Nat) (_ : State) : Bool := false

/-- A write of a register that is a row of its own, by the host as DEV.REG_WRITE of that register with that value, or by an
engine. -/
def regRow (n : RegName) (v : Word) (a : Agent) (reach : Nat → State → Bool) (f : State → WRes) (s : State) : State :=
  match a with
  | .host c => if regAt (c.u 0 4) = some n ∧ c.u 4 4 = v.toNat then hostRegWrite c f s else s
  | .engine e => engRegWrite e.val (reach e.val s) f s

/-- The engine's bay (0 to 127 slice engines, 128 + k the engine of BAY_k, R171). -/
def engBay (e : Nat) : Nat := if e < 128 then e / 8 else e - 128

end Sys2Proof.Machine
end

