-- ==== Sys2Proof/Machine/LnkOps.lean ====
section
/-!
DEFINITION. Shared operations of the Obros ports (R395 to R407): flits and their replay buffer, messages and where they are sent,
training, fencing and low-power idle.
-/
namespace Sys2Proof.Machine

/-! ## Sending flits (R395 to R398) -/

/-- The link carries traffic: ACTIVE, or low-power idle, which a message ends (R403, R406). -/
def Port.up (p : Port) : Bool := p.state == 2 || p.state == 3

/-- A message cut into flits (R395). -/
def cutFlits (vc : BitVec 2) (bytes : List Byte) : List TxFlit :=
  let n := cdiv bytes.length 150
  (List.range n).map (fun i => { vc := vc, som := i == 0, eom := i + 1 == n, payload := (bytes.drop (150 * i)).take 150 })

/-- Credit of a channel at the peer (R397). -/
def Port.credit (p : Port) (vc : Nat) : Nat := p.credits.getD vc 0

/-- A channel has a flit that may go (R398). -/
def Port.ready (p : Port) (vc : Nat) : Bool := p.txWait.any (fun f => f.vc.toNat == vc) && decide (0 < p.credit vc)

/-- Weight of VC0 to VC2 (R408). -/
def Port.weight (p : Port) (vc : Nat) : Nat := fld p.vcw (4 * vc) 4

/-- The channel that sends next: VC3 first, then VC0 to VC2 in weighted round robin by flit (R398). -/
def Port.nextVc (p : Port) : Option Nat :=
  if p.ready 3 then some 3
  else if p.rrLeft ≠ 0 ∧ p.ready p.rrVc then some p.rrVc
  else ([1, 2, 3].map (fun i => (p.rrVc + i) % 3)).find? p.ready

/-- Sends the first waiting flit of a channel. -/
def Port.sendVc (vc : Nat) (p : Port) : Port :=
  match p.txWait.find? (fun f => f.vc.toNat == vc) with
  | none => p
  | some f =>
    let p := { p with
      txWait := p.txWait.erase f, txBuf := p.txBuf ++ [f], txSeq := (p.txSeq + 1) % 1024
      credits := p.credits.set vc (p.credit vc - 1) }
    if vc = 3 then p
    else if p.rrVc = vc ∧ p.rrLeft ≠ 0 then { p with rrLeft := p.rrLeft - 1 }
    else { p with rrVc := vc, rrLeft := p.weight vc - 1 }

/-- Sends waiting flits while credit and the 512 places allow: how many, and the port. -/
def Port.pump : Nat → Port → Nat × Port
  | 0, p => (0, p)
  | n + 1, p =>
    if p.txBuf.length < 512 then
      match p.nextVc with
      | none => (0, p)
      | some vc =>
        let r := Port.pump n (p.sendVc vc)
        (r.1 + 1, r.2)
    else (0, p)

/-- An active port sends what waits, and counts it (R398, R512). -/
def pumpPort (n : Nat) (s : State) : State :=
  let p := s.port n
  if p.state = 2 then
    let r := p.pump p.txWait.length
    count (672 + n) r.1 (s.updPort n (fun _ => r.2))
  else s

/-- A message is taken for a port; in low-power idle it waits for the wake (R406). -/
def sendPort (n : Nat) (vc : BitVec 2) (bytes : List Byte) (s : State) : State :=
  if (s.port n).up then
    pumpPort n (s.updPort n (fun p => { p with txWait := p.txWait ++ cutFlits vc bytes }))
      |> emit (.message n vc bytes)
  else s

/-! ## Messages (R399) -/

/-- A message: its header and body. -/
def messageBytes (dst src mtype hops mflags : Nat) (body : List Byte) : List Byte :=
  leBytes 2 dst ++ leBytes 2 src ++ leBytes 1 mtype ++ leBytes 1 hops ++ leBytes 1 mflags ++ leBytes 1 0
    ++ leBytes 2 body.length ++ leBytes 6 0 ++ body

/-- LNK_CFG.TTL (R404). -/
def Port.ttl (p : Port) : Nat := fld p.cfg 8 4

/-- The entry of the routing table (R409). -/
def routeOf (s : State) (dev : Nat) : Word := Tab.get 0x3F#32 s.routes dev

/-- The port of a unicast: the primary one when its link is up, else the alternate (R403). Where no route is set a direct neighbour is
reached on its own link (R486). DEDUCED, log entry 24. -/
def routePort (s : State) (dev : Nat) : Option Nat :=
  let r := routeOf s dev
  if r = 0x3F#32 then (List.range 6).find? (fun n => (s.port n).up && (s.port n).peerDev.toNat == dev)
  else [fld r 0 3, fld r 3 3].find? (fun n => decide (n < 6) && (s.port n).up)

/-- A message without a route is discarded (R403). -/
def noRoute (s : State) : State := raise srcNoroute 0 0 { s with noroute := satInc s.noroute }

/-- Ports of a multicast group, and its local delivery (R404). -/
def mcastOf (s : State) (g : Nat) : Word := Tab.get 0 s.mcast g

/-- The device originates a message for a device or, with bit 15 of the destination, a multicast group (R403, R404). HOPS starts at
the TTL of the port that it leaves on. A unicast for the device itself stays inside. -/
def originate (vc : BitVec 2) (dst mtype mflags : Nat) (body : List Byte) (s : State) : State :=
  if bit (BitVec.ofNat 16 dst) 15 then
    forAll (bitsOf 6 (mcastOf s (dst % 256)).toNat)
      (fun n s => sendPort n vc (messageBytes dst s.devid.toNat mtype (s.port n).ttl mflags body) s) s
  else if dst % 1024 = s.devid.toNat then s
  else match routePort s (dst % 1024) with
    | none => noRoute s
    | some n => sendPort n vc (messageBytes (dst % 1024) s.devid.toNat mtype (s.port n).ttl mflags body) s

/-- A message for an arrival interface: it leaves on the arrival port, for that port's peer. The intake row does not name the
device that a packet came from. DESIGN CHOICE, log entry 22. -/
def sendArrival (src : BitVec 3) (mtype mflags : Nat) (body : List Byte) (s : State) : State :=
  let n := src.toNat
  if n < 6 then
    sendPort n 1 (messageBytes (s.port n).peerDev.toNat s.devid.toNat mtype (s.port n).ttl mflags body) s
  else s

/-! ## Replay (R396) -/

/-- A LINK trace record (R508): 0 ACTIVE, 1 fenced, 2 training failed, 3 adaptation frozen. -/
def traceLink (sub n : Nat) (s : State) : State :=
  trace 7 sub 0 (leBytes 1 n ++ leBytes 1 (s.port n).lastFail.toNat) s

/-- What was in transit on a port is gone (R407). -/
def Port.clear (p : Port) : Port :=
  { p with txBuf := [], txWait := [], asm := [], rrLeft := 0, nak := false, nakAck := none, stuck := 0, uncRun := 0, txLpi := false
           rxLpi := false }

/-- A port is fenced (R407). A 1588 SLAVE on it will see a path step when it returns (R429). -/
def fencePort (n : Nat) (s : State) : State :=
  let s := s.updPort n (fun p => { p.clear with
    state := 4, fences := satInc p.fences, totFence := satInc p.totFence, relock := false, failAt := 0, fenceAt := s.mono + 1 })
  let s := s.updTport n (fun t => { t with oldPeer := some 0x1FFF })
  traceLink 1 n (raise (srcPortFenced n) 0 0 s)

/-- A replay from ACK + 1 (R396); the eighth in a row without ACK progress fences the port (R407). -/
def replayPort (n : Nat) (s : State) : State :=
  let p := s.port n
  if p.txBuf.isEmpty then s
  else
    let s := emit (.replay n ((p.txAck + 1) % 1024)) (s.updPort n (fun p => { p with
      replays := satInc p.replays, totReplay := satInc p.totReplay, stuck := p.stuck + 1, nakAck := some p.txAck }))
    if 8 ≤ p.stuck + 1 then fencePort n s else s

/-! ## Low-power idle and training (R391, R406) -/

/-- A port that is to idle enters low-power idle once everything it has sent is acknowledged (R406). -/
def idlePort (n : Nat) (s : State) : State :=
  s.updPort n (fun p =>
    if p.txLpi && p.state == 2 && p.txBuf.isEmpty && p.txWait.isEmpty then { p with state := 3, txLpi := false } else p)

/-- A port in low-power idle wakes and sends (R406). -/
def wakePort (n : Nat) (s : State) : State :=
  if (s.port n).state = 3 then pumpPort n ((advance (2 * usSteps) s).updPort n (fun p => { p with state := 2 })) else s

/-- Full training starts: traffic stops (R391, R407). SCLK runs for it (R467). -/
def startTraining (n : Nat) (s : State) : State :=
  (s.updPort n (fun p => { p.clear with state := 1, failAt := 0 })).updTim (fun t => { t with sclk := true })

/-- A port is set off, to low-power idle or active (R406, R408). -/
def setPstate (n v : Nat) (s : State) : State :=
  let s := s.updPort n (fun p => { p with cfg := setFld p.cfg 0 2 v })
  let p := s.port n
  if v = 0 then s.updPort n (fun p => { p.clear with state := 0, relock := false, failAt := 0, fenceAt := 0 })
  else if v = 1 then
    if p.state = 0 then startTraining n s else idlePort n (s.updPort n (fun p => { p with txLpi := p.state == 2 }))
  else if p.state = 0 then startTraining n s
  else if p.state = 3 then wakePort n s
  else s.updPort n (fun p => { p with txLpi := false })

/-- A fenced port (R361), in training or not. -/
def portFenced (s : State) (n : Nat) : Bool := (s.port n).fenceAt != 0

end Sys2Proof.Machine
end

