-- ==== Sys2Proof/Machine/PinOps.lean ====
section
/-!
DEFINITION. Shared operations of the pin channel: codes and ranges (R39 to R41), who drives the pin (R500), entry into
SAFE (R63, R208), the writes of the pin, timing, PMU and TDC registers (R45 to R53, R76 to R80, R209, R255).
-/
namespace Sys2Proof.Machine

/-! ## Codes (R39, R40) -/

/-- The code nearest to a voltage in microvolts; halfway takes the higher code (R39). -/
def codeOfUv (uv : Int) : Int := roundDiv (uv + 2000000) 150

/-- The ideal voltage of a code, in microvolts (R39). -/
def uvOfCode (code : Nat) : Int := 150 * (code : Int) - 2000000

/-- Range of L0 to L3, VTT and VCOM (R40). -/
def levelOk (c : Int) : Bool := decide (0x0D05 ≤ c) && decide (c ≤ 0xDD5B)
/-- Range of TA to TC and the clamps (R40). -/
def threshOk (c : Int) : Bool := decide (0 ≤ c) && decide (c ≤ 0xEA60)
/-- Least distance of the clamps, 500.1 mV (R41). -/
def clampGap : Nat := 0x0D06
/-- THRESH_ORDER holds off: TA ≤ TB ≤ TC (R41). -/
def threshOrder (ta tb tc : Nat) : Bool := decide (ta ≤ tb) && decide (tb ≤ tc)
/-- IDLE_ACT accepts D0 to D3, OFF and TERM (R38). -/
def idleActOk (a : Nat) : Bool := decide (a ≤ 3) || a == 8 || a == 9

/-- A word of two 16-bit halves. -/
def halves (hi lo : Nat) : Word := BitVec.ofNat 32 (hi % 65536 * 65536 + lo % 65536)

/-! ## Who drives a pin (R500) -/

/-- A stream is running on the pin's site: its Sheaf's run is admitted and not over (R45, R143, R145). -/
def streamOn (s : State) (p : Nat) : Bool :=
  match siteOfPin s p with
  | none => false
  | some x => s.runs.any (fun e => (e.2.phase == 1 || e.2.phase == 2) && e.2.members.contains x)

/-- A run of the pin's site plays vectors (rank 4 of R500). -/
def playingOn (s : State) (p : Nat) : Bool :=
  match siteOfPin s p with
  | none => false
  | some x => s.runs.any (fun e => e.2.phase == 2 && e.2.members.contains x)

/-- The stage of an action held while no stream runs (R38). -/
def idleStage (a : Nat) : Stage := if a ≤ 3 then .drive (BitVec.ofNat 2 a) else if a = 9 then .term else .openZ

/-- PMU modes (R209): 0 OFF, 1 FV, 2 FI, 3 MV. -/
def Pmu.mode (u : Pmu) : Nat := fld u.ctrl 4 2
/-- PMU holders: 0 none, 1 engine, 2 command. -/
def Pmu.holder (u : Pmu) : Nat := fld u.ctrl 2 2
/-- The PMU forces: FV or FI. -/
def Pmu.forcing (u : Pmu) : Bool := u.mode == 1 || u.mode == 2

/-- A cause holds the pin in SAFE: PIN_EN = 0, SLEPT or PE_RAIL (R500, R64). -/
def Pin.heldSafe (x : Pin) : Bool := !bit x.ctrl 16 || bit x.stat 11 || bit x.stat 1

/-- The output stage by ranks 2, 3 and 5 of R500; a running vector sequence (rank 4) sets its own. -/
def Pin.restStage (x : Pin) : Stage :=
  if x.heldSafe then .safe else if x.pmu.forcing then .openZ else idleStage (fld x.ctrl 0 4)

/-- Brings SAFE, CLAMP_EN and the output stage in line with the causes in force (R51, R53, R500). -/
def Pin.refresh (playing : Bool) (x : Pin) : Pin :=
  if x.heldSafe then { x with stat := setBit x.stat 0 true, ctrl := setBit x.ctrl 17 true, stage := .safe }
  else
    let y := { x with stat := setBit x.stat 0 false }
    if playing && x.stage != .safe then y else { y with stage := y.restStage }

/-- `Pin.refresh` for a pin of the block. -/
def refreshPin (p : Nat) (s : State) : State := s.updPin p (Pin.refresh (playingOn s p))

/-! ## PMU results and release -/

/-- What a PMU command or measurement in progress ends with (R195, R208). -/
structure EndWith where
  cls : Nat
  code : Nat
  detail : Nat := 0
  deriving DecidableEq, Repr

/-- Completes every listed command in that way. -/
def endKeys (l : List Key) (e : EndWith) (s : State) : State :=
  l.foldl (fun s k => completeBad k e.cls e.code e.detail s) s

/-- The commands that wait on a PMU: for settling, for a measurement, for their turn. -/
def Pmu.keys (u : Pmu) : List Key := u.waiting ++ u.measBy.toList ++ u.next.filterMap (fun n => n.2.2)

/-- A PMU in OFF: no holder, no force, switches open, no measurement (R189, R195). Results and limits stay. -/
def Pmu.toOff (u : Pmu) : Pmu :=
  { u with ctrl := u.ctrl &&& 0xFFFFFFC0#32, waiting := [], measBy := none, next := [], force := 0
           stat := u.stat &&& 0xFFFFFF0E#32, kelvinBad := false }

/-- Returns a PMU to OFF and ends its work (R195, R208). -/
def pmuOff (p : Nat) (e : EndWith) (s : State) : State :=
  let ks := (s.pin p).pmu.keys
  endKeys ks e (refreshPin p (s.updPin p (fun x => { x with pmu := x.pmu.toOff })))

/-! ## Entry into SAFE (R63, R64) -/

/-- Bit of the run record's QUAL for PIN_SAFED (R58, R146) in every run whose member holds the pin. -/
def markPinSafed (p : Nat) (s : State) : State :=
  match siteOfPin s p with
  | none => s
  | some x => { s with runs := Tab.mapVals s.runs (fun _ r =>
      if r.members.contains x && (r.phase == 1 || r.phase == 2) then
        { r with quals := setBit r.quals 6 true, firstQual := r.firstQual.or (some (BitVec.ofNat 12 Code.pinSafed)) }
      else r) }

/-- The pin runs the sequence into SAFE (R63): stage disconnected, PMU OFF and its work ended. `clearEn` clears PIN_EN;
`inRun` is set when the cause does not end the pin's site (R58). -/
def safePin (clearEn inRun : Bool) (e : EndWith) (p : Nat) (s : State) : State :=
  let s := s.updPin p (fun x => { x with ctrl := if clearEn then setBit x.ctrl 16 false else x.ctrl, limitSince := none })
  let was := bit (s.pin p).stat 0
  let s := pmuOff p e (refreshPin p s)
  if inRun && !was then markPinSafed p s else s

/-! ## Settling of DACs (R44) -/

/-- A register write or command waits for a pin's DACs. -/
def startSettle (k : Option Key) (p : Nat) (s : State) : State :=
  s.updPin p (fun x => { x with stat := setBit x.stat 8 true, settling := x.settling ++ k.toList })

/-! ## Reach of a register write -/

/-- The queue command behind an agent. -/
def agentKey : Agent → Option Key
  | .host c => some c.key
  | .engine _ => none

/-- Reach of a pin's registers by a host write: ownership and fence (R20, R45, R361). Engines are limited by R148, where
their operation is made. -/
def regReach (a : Agent) (s : State) (p : Nat) : Option Reason :=
  match a with
  | .host c => pinReach s (c.target.getD .device) p
  | .engine _ => none

/-- STREAM_ACTIVE (R45, R80). -/
def streamCheck (s : State) (p : Nat) : Option Reason := when? (streamOn s p) (rState Code.streamActive p)

/-- A refusal of a register write for an out-of-range field: DETAIL is the field's lowest bit (R13). -/
def badField (lo : Nat) : Reason := rFormat Code.valueRange lo

/-- The checks of a write, then its effect. -/
def guarded (checks : List (Option Reason)) (ok : WRes) : WRes :=
  match firstFail checks with
  | some r => .refused r
  | none => ok

/-- A write of DACs: done at once when nothing changes, else later, when they have settled (R44). -/
def dacWrite (a : Agent) (p : Nat) (changed : Bool) (f : Pin → Pin) (s : State) : WRes :=
  if changed then .later (startSettle (agentKey a) p (s.updPin p f)) else .done (s.updPin p f)

/-! ## PIN_CTRL (R51, R52, R59) -/

/-- Bits of PIN_CTRL that a write sets (R51). -/
def pinCtrlMask : Word := 0x0F1F000F#32

/-- The effect of a PIN_CTRL image that no check refuses (R51, R52, R64). A host write of PIN_EN clears SLEPT. -/
def applyPinCtrl (host : Bool) (p : Nat) (v : Word) (s : State) : State :=
  let was := bit (s.pin p).stat 0
  let s := s.updPin p (fun x =>
    { x with ctrl := v &&& pinCtrlMask, stat := if host then setBit x.stat 11 false else x.stat })
  if (s.pin p).heldSafe && !was then safePin false true { cls := 6, code := Code.pinDisabled } p s
  else refreshPin p s

/-- The checks of a PIN_CTRL image (R38, R45, R59). `fmt` is the detail of a bad IDLE_ACT. -/
def pinCtrlChecks (s : State) (p : Nat) (v : Word) (fmt : Nat) : List (Option Reason) :=
  [when? (!idleActOk (fld v 0 4)) (rFormat Code.valueRange fmt), streamCheck s p,
   when? (bit v 16 && bit (s.pin p).stat 2) (rState Code.safed p),
   when? (bit v 16 && bit (s.pin p).stat 1) (rState Code.peRail p)]

def agentIsHost : Agent → Bool
  | .host _ => true
  | .engine _ => false

/-- A write of PIN_CTRL (R51, R52). -/
def writePinCtrl (a : Agent) (p : Nat) (v : Word) (s : State) : WRes :=
  guarded ([when? (!idleActOk (fld v 0 4)) (badField 0), regReach a s p] ++ pinCtrlChecks s p v 0)
    (.done (applyPinCtrl (agentIsHost a) p v s))

/-! ## Thresholds, levels, load, clamps, path -/

/-- The committed and staged thresholds (R47, R48). -/
def Pin.ta (x : Pin) : Nat := fld x.thab 0 16
def Pin.tb (x : Pin) : Nat := fld x.thab 16 16
def Pin.tc (x : Pin) : Nat := fld x.thc 0 16

/-- A write of PIN_THC checks the staged thresholds and commits the triple (R48). -/
def writePinThc (a : Agent) (p : Nat) (v : Word) (s : State) : WRes :=
  let x := s.pin p
  let tc := fld v 0 16
  guarded [when? (!threshOk tc) (badField 0),
      when? (!threshOrder (fld x.thabStaged 0 16) (fld x.thabStaged 16 16) tc) (rFormat Code.threshOrder),
      regReach a s p, streamCheck s p]
    (dacWrite a p (x.thab != x.thabStaged || x.thc != halves 0 tc)
      (fun x => { x with thab := x.thabStaged, thc := halves 0 tc }) s)

/-- A word of two level codes in range (R40). -/
def levelPairBad (v : Word) : Option Reason :=
  firstFail [when? (!levelOk (fld v 0 16)) (badField 0), when? (!levelOk (fld v 16 16)) (badField 16)]

/-- The writes of PIN_LVL01 to PIN_STAT but PIN_THC and PIN_CTRL, by offset (R46 to R53). -/
def writePinReg (a : Agent) (p off : Nat) (v : Word) (s : State) : WRes :=
  let x := s.pin p
  let reach := [regReach a s p, streamCheck s p]
  match off with
  | 0x00 => guarded (levelPairBad v :: reach) (dacWrite a p (x.lvl01 != v) (fun x => { x with lvl01 := v }) s)
  | 0x04 => guarded (levelPairBad v :: reach) (dacWrite a p (x.lvl23 != v) (fun x => { x with lvl23 := v }) s)
  | 0x08 =>
    guarded (when? (!threshOk (fld v 0 16)) (badField 0) :: when? (!threshOk (fld v 16 16)) (badField 16) :: reach)
      (.done (s.updPin p (fun x => { x with thabStaged := v })))
  | 0x0C => writePinThc a p v s
  | 0x10 => guarded (levelPairBad v :: reach) (dacWrite a p (x.vtvc != v) (fun x => { x with vtvc := v }) s)
  | 0x14 =>
    let w := v &&& 0x0FFF0FFF#32
    guarded (when? (decide (4000 < fld v 0 12)) (badField 0) :: when? (decide (4000 < fld v 16 12)) (badField 16) :: reach)
      (dacWrite a p (x.loadi != w) (fun x => { x with loadi := w }) s)
  | 0x18 =>
    guarded (when? (!threshOk (fld v 0 16)) (badField 0) :: when? (!threshOk (fld v 16 16)) (badField 16)
        :: when? (decide (fld v 16 16 < fld v 0 16 + clampGap)) (rFormat Code.clampOrder) :: reach)
      (dacWrite a p (x.clamp != v) (fun x => { x with clamp := v }) s)
  | 0x1C => guarded reach (.done (s.updPin p (fun x => { x with path := v &&& 0x00000FFF#32 })))
  | 0x20 => writePinCtrl a p v s
  | 0x24 => guarded [regReach a s p] (.done (s.updPin p (fun x => { x with stat := x.stat &&& ~~~(v &&& 0x000000FC#32) })))
  | _ => guarded [regReach a s p] (.done s)

/-! ## Timing sets (R76 to R78) -/

/-- D of a timing set. -/
def TSet.d (t : TSet) : Nat := fld t.cfg 0 16 + 1
/-- FMT: 0 NRZ, 1 RZ, 2 RO. -/
def TSet.fmt (t : TSet) : Nat := fld t.cfg 16 2

/-- The conditions of R78. -/
def TSet.valid (t : TSet) : Bool :=
  let per := t.d * 256
  let drv := t.drv.toNat
  let ret := t.ret.toNat
  let stb := t.stb.toNat
  let wcl := t.wcl.toNat
  decide (drv < 2 * per) && decide (stb < 2 * per) && decide (wcl < 2 * per) && decide (stb ≤ wcl) &&
    decide (wcl ≤ stb + per) &&
    (t.fmt == 0 || (decide (ret < 2 * per) && decide (drv + 256 ≤ ret) && decide (ret + 256 ≤ drv + per)))

def Pin.tset (x : Pin) (t : Nat) : TSet := Tab.get {} x.sets t

/-- A write of a timing-set register or PIN_SYMCFG at offset `off` of the pin's timing block (R76, R77, R80). -/
def writeTimingReg (a : Agent) (p off : Nat) (v : Word) (s : State) : WRes :=
  let reach := [regReach a s p, streamCheck s p]
  let edge := v &&& 0x01FFFFFF#32
  let t := off / 32
  let put (f : TSet → TSet) : WRes := guarded reach (.done (s.updPin p (fun x => { x with sets := Tab.upd {} x.sets t f })))
  if off = 0x200 then guarded reach (.done (s.updPin p (fun x => { x with symcfg := v &&& 0x3#32 })))
  else match off % 32 with
    | 0x00 =>
      guarded (when? (fld v 0 16 == 0) (badField 0) :: when? (fld v 16 2 == 3) (badField 16) :: reach)
        (put (fun x => { x with cfg := v &&& 0x0003FFFF#32 }))
    | 0x04 => put (fun x => { x with drv := edge })
    | 0x08 => put (fun x => { x with ret := edge })
    | 0x0C => put (fun x => { x with stb := edge })
    | 0x10 => put (fun x => { x with wcl := edge })
    | _ => guarded [regReach a s p] (.done s)

/-! ## PMU registers (R209) -/

/-- Codes of the PMU voltage clamp (R209). -/
def vclampBad (v : Word) : Option Reason :=
  firstFail [when? (!levelOk (fld v 0 16)) (badField 0), when? (!levelOk (fld v 16 16)) (badField 16),
    when? (decide (fld v 16 16 < fld v 0 16 + clampGap)) (badField 0)]

/-- A write of a PMU register at offset `off` of the pin's PMU block (R199, R209). -/
def writePmuReg (a : Agent) (p off : Nat) (v : Word) (s : State) : WRes :=
  let reach := [regReach a s p]
  let put (f : Pmu → Pmu) : WRes := guarded reach (.done (s.updPin p (fun x => { x with pmu := f x.pmu })))
  match off with
  | 0x00 => put (fun u => { u with ctrl := setBit u.ctrl 16 (bit v 16) })
  | 0x0C =>
    guarded [when? (decide (fld v 0 16 < 656) || decide (32768 < fld v 0 16)) (badField 0)]
      (put (fun u => { u with clim := v &&& 0xFFFF#32 }))
  | 0x10 => guarded [vclampBad v] (put (fun u => { u with vclamp := v }))
  | 0x14 => put (fun u => { u with stat := u.stat &&& ~~~(v &&& 0x8#32) })
  | _ => guarded reach (.done s)

/-! ## TDC registers (R233, R255) -/

/-- An interval unit taps a pin (R255). -/
def tapped (s : State) (p : Nat) : Bool :=
  s.slices.any (fun e => match e.2.tiv with | none => false | some t => t.startPin == p || t.stopPin == p)

/-- A consumer of the pin's stamps is active (R233). -/
def tdcBusy (s : State) (p : Nat) : Bool :=
  (s.pin p).tdc.holder != 0 || tapped s p || (s.pin p).tdc.freq.isSome

/-- A write of a TDC register at offset `off` of the pin's TDC block (R233, R255). -/
def writeTdcReg (a : Agent) (p off : Nat) (v : Word) (s : State) : WRes :=
  let reach := [regReach a s p]
  match off with
  | 0x00 =>
    let thr := fld v 8 2
    guarded [when? (thr == 3) (badField 8), regReach a s p,
        when? (tdcBusy s p) (rState Code.tdcBusy p)]
      (.done (s.updPin p (fun x => { x with tdc := { x.tdc with ctrl := v &&& 0x00010300#32 } })))
  | 0x04 =>
    guarded reach (.done (s.updPin p (fun x => { x with tdc := { x.tdc with ovf := x.tdc.ovf && !bit v 4 } })))
  | _ => guarded reach (.done s)

/-! ## The end of TDC work (R253) -/

/-- Empties the FIFO and clears the holder of a pin. -/
def tdcRelease (p : Nat) (s : State) : State :=
  s.updPin p (fun x => { x with tdc := { x.tdc with fifo := [], holder := 0, pol := 0, lostPending := 0 } })

/-- The stack of a buffer and the class 2 units of a stamp capture (R234). -/
def TdcCap.units (c : TdcCap) : Nat := c.rate * c.pins.length

/-- Ends a stamp capture without writing headers: holds and reservation released (R238, R253). -/
def dropCapture (c : TdcCap) (s : State) : State :=
  let s := forAll c.pins tdcRelease s
  bufDone c.first (release2 (stackOf s c.first) c.units { s with caps := s.caps.filter (fun d => d.first != c.first) })

/-- Ends an interval unit's measurement: reservation released; the counts stay readable (R244, R256). -/
def dropInterval (n : Nat) (t : Interval) (s : State) : State :=
  let s := s.updSlice n (fun x => { x with tiv := none, tivPairs := BitVec.ofNat 64 t.pairs
                                           tivUnpaired := BitVec.ofNat 32 t.unpaired, tivSurplus := BitVec.ofNat 32 t.surplus })
  bufDone t.first (release2 (stackOf s t.first) t.recRate s)

/-- Ends every capture, interval and frequency measurement that uses one of the pins (R253). -/
def endTdcWork (ps : List Nat) (e : EndWith) (s : State) : State :=
  let s := (s.caps.filter (fun c => c.pins.any ps.contains)).foldl
    (fun s c => completeBad c.key e.cls e.code e.detail (dropCapture c s)) s
  let s := s.slices.foldl (fun s sl =>
    match sl.2.tiv with
    | none => s
    | some t => if ps.contains t.startPin || ps.contains t.stopPin then
        completeBad t.key e.cls e.code e.detail (dropInterval sl.1 t s) else s) s
  forAll ps (fun p s =>
    let s := tdcRelease p s
    match (s.pin p).tdc.freq with
    | none => s
    | some f =>
      completeBad f.key e.cls e.code e.detail (s.updPin p (fun x => { x with tdc := { x.tdc with freq := none } }))) s

end Sys2Proof.Machine
end

