-- ==== Sys2Proof/Machine/ThmOps.lean ====
section
/-!
DEFINITION. Shared operations of the thermal governor: throttle caps (R472, R473), wakes and sleep of bays (R465 to R467),
step mode (R475).
-/
namespace Sys2Proof.Machine

/-! ## Bays -/

/-- The bay is not ASLEEP (R479). -/
def bayAwake (s : State) (k : Nat) : Bool := decide ((s.bay k).state ≠ 2)

/-- Throttling of a zone acts on a bay (R31). -/
def zoneHasBay (z k : Nat) : Bool := decide (z < 2) || zoneOfBay k == z

/-! ## Caps (R473) -/

/-- ceil(A × n) with A = (8 − L) / 8 (R472). -/
def capOf (s : State) (z n : Nat) : Nat := cdiv ((8 - (s.zone z).level.toNat) * n) 8

/-- Bays that are awake, ENTERING or WAKING in the zone's scope. -/
def awakeIn (s : State) (z : Nat) : Nat := ((List.range 16).filter (fun k => zoneHasBay z k && bayAwake s k)).length

/-- Every zone stays within its wake cap when the listed sleeping bays wake. -/
def wakeFits (s : State) (l : List Nat) : Bool :=
  [0, 1, 2, 3, 4, 5].all (fun z =>
    let n := (l.filter (fun k => zoneHasBay z k)).length
    n == 0 || decide (awakeIn s z + n ≤ capOf s z (if z < 2 then 16 else 4)))

/-- Bays of every active sequence: admitted member sites, running TDC captures, interval units, digitiser captures and
acquisitions. -/
def activeSeqs (s : State) : List (List Nat) :=
  s.runs.flatMap (fun e =>
      if e.2.phase == 1 || e.2.phase == 2 then e.2.members.map (fun x => ((s.site? x).map Site.bayNos).getD []) else [])
    ++ s.caps.map (fun c => c.pins.map (· / 16))
    ++ s.slices.flatMap (fun e => (e.2.tiv.map (fun t => [t.startPin / 16, t.stopPin / 16, e.1 / 8])).toList)
    ++ s.bays.flatMap (fun e => (e.2.dig.cap.map (fun _ => [e.1])).toList ++ (e.2.dig.acq.map (fun _ => [e.1])).toList)

/-- Sequences of a zone. -/
def seqsIn (z : Nat) (l : List (List Nat)) : Nat := (l.filter (fun b => decide (z < 2) || b.any (zoneHasBay z))).length

/-- Every zone that new sequences touch stays within its cap. -/
def seqFits (s : State) (new : List (List Nat)) : Bool :=
  [0, 1, 2, 3, 4, 5].all (fun z =>
    let n := seqsIn z new
    n == 0 || decide (seqsIn z (activeSeqs s) + n ≤ capOf s z (if z < 2 then 128 else 32)))

/-! ## Wakes (R466) -/

/-- SCLK is stopped (R467). -/
def sclkStopped (s : State) : Bool := !s.tim.sclk

/-- The wake allowance W in fine steps (R142): 0, 0.25 µs or 51 µs. -/
def wakeAllowance (s : State) (asleep : List Nat) : Nat :=
  if asleep.isEmpty then 0 else if sclkStopped s then 51 * usSteps else usSteps / 4

/-- A THERMAL trace record (R508): zone, L, S, bay, Tz. -/
def traceThermal (sub z bay : Nat) (s : State) : State :=
  let x := s.zone z
  trace 5 sub 0 (leBytes 1 z ++ leBytes 1 x.level.toNat ++ leBytes 1 x.s.toNat ++ leBytes 1 bay
    ++ leBytes 4 (ofSigned 32 x.temp)) s

/-- A granted wake completes (R466): SCLK started when stopped, STATE = AWAKE, LAST_WAKE records the cause, the wake is
counted. Pins stay SAFE with SLEPT until PIN_EN is written; their TDCs serve their last tables (R250). -/
def wakeBay (cause k : Nat) (s : State) : State :=
  if bayAwake s k then s
  else
    let s := { s with tim := { s.tim with sclk := true } }
    let s := forAll ((List.range 16).map (fun i => 16 * k + i)) (fun p s =>
      s.updPin p (fun x => { x with tdc := { x.tdc with stale := true } })) s
    traceThermal 4 (zoneOfBay k) k (count (701 + k) 1
      (s.updBay k (fun b => { b with state := 0, lastWake := BitVec.ofNat 4 cause, wakeReq := 0 })))

end Sys2Proof.Machine
end

