-- ==== Sys2Proof/Machine/WinOps.lean ====
section
/-!
DEFINITION. Shared operations of the Winnow units (R210 to R227): what a vector's strobes do, staging, the signature, the
log FIFO, site areas and the verdict record.
-/
namespace Sys2Proof.Machine

/-- One input of a vector (R210): site pin entry, recorded value, whether it failed, whether it is a CAP strobe. -/
structure StrobeIn where
  j : Nat
  val : Nat
  fail : Bool
  cap : Bool
  deriving DecidableEq, Repr

def updWin (n : Nat) (f : Winnow → Winnow) (s : State) : State := s.updSlice n (fun x => { x with win := f x.win })

/-- LOGRATE of a unit (R227). -/
def Winnow.logRate (w : Winnow) : Nat := fld w.ctrl 20 6
/-- ZLOG. -/
def Winnow.zlog (w : Winnow) : Nat := fld w.ctrl 18 2
/-- FULL: WRAP. -/
def Winnow.wrap (w : Winnow) : Bool := bit w.ctrl 17
/-- MATCH_MODE: every iteration is committed. -/
def Winnow.matchAll (w : Winnow) : Bool := bit w.ctrl 16
/-- MISR_CMP. -/
def Winnow.misrCmp (w : Winnow) : Bool := bit w.ctrl 0

/-! ## Windows (R212) -/

def Winnow.window (w : Winnow) (i : Nat) : WinWindow := Tab.get {} w.windows i
/-- Mode of a window: 0 OFF, 1 LOG, 2 MASK, 3 COUNT. -/
def WinWindow.mode2 (x : WinWindow) : Nat := fld x.mode 0 2
def WinWindow.covers (x : WinWindow) (idx : Nat) : Bool := decide (x.ws.toNat ≤ idx) && decide (idx ≤ x.we.toNat)
/-- Some window of a mode covers the vector. -/
def Winnow.inMode (w : Winnow) (m idx : Nat) : Bool :=
  [0, 1, 2, 3].any (fun i => (w.window i).mode2 == m && (w.window i).covers idx)
/-- Fails of the vector are logged (R212). -/
def Winnow.logs (w : Winnow) (idx : Nat) : Bool :=
  if w.inMode 3 idx then false
  else if [0, 1, 2, 3].any (fun i => (w.window i).mode2 == 1) then w.inMode 1 idx else true

/-! ## Signature (R216) -/

/-- step(m, w). -/
def misrStep (m w : BitVec 64) : BitVec 64 :=
  ((m <<< 1) ^^^ (if bit m 63 then 0x1B#64 else 0)) ^^^ w

/-- The two steps of a vector with signature inputs. -/
def misrVector (m : BitVec 64) (l : List StrobeIn) : BitVec 64 :=
  if l.isEmpty then m
  else
    let lo := bitsToNat ((l.filter (fun i => i.val.testBit 0)).map (·.j))
    let hi := bitsToNat ((l.filter (fun i => i.val.testBit 1)).map (·.j))
    misrStep (misrStep m (BitVec.ofNat 64 lo)) (BitVec.ofNat 64 hi)

/-! ## The log FIFO (R219, R220, R224) -/

/-- Records the FIFO holds. -/
def winFifoMax : Nat := 1024
/-- Records the staging store of a site holds (R215). -/
def winStageMax : Nat := 64

/-- A record is offered to the FIFO; with LOGRATE = 0 no record is written. -/
def Winnow.offer (w : Winnow) (r : List Byte) : Winnow :=
  if w.logRate = 0 then w
  else if w.fifo.length < winFifoMax then { w with fifo := w.fifo ++ [r], recs := satInc w.recs }
  else { w with refused := w.refused + 1, lost := satInc w.lost, dropped := true }

/-- Records in the staging store. -/
def Winnow.stagedRecs (w : Winnow) : Nat := (w.staged.map (fun x => x.recs.length)).foldl (· + ·) 0

/-! ## Counts -/

/-- Adds to a 64-bit count, saturating (R213). -/
def sat64 (c : BitVec 64) (n : Nat) : BitVec 64 := BitVec.ofNat 64 (min (c.toNat + n) (2 ^ 64 - 1))

/-- Adds the entries of one table of counts to another. -/
def tabAdd (a b : Tab Nat) : Tab Nat := b.foldl (fun (a : Tab Nat) (e : Nat × Nat) => Tab.set a e.1 (Tab.get 0 a e.1 + e.2)) a

/-- Work done by one vector joins a staged iteration. -/
def Staged.add (o d : Staged) : Staged :=
  { fcnt := o.fcnt + d.fcnt, fvcnt := o.fvcnt + d.fvcnt, strobes := o.strobes + d.strobes, pf := tabAdd o.pf d.pf
    wf := tabAdd o.wf d.wf, ff := o.ff.or d.ff, recs := o.recs ++ d.recs, misr := d.misr }

/-- Staged work is committed as if it had happened directly (R213 to R215). -/
def Winnow.commit (w : Winnow) (d : Staged) : Winnow :=
  let w := { w with
    fcnt := sat64 w.fcnt d.fcnt, fvcnt := sat64 w.fvcnt d.fvcnt, strobes := sat64 w.strobes d.strobes
    pfcnt := d.pf.foldl (fun (a : Tab Word) (e : Nat × Nat) => Tab.set a e.1 (satAdd (Tab.get 0 a e.1) e.2)) w.pfcnt
    windows := d.wf.foldl (fun (a : Tab WinWindow) (e : Nat × Nat) =>
      Tab.upd {} a e.1 (fun x => { x with cnt := satAdd x.cnt e.2 })) w.windows
    ff := w.ff.or d.ff, misr := d.misr }
  let w := { w with pcntSat := w.pcntSat || w.pfcnt.any (fun e => e.2 == 0xFFFFFFFF#32) }
  d.recs.foldl Winnow.offer w

/-- What one vector does joins the open staged iteration, or is committed. -/
def Winnow.take (w : Winnow) (d : Staged) : Winnow :=
  match w.staged with
  | [] => w.commit d
  | t :: l =>
    let room := winStageMax - w.stagedRecs
    { w with staged := t.add { d with recs := d.recs.take room } :: l
             lost := satAdd w.lost (d.recs.length - room) }

/-- The signature in progress. -/
def Winnow.curMisr (w : Winnow) : BitVec 64 :=
  match w.staged with
  | [] => w.misr
  | t :: _ => t.misr

/-- A staged iteration opens (R215). -/
def Winnow.openStage (w : Winnow) : Winnow := { w with staged := { misr := w.curMisr } :: w.staged }

/-- The innermost staged iteration is committed: into the outer one, or for good (R215). -/
def Winnow.commitStage (w : Winnow) : Winnow :=
  match w.staged with
  | [] => w
  | [t] => { w with staged := [] }.commit t
  | t :: o :: l => { w with staged := o.add t :: l }

/-- The innermost staged iteration is discarded (R215). -/
def Winnow.dropStage (w : Winnow) : Winnow :=
  match w.staged with
  | [] => w
  | t :: l => { w with staged := l, mfcnt := sat64 w.mfcnt t.fcnt }

/-- Every open staged iteration is committed (R215: a site that ends). -/
def Winnow.commitAll (w : Winnow) : Winnow :=
  (List.range w.staged.length).foldl (fun w _ => w.commitStage) w

/-! ## Records (R221, R222) -/

/-- FLAGS of a record: MATCH, PRIVATE (R220). -/
def recFlags (m priv : Bool) : Nat := m.toNat + 2 * priv.toNat

/-- Recorded values, two bits a pin. -/
def valuesOf (l : List StrobeIn) : Nat := l.foldl (fun a i => a ||| (i.val % 4) <<< (2 * i.j)) 0

/-- A FAIL record. -/
def failRecord (m priv : Bool) (fails : List StrobeIn) (iter idx : Nat) (st : Full) : List Byte :=
  leBytes 1 1 ++ leBytes 1 (recFlags m priv) ++ leBytes 1 fails.length ++ leBytes 1 0 ++ leBytes 4 iter ++ leBytes 8 idx
    ++ leBytes 8 (st.toNat % 2 ^ 64) ++ leBytes 8 (bitsToNat (fails.map (·.j)))

/-- A ZONES record. -/
def zonesRecord (m priv : Bool) (ins : List StrobeIn) (idx : Nat) : List Byte :=
  leBytes 1 2 ++ leBytes 1 (recFlags m priv) ++ leBytes 6 idx ++ leBytes 8 (bitsToNat (ins.map (·.j)))
    ++ leBytes 16 (valuesOf ins)

/-- A MARK, DROP or CAL record: type, flags, word at 4, progress, stamp. -/
def eventRecord (ty : Nat) (priv : Bool) (v idx : Nat) (st : Full) : List Byte :=
  leBytes 1 ty ++ leBytes 1 (recFlags false priv) ++ leBytes 2 0 ++ leBytes 4 v ++ leBytes 8 idx
    ++ leBytes 8 (st.toNat % 2 ^ 64) ++ leBytes 8 0

/-! ## One vector (R210 to R216) -/

/-- Where a vector stands: progress, start, innermost iteration count, position, row, private fetch. -/
structure VecAt where
  idx : Nat
  stamp : Full
  iter : Nat
  pos : Nat
  row : Nat
  priv : Bool

/-- An input is masked (R211). -/
def Winnow.masks (w : Winnow) (idx : Nat) (i : StrobeIn) : Bool := bit w.pmask i.j || w.inMode 2 idx

/-- The failing strobes of a vector (R211). -/
def Winnow.fails (w : Winnow) (idx : Nat) (ins : List StrobeIn) : List StrobeIn :=
  ins.filter (fun i => i.fail && !i.cap && !w.masks idx i)

/-- What a vector does, as staged work. -/
def Winnow.vectorWork (w : Winnow) (v : VecAt) (ins : List StrobeIn) : Staged :=
  let fails := w.fails v.idx ins
  let m := !w.staged.isEmpty
  let logFail := !fails.isEmpty && w.logs v.idx
  let zones := (w.zlog.testBit 0 && logFail) || (w.zlog.testBit 1 && ins.any (·.cap))
  let recs := (if logFail then [failRecord m v.priv fails v.iter v.idx v.stamp] else [])
    ++ (if zones then [zonesRecord m v.priv ins v.idx] else [])
  { fcnt := fails.length, fvcnt := if fails.isEmpty then 0 else 1, strobes := (ins.filter (fun i => !i.cap)).length
    pf := fails.map (fun i => (i.j, 1))
    wf := ([0, 1, 2, 3].filter (fun k => !fails.isEmpty && (w.window k).covers v.idx
        && ((w.window k).mode2 == 1 || (w.window k).mode2 == 3))).map (fun k => (k, fails.length))
    ff := if fails.isEmpty then none else some
      { idx := BitVec.ofNat 64 v.idx, stamp := v.stamp.setWidth 64, pins := BitVec.ofNat 64 (bitsToNat (fails.map (·.j)))
        values := BitVec.ofNat 128 (valuesOf ins), iter := BitVec.ofNat 32 v.iter, pos := BitVec.ofNat 32 v.pos
        row := BitVec.ofNat 32 v.row }
    recs := if w.logRate = 0 then [] else recs
    misr := misrVector w.curMisr (ins.filter (fun i => !w.masks v.idx i && (i.cap || w.misrCmp))) }

/-- A vector's strobes reach the unit; FAIL is the engine condition (R211, R215). -/
def Winnow.vector (w : Winnow) (v : VecAt) (ins : List StrobeIn) : Winnow :=
  let w' := w.take (w.vectorWork v ins)
  { w' with fail := w'.fail || !(w.fails v.idx ins).isEmpty }

/-- At admission counts and captures start at 0 and the signature is loaded (R213, R216, R227). -/
def Winnow.clearForRun (w : Winnow) : Winnow :=
  { ctrl := w.ctrl, iter := w.iter, fail := w.fail, pmask := w.pmask, seed := w.seed, misr := w.seed
    windows := Tab.mapVals w.windows (fun _ x => { x with cnt := 0 }), hi := w.hi }

/-! ## Site areas (R217, R218) and the drain (R219, R224) -/

/-- Size of a site area of a buffer of `count` slots shared by `m` sites. -/
def siteAreaSize (count m : Nat) : Nat := (count * slotSize - 4096) / max m 1 / 4096 * 4096

/-- First byte of a member's area. -/
def Run.areaAddr (r : Run) (x : Nat) : Nat :=
  r.first * slotSize + 4096 + r.members.idxOf x * siteAreaSize r.count r.members.length

/-- Records of a site log. -/
def Run.logRoom (r : Run) : Nat := (siteAreaSize r.count r.members.length - 512) / 32

/-- The home slice of a site. -/
def homeOf (s : State) (x : Nat) : Nat := ((s.site? x).map (·.home)).getD 0

/-- One record leaves the FIFO for the log; a DROP record takes the place that frees after refusals (R220, R224). -/
def drainRecord (r : Run) (x n progress : Nat) (priv : Bool) (s : State) : State :=
  let w := (s.slice n).win
  match w.fifo with
  | [] => s
  | b :: l =>
    let i := w.recs.toNat - w.fifo.length
    let c := r.logRoom
    let beyond := decide (c ≤ i)
    let s := if beyond && !w.wrap then s else grnStore (r.areaAddr x + 512 + 32 * (i % max c 1)) b s
    updWin n (fun w =>
      let w := { w with fifo := l, logFull := w.logFull || beyond, lost := if beyond && !w.wrap then satInc w.lost else w.lost }
      if w.refused = 0 then w
      else { w with fifo := l ++ [eventRecord 4 priv w.refused progress s.now], refused := 0, recs := satInc w.recs }) s

/-- Drains the whole FIFO. -/
def drainAll (r : Run) (x n progress : Nat) (priv : Bool) (s : State) : State :=
  (List.range ((s.slice n).win.fifo.length + 1)).foldl (fun s _ => drainRecord r x n progress priv s) s

/-- VERDICT (R225). -/
def verdictOf (status : Nat) (w : Winnow) : Nat :=
  if 0 < w.fcnt.toNat then 1 else if status = 0 then 0 else 2

/-- FLAGS of a verdict. -/
def Winnow.flags (w : Winnow) : Nat :=
  w.logFull.toNat + 2 * w.dropped.toNat + 4 * w.pcntSat.toNat + 8 * (w.logFull && w.wrap).toNat

/-- The 512-byte verdict record (R225). -/
def verdictRecord (x : Nat) (q : SiteRun) (w : Winnow) : List Byte :=
  let ff := w.ff.getD { idx := 0xFFFFFFFFFFFFFFFF#64 }
  leBytes 1 x ++ leBytes 1 q.status.toNat ++ leBytes 1 (verdictOf q.status.toNat w) ++ leBytes 1 w.flags
    ++ leBytes 4 (tagWord q.sl q.tq q.th q.ce).toNat ++ leBytes 2 q.ep.toNat ++ leBytes 6 0 ++ leBytes 8 q.endStamp.toNat
    ++ leBytes 8 w.fcnt.toNat ++ leBytes 8 w.fvcnt.toNat ++ leBytes 8 w.mfcnt.toNat ++ leBytes 8 w.strobes.toNat
    ++ leBytes 4 w.recs.toNat ++ leBytes 4 w.lost.toNat ++ leBytes 8 w.misr.toNat ++ leBytes 8 ff.idx.toNat
    ++ leBytes 8 ff.stamp.toNat ++ leBytes 8 ff.pins.toNat ++ leBytes 16 ff.values.toNat ++ leBytes 4 ff.iter.toNat
    ++ leBytes 4 ff.pos.toNat ++ leBytes 4 ff.row.toNat ++ leBytes 4 0
    ++ [0, 1, 2, 3].flatMap (fun i => leBytes 4 (w.window i).cnt.toNat) ++ leBytes 112 0
    ++ (List.range 64).flatMap (fun j => leBytes 4 (Tab.get 0 w.pfcnt j).toNat)

/-- A run is admitted on a site (R143, R227). -/
def siteAdmitted (s : State) (x : Nat) : Option (Nat × Run) :=
  s.runs.find? (fun e => (e.2.phase == 1 || e.2.phase == 2) && e.2.members.contains x)

/-- A CAL record in the log of every member site of every admitted run (R220, R222). -/
def markSiteLogs (ce : Nat) (s : State) : State :=
  s.runs.foldl (fun s e =>
    if e.2.phase == 1 || e.2.phase == 2 then
      e.2.sites.foldl (fun s q =>
        if q.2.live then updWin (homeOf s q.1) (fun w => w.offer (eventRecord 5 q.2.priv ce q.2.idx s.now)) s else s) s
    else s) s

end Sys2Proof.Machine
end

