-- ==== Sys2Proof/Machine/Listing.lean ====
section
/-!
DEFINITION. Stream listings (R117 to R124), their geometry, and the checks and reservations of STR.START (R100, R136, R137,
R142).
-/
namespace Sys2Proof.Machine

/-! ## Reading a listing -/

/-- A field of `n` bytes at offset `o` of the listing in a slot. -/
def lrd (s : State) (slot o n : Nat) : Nat := fromLe (memReads s.grn.mem (slot * slotSize + o) n)

/-- Loop entry `e` (R123). -/
def readLoop (s : State) (slot e : Nat) : Loop :=
  let o := 0x80 + e * 32
  { sp := lrd s slot o 4, sr := lrd s slot (o + 4) 4, ep := lrd s slot (o + 8) 4, er := lrd s slot (o + 12) 4
    kind := lrd s slot (o + 16) 1, cond := lrd s slot (o + 17) 1, least := lrd s slot (o + 0x14) 4
    most := lrd s slot (o + 0x18) 4 }

/-- Descriptor `n` (R120). -/
def readPos (s : State) (slot n : Nat) : Pos :=
  let o := 0x880 + n * 16
  { slot := lrd s slot o 2, rows := lrd s slot (o + 4) 4, tset := lrd s slot (o + 8) 1 % 16
    jtgt := (lrd s slot (o + 9) 1).testBit 0, last := (lrd s slot (o + 9) 1).testBit 1 }

/-- Nibble `i` of the vector at offset `o` of the header (R118). -/
def readVec (s : State) (slot o i : Nat) : BitVec 4 := BitVec.ofNat 4 (lrd s slot (o + i / 2) 1 / 16 ^ (i % 2))

/-- Rows that a segment holds (R121). -/
def segRowsMax (width : Nat) : Nat := slotSize / (8 * max width 1)

/-! ## Geometry -/

def posAt (l : List Pos) (n : Nat) : Pos := l.getD n {}

/-- Rows before row `row` of position `pos` in listing order. -/
def linOf (l : List Pos) (pos row : Nat) : Nat := ((l.take pos).map (·.rows)).foldl (· + ·) 0 + row

/-- The first row of the body, in listing order. -/
def Loop.from (e : Loop) (l : List Pos) : Nat := linOf l e.sp e.sr
/-- The last row of the body. -/
def Loop.to (e : Loop) (l : List Pos) : Nat := linOf l e.ep e.er
/-- The body holds a row. -/
def Loop.has (e : Loop) (l : List Pos) (i : Nat) : Bool := decide (e.from l ≤ i) && decide (i ≤ e.to l)
/-- The body touches a position. -/
def Loop.touches (e : Loop) (p : Nat) : Bool := decide (e.sp ≤ p) && decide (p ≤ e.ep)
/-- The body of `e` holds the body of `f`. -/
def Loop.holds (e f : Loop) (l : List Pos) : Bool := decide (e.from l ≤ f.from l) && decide (f.to l ≤ e.to l)
/-- The bodies are disjoint. -/
def Loop.apart (e f : Loop) (l : List Pos) : Bool := decide (e.to l < f.from l) || decide (f.to l < e.from l)

/-- A position is pinned: inside a body, or a jump target (R100). -/
def pinnedPos (loops : List Loop) (l : List Pos) (p : Nat) : Bool :=
  (posAt l p).jtgt || loops.any (fun e => e.touches p)

/-! ## Step 1 of R137: the listing -/

/-- A refusal with DETAIL, W6 and W7. -/
def rAt (cls code detail w6 w7 : Nat) : Reason := { cls := cls, code := code, detail := detail, w6 := w6, w7 := w7 }

/-- The slot lies in the pattern region (R100). -/
def inPattern (s : State) (slot : Nat) : Bool :=
  decide (slot < 2 * slotsPerStack s) && decide (regionOf s slot = .pattern)

/-- The listing slot: REGION, fence, SEG_ACTIVE, SEG_NOT_READY. -/
def listingSlotChecks (s : State) (slot : Nat) : List (Option Reason) :=
  [when? (!inPattern s slot) (rAt 3 Code.region 0xFFFF 0 slot),
   slotFenceCheck s slot,
   when? (segState s slot == 3) (rAt 2 Code.segActive 0xFFFF 0 slot),
   when? (segState s slot != 2) (rAt 2 Code.segNotReady 0xFFFF 0 slot)]

/-- VERSION and the header (R118), then LISTING_SHORT (R117). -/
def headerChecks (s : State) (slot : Nat) : List (Option Reason) :=
  let f := lrd s slot
  let zero := fun (o n : Nat) => (List.range n).map (fun i => when? (f (o + i) 1 != 0) (rFormat Code.paramRsv (o + i)))
  let val := fun (o : Nat) (b : Bool) => when? b (rFormat Code.valueRange o)
  [when? (f 0 2 != 1) (rFormat Code.listingVersion), val 2 (f 2 1 == 0 || decide (4 < f 2 1)),
   when? (decide (4 ≤ f 3 1)) (rFormat Code.paramRsv 3), val 4 (f 4 4 == 0 || decide (65400 < f 4 4)),
   val 8 (decide (2 ^ (16 * f 2 1) ≤ f 8 8)), val 0x14 (decide (128 < f 0x14 2)), val 0x16 (decide (64 < f 0x16 1))]
    ++ zero 0x17 9 ++ zero 0x60 32
    ++ [when? (decide ((s.slot slot).len < 0x880 + 16 * f 4 4)) (rFormat Code.listingShort)]

/-- MIN and MAX agree with the kind; KIND and COND are valid; reserved bytes are 0 (R123, R124). -/
def loopFieldsOk (s : State) (slot e : Nat) : Bool :=
  let x := readLoop s slot e
  let o := 0x80 + e * 32
  lrd s slot (o + 0x12) 2 == 0 && lrd s slot (o + 0x1C) 4 == 0 && decide (x.kind ≤ 2) && (x.kind == 0 || decide (x.cond ≤ 2)) &&
    (match x.kind with
     | 0 => decide (1 ≤ x.least) && x.most == 0
     | 1 => decide (1 ≤ x.least) && decide (x.least ≤ x.most)
     | _ => x.least == 0 && decide (1 ≤ x.most))

/-- The body lies in the listing, runs forward, and one pass has at least 64 rows (R124). -/
def loopBodyOk (l : List Pos) (x : Loop) : Bool :=
  decide (x.sp < l.length) && decide (x.ep < l.length) && decide (x.sr < (posAt l x.sp).rows) &&
    decide (x.er < (posAt l x.ep).rows) && decide (x.from l ≤ x.to l) && decide (64 ≤ x.to l + 1 - x.from l)

/-- Disjoint or nested with the entries before it, and at most 4 deep (R124). -/
def loopNestOk (l : List Pos) (before : List Loop) (x : Loop) : Bool :=
  before.all (fun y => x.apart y l || x.holds y l || y.holds x l) &&
    (before ++ [x]).all (fun y => decide (((before ++ [x]).filter (fun z => z.holds y l)).length ≤ 4))

/-- Row 0 of every jump target inside the body is the first row of a body (R124). -/
def loopTargetsOk (l : List Pos) (loops : List Loop) (x : Loop) : Bool :=
  (List.range l.length).all (fun p =>
    !(posAt l p).jtgt || !x.has l (linOf l p 0) || loops.any (fun y => y.from l == linOf l p 0))

/-- The loop table in ascending entry number. DETAIL and W6 hold the entry. -/
def loopChecks (s : State) (slot : Nat) (l : List Pos) (loops : List Loop) : List (Option Reason) :=
  (List.range loops.length).map (fun e =>
    let x := loops.getD e {}
    when? (!(loopFieldsOk s slot e && loopBodyOk l x && loopNestOk l (loops.take e) x && loopTargetsOk l loops x))
      (rAt 3 Code.loopForm e e 0))

/-- The descriptors in ascending position (R117, R120, R121). DETAIL and W6 hold the position, W7 the offset. -/
def descriptorChecks (s : State) (slot width n : Nat) : List (Option Reason) :=
  (List.range n).flatMap (fun p =>
    let o := 0x880 + p * 16
    let f := lrd s slot
    [when? (f (o + 2) 2 != 0) (rAt 3 Code.paramRsv p p 0),
     when? (f o 2 == slot) (rAt 3 Code.listingAsSegment p p 0),
     when? (decide (segRowsMax width < f (o + 4) 4)) (rAt 3 Code.segRows p p 4),
     when? (decide (16 ≤ f (o + 8) 1)) (rAt 3 Code.paramRsv p p 8),
     when? (decide (4 ≤ f (o + 9) 1)) (rAt 3 Code.paramRsv p p 9),
     when? (f (o + 10) 6 != 0) (rAt 3 Code.paramRsv p p 10)])

/-- Codes of the underrun and safe vectors (R119). -/
def vecCodeOk (c : BitVec 4) : Bool := decide (c.toNat ≤ 3) || c == 8 || c == 9 || c == 13

/-- VEC_CODE, when the PROG flag is 1 (R119). -/
def vecCheck (s : State) (slot width flag o : Nat) : Option Reason :=
  when? ((lrd s slot 3 1).testBit flag && (List.range (16 * width)).any (fun i => !vecCodeOk (readVec s slot o i)))
    (rFormat Code.vecCode o)

/-! ## Steps 2 to 4 -/

/-- The pin map of a site against the stream (R129). -/
def pinMapChecks (width symcols x : Nat) (site : Site) : List (Option Reason) :=
  (List.range site.pins.length).flatMap (fun j =>
    let p := site.pins.getD j {}
    [when? (decide (16 * width ≤ p.col) || (p.paired && decide (16 * width ≤ p.pair))) (rFormat Code.pinMapRange (x * 64 + j)),
     when? (p.paired && !symcols.testBit p.pair) (rFormat Code.pairNotSymbol (x * 64 + j))])

/-- Insertion of a number in an ascending list. -/
def insertAsc (n : Nat) : List Nat → List Nat
  | [] => [n]
  | m :: l => if n ≤ m then n :: m :: l else m :: insertAsc n l

/-- A list in ascending order. -/
def sortAsc (l : List Nat) : List Nat := l.foldl (fun a n => insertAsc n a) []

/-- Pins of the member sites, ascending. -/
def memberPins (s : State) (ms : List Nat) : List Nat := sortAsc (ms.flatMap (fun x => ((s.site? x).map Site.pinNos).getD []))

/-- TSET_INVALID, then PERIOD_MISMATCH (R79). -/
def tsetChecks (s : State) (ps : List Nat) : List (Option Reason) :=
  ps.flatMap (fun p => (List.range 16).map (fun t =>
      when? (!((s.pin p).tset t).valid) (rFormat Code.tsetInvalid (p * 16 + t))))
    ++ (List.range 16).map (fun t =>
      when? (match ps with
        | [] => false
        | p :: l => l.any (fun q => ((s.pin q).tset t).d != ((s.pin p).tset t).d)) (rFormat Code.periodMismatch t))

/-- The checks of R100, kind by kind; slots of a fenced stack after the regions. -/
def segmentChecks (s : State) (width : Nat) (loops : List Loop) (l : List Pos) : List (Option Reason) :=
  let each (f : Nat → Option Reason) : List (Option Reason) := (List.range l.length).map f
  each (fun p => when? (!inPattern s (posAt l p).slot) (rAt 3 Code.region p p 0))
    ++ each (fun p => slotFenceCheck s (posAt l p).slot)
    ++ each (fun p => when? (segState s (posAt l p).slot == 3) (rAt 2 Code.segActive p p (posAt l p).slot))
    ++ [when? (segState s (posAt l 0).slot != 2) (rAt 2 Code.segNotReady 0 0 0)]
    ++ each (fun p => when? (pinnedPos loops l p && segState s (posAt l p).slot != 2) (rAt 2 Code.loopNotResident p p 0))
    ++ each (fun p => when? (decide ((posAt l p).rows < 512)) (rAt 3 Code.segShort p p 0))
    ++ each (fun p => when? (segState s (posAt l p).slot == 2 &&
        decide ((s.slot (posAt l p).slot).len < (posAt l p).rows * (8 * width))) (rAt 3 Code.segUnsealed p p 0))

/-! ## Reservations and lanes (R131, R136) -/

/-- Distinct column groups that the site's pins in a bay read. -/
def groupsIn (site : Site) (k : Nat) : List Nat :=
  ((site.pins.filter (fun p => p.pin / 16 == k)).flatMap (fun p =>
    [p.col / 16] ++ (if p.paired then [p.pair / 16] else []))).eraseDups

/-- Lanes that a Sheaf takes in a bay. -/
def lanesIn (s : State) (ms : List Nat) (k : Nat) : Nat :=
  ((ms.flatMap (fun x => ((s.site? x).map (fun t => groupsIn t k)).getD [])).eraseDups).length

/-- Lanes in use in a bay. -/
def lanesUsed (s : State) (k : Nat) : Nat :=
  (s.runs.map (fun e => if e.2.phase == 1 || e.2.phase == 2 then Tab.get 0 e.2.lanes k else 0)).foldl (· + ·) 0

/-- A list in descending order. -/
def sortDesc (l : List Nat) : List Nat := (sortAsc l).reverse

/-- Sum of the m largest private demands of a bay, in groups. -/
def privGroups (s : State) (ms : List Nat) (div k : Nat) : Nat :=
  ((sortDesc ((ms.map (fun x => ((s.site? x).map (fun t => (groupsIn t k).length)).getD 0)).filter (· != 0))).take div).foldl
    (· + ·) 0

/-- Smallest D of any set that a position names. -/
def dMin (s : State) (ms : List Nat) (l : List Pos) : Nat :=
  let p := (memberPins s ms).headD 0
  (l.map (fun x => ((s.pin p).tset x.tset).d)).foldl min 65536

/-- Class 1 units: one column group of one vector stream is 25.6 GB/s divided by D, 256 units / D. -/
def class1Units (s : State) (ms : List Nat) (width div : Nat) (l : List Pos) : Nat :=
  cdiv ((width + ((List.range 16).map (privGroups s ms div)).foldl (· + ·) 0) * 256) (max (dMin s ms l) 1)

/-- The stacks that hold positions. -/
def posStacks (s : State) (l : List Pos) : BitVec 2 := BitVec.ofNat 2 (bitsToNat (l.map (fun p => stackOf s p.slot)))

/-- Class 2 units: the sum of LOGRATE over the members (R219). -/
def class2Units (s : State) (ms : List Nat) : Nat := (ms.map (fun x => (s.slice (homeOf s x)).win.logRate)).foldl (· + ·) 0

/-! ## Start times (R142) -/

/-- The time checks of R142 against `lead` fine steps, in its order. A time of 0 passes all. -/
def timeChecks (s : State) (t lead : Nat) : List (Option Reason) :=
  if t = 0 then []
  else
    [when? (t % 256 != 0) (rFormat Code.startFine), when? (s.tim.tq == 0) (rState Code.timeUnset),
     when? (decide (s.now.toNat + 2 ^ 48 < t)) (rFormat Code.startFar),
     when? (decide (t < s.now.toNat + lead)) (rState Code.startLate)]

/-- 20 µs (R142). -/
def leadSteps : Nat := 20 * usSteps

/-- Member bays that sleep. -/
def sleepingBays (s : State) (ms : List Nat) : List Nat :=
  (List.range 16).filter (fun k => !bayAwake s k && ms.any (fun x => (((s.site? x).map Site.bayNos).getD []).contains k))

/-! ## The whole check (R137) -/

/-- Width, loops and positions of a listing. -/
structure Parsed where
  width : Nat
  symcols : Nat
  loops : List Loop
  poss : List Pos

def parseListing (s : State) (slot : Nat) : Parsed :=
  { width := lrd s slot 2 1, symcols := lrd s slot 8 8
    loops := (List.range (lrd s slot 0x16 1)).map (readLoop s slot)
    poss := (List.range (lrd s slot 4 4)).map (readPos s slot) }

/-- The buffer of a start. -/
def StartReq.buf (q : StartReq) : BufArg := { first := q.first, count := q.count, wrap := false }

/-- Step 1 of R137. The parts that read the listing are looked at only once the parts before them have passed. -/
def startStep1 (s : State) (q : StartReq) : Option Reason :=
  match firstFail (listingSlotChecks s q.listing) with
  | some r => some r
  | none =>
    match firstFail (headerChecks s q.listing) with
    | some r => some r
    | none =>
      let l := parseListing s q.listing
      firstFail (loopChecks s q.listing l.poss l.loops ++ descriptorChecks s q.listing l.width l.poss.length
        ++ [vecCheck s q.listing l.width 0 0x20, vecCheck s q.listing l.width 1 0x40, bufRange s q.buf])

/-- Step 2 of R137, with the fences of the members (R361). -/
def startStep2 (s : State) (q : StartReq) : Option Reason :=
  let ms := s.members q.sheaf
  let l := parseListing s q.listing
  firstFail ([when? (ms.isEmpty) (rState Code.sheafUndefined q.sheaf)]
    ++ ms.map (fun x => when? (s.site? x).isNone (rState Code.siteUndefined x))
    ++ ms.map (fun x => match s.site? x with
        | none => none
        | some t => fenceCheck s (t.home :: t.pinNos.map (· / 2)) t.bayNos)
    ++ ms.flatMap (fun x => match s.site? x with
        | none => []
        | some t => pinMapChecks l.width l.symcols x t))

/-- Step 5 of R137. -/
def startStep5 (s : State) (q : StartReq) : Option Reason :=
  let ms := s.members q.sheaf
  let ps := memberPins s ms
  firstFail ([when? (s.run? q.sheaf).isSome (rState Code.sheafRunning)]
    ++ ms.map (fun x => when? (runOfSite s x).isSome (rState Code.siteRunning x))
    ++ ps.map (fun p => when? (s.pin p).pmu.forcing (rState Code.pmuConnected p))
    ++ [when? (s.boot.sl == 1 && ps.any (fun p => (List.range 16).any (fun t => decide (((s.pin p).tset t).d < 8))))
          (rState Code.sl1Rate), bufFence s q.buf, bufFree s q.buf]
    ++ timeChecks s q.time (wakeAllowance s (sleepingBays s ms) + leadSteps))

/-- Step 6 of R137. -/
def startStep6 (s : State) (q : StartReq) : Option Reason :=
  let ms := s.members q.sheaf
  let l := parseListing s q.listing
  let div := lrd s q.listing 0x14 2
  let c1 := class1Units s ms l.width div l.poss
  firstFail ([when? (decide (siteAreaSize q.count ms.length < 8192)) (rResource Code.capSmall)]
    ++ (List.range 16).map (fun k => when? (decide (8 < lanesUsed s k + lanesIn s ms k)) (rAt 4 Code.bufferLanes 0 k 0))
    ++ (List.range 16).map (fun k =>
        when? (decide (128 * dMin s ms l.poss < privGroups s ms div k * 256)) (rAt 4 Code.privBay k k 0))
    ++ [0, 1].map (fun j => rsvCheck s j ((if (posStacks s l.poss).getLsbD j then c1 else 0)
        + (if stackOf s q.first = j then class2Units s ms else 0))))

/-- STR.START's checks in the order of R137. -/
def startCheck (s : State) (q : StartReq) : Option Reason :=
  match startStep1 s q with
  | some r => some r
  | none =>
    match startStep2 s q with
    | some r => some r
    | none =>
      let l := parseListing s q.listing
      match firstFail (tsetChecks s (memberPins s (s.members q.sheaf)) ++ segmentChecks s l.width l.loops l.poss) with
      | some r => some r
      | none =>
        match startStep5 s q with
        | some r => some r
        | none => startStep6 s q

end Sys2Proof.Machine
end

