-- ==== Sys2Proof/Machine/Play.lean ====
section
/-!
DEFINITION. How a vector plays on a pin: nibble codes (R70 to R72), symbol columns (R83 to R86), timing formats and driver
events (R74, R75, R82), and the turnaround check (R60).
-/
namespace Sys2Proof.Machine

/-! ## Resolved actions -/

/-- A resolved vector action (R70, R83). `cmp` carries the expected zones as bits. -/
inductive Act where
  | drive (l : Nat)
  | off
  | term
  | cmp (zones : Nat)
  | cap
  | symDrive (d : Nat)
  | symCmp (d : Nat)
  deriving DecidableEq, Repr

/-- The action of a code other than KEEP and SYM (R70). -/
def codeAct (n : Nat) : Act :=
  match n with
  | 0 => .drive 0
  | 1 => .drive 1
  | 2 => .drive 2
  | 3 => .drive 3
  | 4 => .cmp 1
  | 5 => .cmp 2
  | 6 => .cmp 4
  | 7 => .cmp 8
  | 9 => .term
  | 10 => .cmp 3
  | 11 => .cmp 12
  | 12 => .cmp 6
  | 15 => .cap
  | _ => .off

/-- The action of a symbol nibble other than keep (R83). -/
def symCode (n : Nat) : Act :=
  match n / 4 with
  | 0 => .symDrive (n % 4)
  | 1 => .symCmp (n % 4)
  | _ => .off

/-- A symbol nibble; keep repeats the pin's previous symbol action with its data (R83). -/
def symAct (n : Nat) (x : Pin) : Act × Pin :=
  if n / 4 = 3 then
    match x.prevSym with
    | none => (.off, x)
    | some m => (symCode m.toNat, x)
  else (symCode n, { x with prevSym := some (BitVec.ofNat 4 n) })

/-- KEEP (R71): the previous resolved action, through SYM when it came so; IDLE_ACT in the first vector. -/
def keepAct (pair : Option Nat) (x : Pin) : Act × Pin :=
  match x.viaSym, pair with
  | true, some m => symAct m x
  | _, _ =>
    let p := x.prevAct.getD (BitVec.ofNat 4 (fld x.ctrl 0 4))
    (codeAct p.toNat, { x with prevAct := some p, viaSym := false })

/-- A site pin's action for its nibble (R71, R72, R129). `symcol` says that COL is a symbol column, `pair` is the nibble of
its paired symbol column. The flag reports an unpaired SYM. -/
def resolveAct (symcol : Bool) (n : Nat) (pair : Option Nat) (x : Pin) : Act × Pin × Bool :=
  if symcol then let (a, y) := symAct n x; (a, y, false)
  else if n = 13 then let (a, y) := keepAct pair x; (a, y, false)
  else if n = 14 then
    match pair with
    | some m => let (a, y) := symAct m x; (a, { y with viaSym := true }, false)
    | none => let (a, y) := keepAct none x; (a, y, true)
  else (codeAct n, { x with prevAct := some (BitVec.ofNat 4 n), viaSym := false }, false)

/-! ## Symbols (R84 to R86) -/

/-- The Gray map. -/
def gray (d : Nat) : Nat :=
  match d with
  | 0 => 0
  | 1 => 1
  | 3 => 2
  | _ => 3

/-- Its inverse. -/
def grayInv (g : Nat) : Nat :=
  match g with
  | 0 => 0
  | 1 => 1
  | 2 => 3
  | _ => 2

/-- The level index of a drive symbol (R85). -/
def txLevel (x : Pin) (d : Nat) : Nat := if bit x.symcfg 0 then (gray d + 4 - x.txState.toNat) % 4 else gray d

/-! ## Driver events (R74, R82) -/

/-- Driver stages as event codes: 0 to 3 DRIVE, 4 OPEN, 5 TERM. -/
def stageOf (c : Nat) : Stage := if c ≤ 3 then .drive (BitVec.ofNat 2 c) else if c = 5 then .term else .openZ

/-- The code of a stage. -/
def stageCode (t : Stage) : Nat :=
  match t with
  | .drive l => l.toNat
  | .term => 5
  | _ => 4

/-- CMP_TERM: what a compare action leaves the pin in. -/
def cmpStage (x : Pin) : Nat := if bit x.ctrl 20 then 5 else 4

/-- The driver events of an action that starts at `t` under a timing set (R74). -/
def actEvents (x : Pin) (ts : TSet) (t : Nat) (a : Act) : List (Nat × Nat) :=
  let d := t + ts.drv.toNat
  match a with
  | .drive l => (d, l) :: (if ts.fmt = 1 then [(t + ts.ret.toNat, 0)] else if ts.fmt = 2 then [(t + ts.ret.toNat, 3)] else [])
  | .off => [(d, 4)]
  | .term => [(d, 5)]
  | .cmp _ => [(d, cmpStage x)]
  | .cap => [(d, cmpStage x)]
  | .symDrive k => [(d, txLevel x k)]
  | .symCmp _ => [(d, cmpStage x)]

/-- The output stage that the events up to now and those that wait leave. -/
def Pin.lastStage (x : Pin) : Nat := ((x.pendEvents.getLast?).map (·.2)).getD (stageCode x.stage)

/-- Adds a vector's driver events: events of earlier vectors later than 256 fine steps before its drive edge are discarded,
and the flag says whether one was (R82). -/
def addEvents (ev : List (Nat × Nat)) (x : Pin) : Pin × Bool :=
  match ev with
  | [] => (x, false)
  | (d, _) :: _ =>
    let keep := x.pendEvents.filter (fun e => decide (e.1 + 256 ≤ d))
    ({ x with pendEvents := keep ++ ev }, decide (keep.length < x.pendEvents.length))

/-- Carries out the driver events up to moment `t`. -/
def flushEvents (t : Nat) (x : Pin) : Pin :=
  if x.stage = .safe then { x with pendEvents := [] }
  else
    let due := x.pendEvents.filter (fun e => decide (e.1 ≤ t))
    match due.getLast? with
    | none => x
    | some e => { x with stage := stageOf e.2, pendEvents := x.pendEvents.filter (fun e => decide (t < e.1)) }

/-! ## The turnaround check (R60) -/

/-- Least gap from a release edge to the first strobe. -/
def turnGap (x : Pin) : Nat := 656 + 2 * fld x.path 0 12

/-- A violation: TA_VIOL, PIN_TAVCNT. -/
def tavCount (x : Pin) : Pin := { x with stat := setBit x.stat 6 true, tavcnt := satInc x.tavcnt }

/-- A strobe at moment `t` meets the pending release edge, if it is the first after it. -/
def turnStrobe (t : Nat) (x : Pin) : Pin × Bool :=
  match x.released with
  | none => (x, false)
  | some r =>
    if t < r then (x, false)
    else
      let y := { x with released := none }
      if t < r + turnGap x then (tavCount y, true) else (y, false)

/-- A release edge at moment `d`; a strobe of an earlier vector that falls after it is the first strobe. -/
def turnRelease (d : Nat) (x : Pin) : Pin × Bool :=
  let y := { x with released := some d }
  match x.lastStrobe with
  | none => (y, false)
  | some t => turnStrobe t y

/-! ## One vector on one pin -/

/-- What one vector gives on a pin: the pin, the strobe input (value, fail, CAP), and qualifiers: turnaround, edge drop,
unpaired SYM. -/
structure PinPlay where
  pin : Pin
  strobe : Option (Nat × Bool × Bool) := none
  turn : Bool := false
  drop : Bool := false
  unpaired : Bool := false

/-- The driver part of a vector: events, release edge. A pin held in SAFE ignores drive actions (R62). -/
def playDrive (ts : TSet) (t : Nat) (a : Act) (x : Pin) : Pin × Bool × Bool :=
  if x.stage = .safe then (x, false, false)
  else
    let ev := actEvents x ts t a
    let (y, drop) := addEvents ev x
    let old := ({ y with pendEvents := y.pendEvents.take (y.pendEvents.length - ev.length) }).lastStage
    let new := ((ev.head?).map (·.2)).getD 4
    let (y, turn) := if old ≠ 4 ∧ new = 4 then turnRelease (t + ts.drv.toNat) y else (y, false)
    let y := match a with
      | .symDrive d => { y with txState := BitVec.ofNat 2 (txLevel x d) }
      | _ => y
    (y, turn, drop)

/-- The compare part (R75, R86): value, fail, CAP, and the compare state after it. -/
def playStrobe (window : Bool) (o : StrobeObs) (a : Act) (x : Pin) : Option (Nat × Bool × Bool) × Pin :=
  let z := o.zone.toNat
  match a with
  | .cmp m => (some (z, if window then o.exc else !m.testBit z, false), x)
  | .cap => (some (z, false, true), x)
  | .symCmp d =>
    let r := if bit x.symcfg 1 then (z + x.rxState.toNat) % 4 else z
    (some (grayInv r, r != gray d || (window && o.exc), false), { x with rxState := o.zone })
  | _ => (none, x)

/-- One vector of a site on one of its pins (R71 to R75, R82 to R86). -/
def playPin (symcol : Bool) (n : Nat) (pair : Option Nat) (set t : Nat) (o : StrobeObs) (x : Pin) : PinPlay :=
  let ts := x.tset set
  let (a, x, unpaired) := resolveAct symcol n pair x
  let (x, turn1, drop) := playDrive ts t a x
  let (st, x) := playStrobe (ts.wcl != ts.stb) o a x
  let ts0 := t + ts.stb.toNat
  let (x, turn2) := if st.isSome then turnStrobe ts0 x else (x, false)
  let x := if st.isSome then { x with lastStrobe := some ts0 } else x
  { pin := flushEvents t x, strobe := st, turn := turn1 || turn2, drop := drop, unpaired := unpaired }

/-- A nibble of the underrun or safe vector (R119): no strobe, no return edge. -/
def playFixed (n set t : Nat) (x : Pin) : Pin × Bool :=
  if n = 13 ∨ x.stage = .safe then (flushEvents t x, false)
  else
    let c := if n ≤ 3 then n else if n = 9 then 5 else 4
    let (y, drop) := addEvents [(t + (x.tset set).drv.toNat, c)] x
    (flushEvents t y, drop)

/-- The play state of a pin at the start of a run (R71, R83, R85, R86). -/
def Pin.beginRun (x : Pin) : Pin :=
  { x with prevAct := none, prevSym := none, viaSym := false, txState := 0, rxState := 0, released := none
           lastStrobe := none, pendEvents := [] }

end Sys2Proof.Machine
end

