-- ==== Sys2Proof/Machine/StrOps.lean ====
section
/-!
DEFINITION. Shared operations of runs (R132 to R146): segment states (R96), commit points (R102), moves of a site along the
path (R122 to R126, R138), ends of sites and runs, refill deadlines (R103).
-/
namespace Sys2Proof.Machine

/-! ## Runs and sites -/

def Run.site (r : Run) (x : Nat) : SiteRun := Tab.get {} r.sites x
def Run.updSite (r : Run) (x : Nat) (f : SiteRun → SiteRun) : Run := { r with sites := Tab.upd {} r.sites x f }
def updSiteRun (h x : Nat) (f : SiteRun → SiteRun) (s : State) : State := s.updRun h (fun r => r.updSite x f)

/-- The run is admitted: its phase is 1 or 2 (R143). -/
def Run.admitted (r : Run) : Bool := r.phase == 1 || r.phase == 2
/-- Live member sites. -/
def Run.live (r : Run) : List Nat := r.members.filter (fun x => (r.site x).live)
/-- The lead site: the site at F, the lowest number among several (R132). -/
def Run.lead (r : Run) : Nat :=
  let l := r.members.filter (fun x => (r.site x).live)
  match l.find? (fun x => (r.site x).idx == r.front) with
  | some x => x
  | none => (r.members.find? (fun x => (r.site x).idx == r.front)).getD (r.members.headD 0)

def Run.rows (r : Run) (p : Nat) : Nat := (posAt r.poss p).rows
def Run.loop (r : Run) (e : Nat) : Loop := r.loops.getD e {}

/-- Vector period in fine steps at a position (R73, R81). -/
def Run.period (r : Run) (s : State) (p : Nat) : Nat :=
  ((s.pin ((memberPins s r.members).headD 0)).tset (posAt r.poss p).tset).d * 256

/-- A STREAM trace record (R508). -/
def traceStream (sub h x pos idx : Nat) (s : State) : State :=
  trace 3 sub h (leBytes 1 h ++ leBytes 1 x ++ leBytes 2 0 ++ leBytes 4 pos ++ leBytes 8 idx) s

/-- A qualifier arises during a run: its bit, and the first code (R145, R146). -/
def runQual (h b code : Nat) (s : State) : State :=
  s.updRun h (fun r => { r with quals := setBit r.quals b true, firstQual := r.firstQual.or (some (BitVec.ofNat 12 code)) })

/-! ## Segment states (R96) -/

/-- The slot is in use by a running stream: its listing, a pinned position, a committed segment, or a live site's. -/
def Run.uses (r : Run) (slot : Nat) : Bool :=
  r.admitted && (r.listing == slot || r.held.contains slot ||
    (List.range r.poss.length).any (fun p => (posAt r.poss p).slot == slot && pinnedPos r.loops r.poss p) ||
    r.live.any (fun x => (posAt r.poss (r.site x).hpos).slot == slot))

/-- Positions after `p` up to and including the first with LAST, or NPOS − 1; none when `p` has LAST. -/
def Run.after (r : Run) (p : Nat) : List Nat :=
  if (posAt r.poss p).last then []
  else
    let l := (List.range r.poss.length).filter (fun q => decide (p < q))
    match l.find? (fun q => (posAt r.poss q).last) with
    | none => l
    | some m => l.filter (fun q => decide (q ≤ m))

/-- Positions that a live member site can still reach. -/
def Run.reach (r : Run) : List Nat :=
  let targets := (List.range r.poss.length).filter (fun q => (posAt r.poss q).jtgt)
  if r.live.isEmpty then []
  else r.live.flatMap (fun x => r.after (r.site x).hpos) ++ targets.flatMap (fun j => j :: r.after j)

/-- A running stream lists the slot at a later position. -/
def Run.lists (r : Run) (slot : Nat) : Bool := r.admitted && r.reach.any (fun q => (posAt r.poss q).slot == slot)

/-- ACTIVE segments of a run that no reader holds any more become DRAINING or READY. -/
def settleSlots (l : List Nat) (s : State) : State :=
  forAll l (fun n s =>
    if (s.slot n).st = 3 ∧ s.runs.all (fun e => !e.2.uses n) then
      s.updSlot n (fun y => { y with st := if s.runs.any (fun e => e.2.lists n) then 4 else 2 })
    else s) s

/-- The slots that a run names. -/
def Run.slots (r : Run) : List Nat := (r.listing :: r.poss.map (·.slot)).eraseDups

/-- At the end of a run DRAINING segments that no running stream lists become READY. -/
def settleEnd (l : List Nat) (s : State) : State :=
  forAll l (fun n s =>
    if (s.slot n).st = 4 ∧ s.runs.all (fun e => !e.2.lists n) then s.updSlot n (fun y => { y with st := 2 }) else s)
    (settleSlots l s)

/-! ## Pins of a site -/

/-- Changes the pins of a site, entry by entry. -/
def forSitePins (x : Nat) (f : Nat → SitePin → State → State) (s : State) : State :=
  match s.site? x with
  | none => s
  | some t => (List.range t.pins.length).foldl (fun s j => f j (t.pins.getD j {}) s) s

/-- Drives the underrun or the safe vector of a run on a site from a vector boundary (R119). -/
def driveFixed (h x : Nat) (vec : Option (List (BitVec 4))) (set t : Nat) (s : State) : State :=
  forSitePins x (fun _ p s =>
    let n := match vec with
      | none => 13
      | some l => (l.getD p.col 13).toNat
    let (y, drop) := playFixed n set t (s.pin p.pin)
    let s := s.updPin p.pin (fun _ => y)
    if drop then runQual h 4 Code.edgeDrop s else s) s

/-! ## Ends (R134, R144, R145) -/

/-- Completes the STR.STOP commands that waited for these sites' ends. -/
def endStops (h : Nat) (s : State) : State :=
  match s.run? h with
  | none => s
  | some r =>
    let done := r.stopKeys.filter (fun k => match k.1 with
      | none => r.live.isEmpty
      | some x => !(r.site x).live)
    let s := s.updRun h (fun r => { r with stopKeys := r.stopKeys.filter (fun k => !done.contains k) })
    done.foldl (fun s k => completeOk k.2 0 s) s

/-- The last member site has ended (R145): pins take IDLE_ACT, lanes and reservations are released, segments change state,
requests that wait end. -/
def endRun (h : Nat) (s : State) : State :=
  match s.run? h with
  | none => s
  | some r =>
    let s := s.updRun h (fun r => { r with phase := 3, endStamp := s.stamp, jump := none, taken := [], scheds := [], com := none
                                           sel := none, held := [] })
    let s := forAll (memberPins s r.members) (fun p s =>
      refreshPin p (s.updPin p (fun x => { x with pendEvents := [], released := none, lastStrobe := none }))) s
    let s := forAll [0, 1] (fun j s => if bit r.stks j then release1 j r.class1 s else s) s
    let s := release2 (stackOf s r.first) r.class2 s
    let s := settleEnd r.slots s
    let ks := (r.jump.bind (·.key)).toList ++ r.taken.filterMap (·.key)
    let s := ks.foldl (fun s k => completeBad k 6 Code.runEnded 0 s) s
    traceStream 6 h r.lead (r.site r.lead).hpos r.front s

/-- RUN of a home engine falls (R154): the enabled event RUN_END latches (R182). -/
def latchRunEnd (e : Nat) (s : State) : State :=
  if bit (s.eng e).even 4 then s.updEng e (fun x => { x with latched := setBit x.latched 4 true }) else s

/-- A site ends (R134, R144, R146) at the present moment: status 0 COMPLETE, 1 MATCH_TIMEOUT, 2 UNDERRUN, 3 STOPPED, 4 FAULT. -/
def endSite (h x : Nat) (status cause loopNo : Nat) (s : State) : State :=
  match s.run? h with
  | none => s
  | some r =>
    if (r.site x).live then
      let q := r.site x
      let s := s.updRun h (fun r => r.updSite x (fun q =>
        { q with live := false, ending := none, status := BitVec.ofNat 8 status, cause := BitVec.ofNat 8 cause
                 loopNo := BitVec.ofNat 8 loopNo, priv := false, endStamp := s.stamp }))
      let s := updWin (homeOf s x) Winnow.commitAll s
      let s :=
        if r.phase = 2 ∧ status ≠ 0 then
          driveFixed h x (if status = 2 then r.und else r.safe) (posAt r.poss q.hpos).tset s.mono s
        else s
      let s := if status = 1 then runQual h 0 Code.matchTimeout s else s
      let s := if r.phase = 2 then latchRunEnd (homeOf s x) s else s
      let s := traceStream 4 h x q.hpos q.idx s
      let s := settleSlots r.slots s
      let s := match s.run? h with
        | none => s
        | some r => if r.live.isEmpty then endRun h s else s
      endStops h s
    else s

/-- A site ends at its next vector boundary. -/
def endSiteSoon (h x : Nat) (status cause loopNo : Nat) (s : State) : State :=
  updSiteRun h x (fun q =>
    if q.live then { q with ending := q.ending.or (some (BitVec.ofNat 8 status, BitVec.ofNat 8 cause, BitVec.ofNat 8 loopNo)) }
    else q) s

/-- Every live site of a run ends now. -/
def endAllSites (h status : Nat) (s : State) : State :=
  match s.run? h with
  | none => s
  | some r => forAll r.live (fun x s => endSite h x status 0 0xFF s) s

/-- A fault or fence ends sites (R33, R145): the run completes FAILED_FAULT. -/
def faultSite (h x code detail : Nat) (s : State) : State :=
  endSite h x 4 0 0xFF (s.updRun h (fun r =>
    { r with fault := r.fault.or (some (BitVec.ofNat 12 code, BitVec.ofNat 16 detail)) }))

/-! ## Commit points (R102, R139 to R141) -/

/-- A row lies inside some body. -/
def Run.inBody (r : Run) (pos row : Nat) : Bool := r.loops.any (fun e => e.has r.poss (linOf r.poss pos row))

/-- The nominal next position after the visit that the open loops describe, innermost first: the start of a body that ends
with the position before its last nominal iteration, else the position after; none at the end of the path. -/
def Run.nominalNext (r : Run) (pos : Nat) : List LoopSt → Option Nat
  | [] => if (posAt r.poss pos).last || pos + 1 == r.poss.length then none else some (pos + 1)
  | q :: l =>
    let e := r.loop q.entry
    if e.ep = pos ∧ e.er + 1 = r.rows pos ∧ e.kind ≠ 2 ∧ q.iter < e.least then some e.sp else r.nominalNext pos l

/-- The commit point that a row newly reached by the front is (R102, R140), for a site with open loops `l`. -/
def Run.commitAt (r : Run) (cycle pos row idx : Nat) (l : List LoopSt) : Option ComPt :=
  let governed := match r.sel with
    | none => false
    | some q => q.sched
  if governed then none
  else
    match r.scheds.find? (fun c => c.1 == pos && c.2.1 == row + 256) with
    | some c => some { pos := pos, idx := idx, cycle := cycle, row := c.2.1, sched := some c.2.2, nominal := none }
    | none =>
      if row + 257 = r.rows pos then
        some { pos := pos, idx := idx, cycle := cycle, row := r.rows pos - 1, nominal := r.nominalNext pos l
               inBody := r.inBody pos (r.rows pos - 1) }
      else none

/-- The segment of a position is READY or ACTIVE up to its last row (R100, R102). -/
def segmentReady (s : State) (r : Run) (p : Nat) : Bool :=
  let d := posAt r.poss p
  (segState s d.slot == 2 || segState s d.slot == 3) && decide (d.rows * (8 * r.width) ≤ (s.slot d.slot).len)

/-- Each member site stops after the position it holds (R105). -/
def Run.stopAll (r : Run) : Run :=
  { r with sites := Tab.mapVals r.sites (fun _ q => if q.live then { q with stopPos := q.stopPos.or (some q.hpos) } else q) }

/-- The stream underruns (R105). -/
def underrun (h : Nat) (c : ComPt) (s : State) : State :=
  traceStream 5 h (((s.run? h).map (·.lead)).getD 0) c.pos c.idx
    (raise srcUnderrun 0 0 (s.updRun h (fun r => { r.stopAll with under := true, sel := none })))

/-- Takes the commit point that waits (R102, R138 to R141). -/
def takeCommit (h : Nat) (s : State) : State :=
  match s.run? h with
  | none => s
  | some r =>
    match r.com with
    | none => s
    | some c =>
      let s := s.updRun h (fun r => { r with com := none })
      if r.under ∨ r.memUe.isSome then s
      else
        match r.sel.bind (·.jump) with
        | some _ => s
        | none =>
          let req := r.jump.filter (fun j => decide (j.cycle < c.cycle) && !c.inBody && c.sched.isNone)
          let target := c.sched.or (req.map (·.target))
          let next := target.or c.nominal
          match next with
          | none =>
            s.updRun h (fun r => { r with sel := some { pos := c.pos, idx := c.idx, row := c.row }
                                          jump := r.jump.map (fun j => { j with onTime := false }) })
          | some p =>
            if segmentReady s r p then
              let slot := (posAt r.poss p).slot
              let s := s.updSlot slot (fun y => { y with st := 3 })
              traceStream 2 h r.lead p c.idx (s.updRun h (fun r =>
                { r with
                  sel := some { pos := c.pos, idx := c.idx, row := c.row, jump := target, sched := c.sched.isSome, next := some p }
                  held := (slot :: r.held).eraseDups
                  scheds := if c.sched.isSome then r.scheds.erase (c.pos, c.row, p) else r.scheds
                  taken := r.taken ++ (req.map (fun j => { key := j.key, late := !j.onTime : Taken })).toList
                  jump := if req.isSome then none else r.jump.map (fun j => { j with onTime := false }) }))
            else underrun h c s

/-- Takes the commit points of every run that wait; done before a command that acts on segments or asks for a jump (R99,
R139). -/
def takeCommits (s : State) : State := forAll (Tab.keys s.runs) takeCommit s

/-! ## Moves along the path (R122 to R126) -/

/-- Where a site goes after a row: on to a row with its run index and open loops, or to its end. `sel` says that it
takes the committed jump. The Winnow steps of the move are listed: 0 repeat, 1 leave, 2 enter a staged iteration. -/
inductive Move where
  | go (pos row nidx : Nat) (loops : List LoopSt) (jumped : Bool) (steps : List Nat)
  | finish (status cause loopNo : Nat) (loops : List LoopSt) (steps : List Nat)

/-- Loops whose bodies start at a row, outermost first, other than the open ones. -/
def Run.opening (r : Run) (pos row : Nat) (l : List LoopSt) : List Nat :=
  let cand := (List.range r.loops.length).filter (fun e =>
    (r.loop e).sp == pos && (r.loop e).sr == row && !l.any (fun q => q.entry == e))
  let outer (a b : Nat) : Bool :=
    let ea := (r.loop a).to r.poss
    let eb := (r.loop b).to r.poss
    decide (eb < ea) || (ea == eb && decide (b < a))
  cand.foldl (fun acc e => (acc.takeWhile (fun f => outer f e)) ++ [e] ++ (acc.dropWhile (fun f => outer f e))) []

/-- A loop's iterations are staged in the Winnow unit (R215). -/
def Run.staged (r : Run) (matchAll : Bool) (e : Nat) : Bool := (r.loop e).kind == 1 && !matchAll

/-- Enters the bodies that start at a row; the open loops stand innermost first. -/
def Run.enter (r : Run) (matchAll : Bool) (pos row nidx : Nat) (l : List LoopSt) (jumped : Bool) (steps : List Nat) : Move :=
  let es := r.opening pos row l
  .go pos row nidx (es.foldl (fun l e => { entry := e, passIdx := nidx } :: l) l) jumped
    (steps ++ (es.filter (r.staged matchAll)).map (fun _ => 2))

/-- The loop condition of an iteration (R126). -/
def loopHolds (cond : Nat) (q : LoopSt) : Bool :=
  match cond with
  | 0 => !q.fail
  | 1 => q.fail
  | _ => q.eng

/-- After the last row of every body that ends here has been decided, the site goes on in listing order. -/
def Run.onward (r : Run) (matchAll : Bool) (pos row nidx : Nat) (l : List LoopSt) (steps : List Nat) : Move :=
  if row + 1 = r.rows pos then
    if (posAt r.poss pos).last || pos + 1 == r.poss.length then .finish 0 0 0xFF l steps
    else r.enter matchAll (pos + 1) 0 nidx l false steps
  else r.enter matchAll pos (row + 1) nidx l false steps

/-- The decision at the end of an iteration (R125): some true repeat, some false leave, none match timeout. -/
def loopDecision (e : Loop) (q : LoopSt) : Option Bool :=
  match e.kind with
  | 0 => some (decide (q.iter < e.least))
  | 1 =>
    if q.iter < e.least then some true
    else if loopHolds e.cond q then some false
    else if q.iter < e.most then some true
    else none
  | _ => some (loopHolds e.cond q && decide (q.iter ≤ e.most))

/-- A repeat is one of the nominal iterations (R132). -/
def nominalRepeat (e : Loop) (q : LoopSt) : Bool := e.kind != 2 && decide (q.iter < e.least)

/-- The loops that end at a row decide, innermost first (R124, R125). `idx` is the row's run index. -/
def Run.decideLoops (r : Run) (matchAll : Bool) (pos row idx : Nat) : List LoopSt → List Nat → Move
  | [], steps => r.onward matchAll pos row (idx + 1) [] steps
  | q :: l, steps =>
    let e := r.loop q.entry
    let st := r.staged matchAll q.entry
    if e.ep = pos ∧ e.er = row then
      match loopDecision e q with
      | none => .finish 1 1 q.entry (q :: l) (steps ++ if st then [1] else [])
      | some true =>
        let n := if nominalRepeat e q then idx + 1 else q.passIdx
        r.enter matchAll e.sp e.sr n ({ entry := q.entry, iter := q.iter + 1, passIdx := n } :: l) false
          (steps ++ if st then [0, 2] else [])
      | some false => r.decideLoops matchAll pos row idx l (steps ++ if st then [1] else [])
    else r.onward matchAll pos row (idx + 1) (q :: l) steps

/-- The jump that a site takes after a row, if any (R138): one that a site before it took at the same run index, or the
committed jump of the visit. -/
def Run.jumpAfter (r : Run) (q : SiteRun) : Option Nat :=
  match r.jumps.find? (fun j => j.1 == q.idx) with
  | some j => some j.2
  | none =>
    match r.sel with
    | none => none
    | some v => if v.pos = q.pos ∧ v.row = q.row ∧ v.idx < q.idx then v.jump else none

/-- Where a site that has played its row goes (R105, R122). -/
def Run.moveAfter (r : Run) (matchAll : Bool) (q : SiteRun) : Move :=
  let m := match r.jumpAfter q with
    | some t => r.enter matchAll t 0 (q.idx + 1) [] true []
    | none => r.decideLoops matchAll q.pos q.row q.idx q.loops []
  match q.stopPos with
  | none => m
  | some p =>
    let under := Move.finish 2 0 0xFF q.loops []
    if q.row + 1 = r.rows q.pos ∧ p = q.pos then under
    else
      match m with
      | .go p' _ _ _ jumped _ => if p' = p ∧ jumped = false then m else under
      | .finish _ _ _ _ _ => m

/-- The Winnow steps of a move (R215). -/
def winSteps (l : List Nat) (w : Winnow) : Winnow :=
  l.foldl (fun w k => match k with
    | 0 => w.dropStage
    | 1 => w.commitStage
    | _ => w.openStage) w

/-- A row's fail joins the iterations in progress; the last 32 rows of an iteration stay apart (R126). -/
def LoopSt.addRow (fail eng : Bool) (r : Run) (pos row : Nat) (q : LoopSt) : LoopSt :=
  let l := fail :: q.recent
  let e := r.loop q.entry
  { q with
    recent := l.take 32
    fail := q.fail || (l.drop 32).any id
    eng := if linOf r.poss pos row + 32 = e.to r.poss then eng else q.eng }

/-! ## Refill deadlines (R103) -/

/-- Vectors of the rows from `a` to `b − 1` in listing order, each as often as the loops not in `l` play it, in fine steps. -/
def Run.spanSteps (r : Run) (s : State) (weight : Nat → Nat) (a b : Nat) : Nat :=
  let cuts := sortAsc ((r.loops.flatMap (fun e => [e.from r.poss, e.to r.poss + 1])
    ++ (List.range r.poss.length).map (fun p => linOf r.poss p 0) ++ [a, b]).filter (fun c => decide (a ≤ c) && decide (c ≤ b))).eraseDups
  let posOf (i : Nat) : Nat := ((List.range r.poss.length).filter (fun p => decide (linOf r.poss p 0 ≤ i))).getLast?.getD 0
  ((cuts.zip (cuts.drop 1)).map (fun c => (c.2 - c.1) * weight c.1 * r.period s (posOf c.1))).foldl (· + ·) 0

/-- Nominal iterations of a loop. -/
def Loop.nominal (e : Loop) : Nat := if e.kind = 2 then 1 else max e.least 1

/-- How often the loops that hold row `i` and are not open play it in one pass of what holds them. -/
def Run.closedWeight (r : Run) (opened : List LoopSt) (i : Nat) : Nat :=
  ((List.range r.loops.length).filter (fun e => (r.loop e).has r.poss i && !opened.any (fun q => q.entry == e))).foldl
    (fun a e => a * (r.loop e).nominal) 1

/-- How often the remaining iterations of the open loops that hold row `i`, innermost first, play it after this pass. -/
def Run.againWeight (r : Run) (i : Nat) : List LoopSt → Nat → Nat
  | [], _ => 0
  | q :: l, m =>
    let e := r.loop q.entry
    if e.has r.poss i then (e.nominal - q.iter) * m + r.againWeight i l (m * e.nominal) else r.againWeight i l m

/-- Fine steps from a row (with its open loops, innermost first) to row `t` of the listing order ahead, each loop at its
remaining or least iterations. -/
def Run.stepsAhead (r : Run) (s : State) (pos row : Nat) (opened : List LoopSt) (t : Nat) : Nat :=
  let c := linOf r.poss pos row
  let lo := (opened.map (fun q => (r.loop q.entry).from r.poss)).foldl min c
  r.spanSteps s (fun i => r.closedWeight opened i * ((if c ≤ i then 1 else 0) + r.againWeight i opened 1)) lo t

/-- Fine steps of the vectors from the commit row of a position to its end, on its last nominal appearance. -/
def Run.tailSteps (r : Run) (s : State) (p : Nat) : Nat :=
  let e := linOf r.poss p 0 + r.rows p
  let c := e - 257
  r.spanSteps s (fun i => ((List.range r.loops.length).filter (fun k => (r.loop k).has r.poss i && !(r.loop k).has r.poss c)).foldl
    (fun a k => a * (r.loop k).nominal) 1) c e

/-- The present refill deadline of a position, as a moment of the clock that is never set; none when the position is pinned,
already selected, or not ahead on the sequential path (R103). -/
def deadlineOf (s : State) (r : Run) (p : Nat) : Option Nat :=
  let q := r.site r.lead
  if !r.admitted || pinnedPos r.loops r.poss p || p == 0 || r.under then none
  else
    let start := linOf r.poss p 0
    match r.sel.bind (fun v => v.jump.map (fun j => (v, j))) with
    | some (v, j) =>
      if (r.after j).contains p then
        some (q.vstart + r.stepsAhead s q.pos q.row q.loops (linOf r.poss v.pos v.row + 1) + r.stepsAhead s j 0 [] start
          - r.tailSteps s (p - 1))
      else none
    | none =>
      if (r.after q.pos).contains p ∧ (r.sel.bind (·.next)) ≠ some p then
        some (q.vstart + r.stepsAhead s q.pos q.row q.loops start - r.tailSteps s (p - 1))
      else none

end Sys2Proof.Machine
end

