-- ==== Sys2Proof/Machine/QueOps.lean ====
section
/-!
DEFINITION. Shared operations of queues, completion queues, the journal and the queue region (R330 to R355).
-/
namespace Sys2Proof.Machine

/-! ## Commands in flight (R331, R340) -/

/-- Entries accepted and not posted. -/
def JEntry.inFlight (e : JEntry) : Bool := decide (1 ≤ e.state.toNat) && decide (e.state.toNat ≤ 3)
/-- Commands in flight in the device. -/
def inFlight (s : State) : Nat := (s.journal.filter JEntry.inFlight).length
/-- Commands in flight of a queue. -/
def inFlightOf (s : State) (q : Nat) : Nat := (s.journal.filter (fun e => e.inFlight && e.key.qid.toNat == q)).length
/-- CREDITS of the queues that are not DISABLED (R333). -/
def creditSum (s : State) : Nat := (s.queues.map (fun e => if e.2.state = 0 then 0 else e.2.credits.toNat)).foldl (· + ·) 0
/-- Packets of a queue at intake. -/
def atIntake (s : State) (q : Nat) : List Packet := Tab.get [] s.intake q

/-! ## The queue region (R330, R333) -/

/-- Offset of the intake spaces and rings. -/
def spaceBase : Nat := 0x402000
def regionSize (s : State) : Nat := queueSlots s * slotSize
/-- Bytes of an intake space (R333). -/
def intakeSize (credits maxlen : Nat) : Nat := credits * (cdiv (20 + 8 * maxlen) 64 * 64)
def Queue.space (q : Queue) : Nat := intakeSize q.credits.toNat q.maxlen.toNat
def Cq.space (c : Cq) : Nat := c.depth.toNat * 32

/-- Allocated intake spaces and rings: offset and length, by rising offset. -/
def spaces (s : State) : List (Nat × Nat) :=
  let l := (s.queues.filter (fun e => e.2.intakeAt != 0)).map (fun e => (e.2.intakeAt, e.2.space))
    ++ (s.cqs.filter (fun e => e.2.ring != 0)).map (fun e => (e.2.ring, e.2.space))
  l.foldl (fun (a : List (Nat × Nat)) x => (a.takeWhile (fun y => decide (y.1 ≤ x.1))) ++ [x] ++ (a.dropWhile (fun y => decide (y.1 ≤ x.1)))) []

/-- Gaps between the allocated spaces: first byte and the byte after the last. -/
def gaps (s : State) : List (Nat × Nat) :=
  let l := spaces s
  (spaceBase :: l.map (fun a => cdiv (a.1 + a.2) 64 * 64)).zip (l.map (·.1) ++ [regionSize s])

/-- 64-byte places where `n` bytes fit in the gaps. -/
def placesIn (n : Nat) (g : Nat × Nat) : Nat := if g.1 + n ≤ g.2 then (g.2 - g.1 - n) / 64 + 1 else 0

/-- The k-th place. -/
def placeAt (n : Nat) : List (Nat × Nat) → Nat → Option Nat
  | [], _ => none
  | g :: l, k => if k < placesIn n g then some (g.1 + 64 * k) else placeAt n l (k - placesIn n g)

/-- The queue region has room for `n` bytes. -/
def spaceFits (s : State) (n : Nat) : Bool := (gaps s).any (fun g => placesIn n g != 0)

/-- A place of the device's choosing for `n` bytes (R330): a free value among those that fit. -/
def choosePlace (n : Nat) (s : State) : Nat × State :=
  let g := gaps s
  let m := (g.map (placesIn n)).foldl (· + ·) 0
  let (k, s) := draw s
  ((placeAt n g (Config.placement k m % max m 1)).getD spaceBase, s)

/-- The stack whose copy addresses are reported from: STACK_0 unless it is fenced. -/
def queueStack (s : State) : Nat := if stackFenced s 0 then 1 else 0
/-- Granary address of an offset of the queue region. -/
def queueAddr (s : State) (o : Nat) : Nat := queueBase s (queueStack s) + o
/-- Granary address of a queue's context. -/
def queueCtxAddr (s : State) (q : Nat) : Nat := queueAddr s (q * 64)
/-- Granary address of a CQ context. -/
def cqCtxAddr (s : State) (c : Nat) : Nat := queueAddr s (0x400000 + c * 32)

/-! ## What the queue region and the journal read as (R331, R334, R342) -/

/-- The 64 bytes of a submission-queue context (R331). -/
def queueCtx (s : State) (n : Nat) : List Byte :=
  let q := s.queue n
  leBytes 2 n ++ leBytes 1 q.state.toNat ++ leBytes 1 q.flags.toNat ++ leBytes 1 q.cq.toNat ++ leBytes 1 q.domain.toNat
    ++ leBytes 2 q.credits.toNat ++ leBytes 2 q.maxlen.toNat ++ leBytes 2 q.sources.toNat ++ leBytes 4 q.nextSeq.toNat
    ++ leBytes 4 q.lowSeq.toNat ++ leBytes 4 q.firstSeq.toNat ++ leBytes 4 q.haltSeq.toNat ++ leBytes 2 (inFlightOf s n)
    ++ leBytes 2 0 ++ leBytes 8 q.accepted.toNat ++ leBytes 8 q.posted.toNat ++ leBytes 16 0

/-- The 32 bytes of a CQ context (R334). -/
def cqCtx (s : State) (n : Nat) : List Byte :=
  let c := s.cq n
  leBytes 1 n ++ leBytes 1 c.state.toNat ++ leBytes 2 c.dest.toNat ++ leBytes 4 c.depth.toNat
    ++ leBytes 8 (if c.ring = 0 then 0 else queueAddr s c.ring) ++ leBytes 4 c.tail.toNat ++ leBytes 4 c.head.toNat ++ leBytes 8 0

/-- The 32 bytes of a completion record (R344). -/
def Cpl.bytes (c : Cpl) : List Byte :=
  leBytes 4 (c.tag.toNat * 65536 + c.key.qid.toNat) ++ leBytes 4 c.key.seq.toNat ++ leBytes 4 c.w2.toNat ++ leBytes 4 c.w3.toNat
    ++ leBytes 8 c.stamp.toNat ++ leBytes 4 c.w6.toNat ++ leBytes 4 c.w7.toNat

/-- Size of a journal entry: the 64-byte header, the packet, padding (R342). -/
def JEntry.size (e : JEntry) : Nat := cdiv (64 + e.bytes.length) 64 * 64

/-- The bytes of a journal entry (R342). -/
def JEntry.image (e : JEntry) : List Byte :=
  let h := leBytes 1 e.state.toNat ++ leBytes 1 e.src.toNat ++ leBytes 2 (e.size / 64) ++ leBytes 4 0 ++ leBytes 8 e.jsn
    ++ leBytes 8 e.accStamp.toNat ++ leBytes 4 0
  let r := match e.record with
    | none => leBytes 32 0
    | some c => c.bytes
  padTo e.size (h ++ leBytes 4 (crc32c (h ++ r)).toNat ++ r ++ e.bytes)

/-- Bytes of a journal copy (R90, R342). -/
def journalSize : Nat := 256 * slotSize
/-- First byte of a journal copy. -/
def journalBase (s : State) (j : Nat) : Nat := ((j + 1) * slotsPerStack s - (if j = 0 then 832 else 800)) * slotSize

/-- A byte of the queue region; those that no context, intake space or ring record holds are undefined (R330). `n` names
the read. -/
def queueByte (s : State) (n o : Nat) : Byte :=
  if o < 0x400000 then (queueCtx s (o / 64)).getD (o % 64) 0
  else if o < spaceBase then (cqCtx s ((o - 0x400000) / 32)).getD (o % 32) 0
  else
    match s.cqs.find? (fun e => e.2.ring != 0 && decide (e.2.ring ≤ o) && decide (o < e.2.ring + e.2.space)) with
    | none => Config.queueRegionByte n o
    | some e =>
      match Tab.find e.2.recs ((o - e.2.ring) / 32) with
      | none => Config.queueRegionByte n o
      | some r => r.getD ((o - e.2.ring) % 32) 0

/-- A byte of a journal copy. -/
def journalByte (s : State) (o : Nat) : Byte :=
  match s.journal.find? (fun e => decide (e.off ≤ o) && decide (o < e.off + e.size)) with
  | none => 0
  | some e => e.image.getD (o - e.off) 0

/-- The byte that a read of the Granary at an address gives: contexts, rings and the journal from their own state (R330,
R342), all else from memory. `n` names the read. -/
def grnByte (s : State) (n a : Nat) : Byte :=
  let slot := a / slotSize
  let j := min 1 (stackOf s slot)
  if regionOf s slot = .queue then queueByte s n (a - queueBase s j)
  else if journalBase s j ≤ a ∧ a < journalBase s j + journalSize then journalByte s (a - journalBase s j)
  else memRead s.grn.mem a

/-! ## Journal entries (R339, R342, R343) -/

/-- The CQ's HEAD has passed the entry's record; a record of CQ 0 counts as passed once sent. -/
def entryPassed (s : State) (e : JEntry) : Bool :=
  let c := (s.queue e.key.qid.toNat).cq.toNat
  if c = 0 then e.sent
  else match e.ringAt with
    | none => true
    | some i => (s.cq c).state == 0 || (decide (0 < ((s.cq c).head - i).toNat) && decide (((s.cq c).head - i).toNat < 2 ^ 31))

/-- The entry may be overwritten (R342). -/
def entryFree (s : State) (e : JEntry) : Bool :=
  let q := s.queue e.key.qid.toNat
  e.state == 4 && entryPassed s e && !(q.state == 2 && q.haltSeq == e.key.seq) && e.retry.isNone

/-- Where an entry of `n` bytes goes: at the tail, or at the start when it does not fit before the end. -/
def entryPlace (s : State) (n : Nat) : Nat := if s.jtail + n ≤ journalSize then s.jtail else 0

/-- Entries that lie in `n` bytes from `o`. -/
def entriesIn (s : State) (o n : Nat) : List JEntry :=
  s.journal.filter (fun e => decide (e.off < o + n) && decide (o < e.off + e.size))

/-- The journal has room for an entry of `n` bytes (R343). -/
def journalRoom (s : State) (n : Nat) : Bool := (entriesIn s (entryPlace s n) n).all (entryFree s)

/-- LOW_SEQ of every queue follows its oldest surviving entry (R342). -/
def updateLow (q : Nat) (s : State) : State :=
  let l := s.journal.filter (fun e => e.key.qid.toNat == q && e.state != 0)
  s.updQueue q (fun x => { x with lowSeq := ((l.head?).map (·.key.seq)).getD x.nextSeq })

/-- Writes an accepted entry, overwriting free ones (R339, R342). -/
def addEntry (e : JEntry) (s : State) : State :=
  let o := entryPlace s e.size
  let gone := entriesIn s o e.size
  let s := { s with journal := s.journal.filter (fun x => !gone.contains x) ++ [{ e with off := o }], jtail := o + e.size }
  forAll ((e.key.qid.toNat :: gone.map (·.key.qid.toNat)).eraseDups) updateLow s

/-! ## Answers (R338) -/

/-- A record goes on VC1 to the host of a CQ (R335, R403). -/
def sendRecord (dest : BitVec 16) (c : Cpl) (s : State) : State :=
  originate 1 (dest.toNat % 1024) 0x11 0 c.bytes (emit (.record true dest c) s)

/-- Something for an arrival interface: on a port a message, over SPI a record that waits in SPI_CPL. -/
def answerTo (src : BitVec 3) (c : Cpl) (s : State) : State :=
  if src = 6 then { s with spi := { s.spi with cpl := s.spi.cpl ++ [c], busy := false } } else sendArrival src 0x11 2 c.bytes (emit (.answer src c) s)

/-- An intake answer (R338, R341). -/
def intakeAnswer (src : BitVec 3) (b : List Byte) (cls code detail : Nat) (s : State) : State :=
  answerTo src { key := pkKey b, tag := BitVec.ofNat 16 (pkTag b), src := src, cls := BitVec.ofNat 4 cls
                 code := BitVec.ofNat 12 code, detail := BitVec.ofNat 16 detail
                 w3 := tagWord s.boot.sl s.tim.tq (s.throttled 0 0) s.ce, stamp := s.stamp } s

/-- The acceptance notice (R339): over SPI it sets ACC and ACC_SEQ. -/
def sendNotice (src : BitVec 3) (tag : BitVec 16) (k : Key) (s : State) : State :=
  let free := (s.queue k.qid.toNat).credits.toNat - (atIntake s k.qid.toNat).length
  if src = 6 then { s with spi := { s.spi with busy := false, acc := true, overrun := false, accSeq := k.seq } }
  else
    let w0 := tag.toNat * 65536 + k.qid.toNat
    let w2 := 0xA * 2 ^ 28 + free
    sendArrival src 0x10 0 (leBytes 4 w0 ++ leBytes 4 k.seq.toNat ++ leBytes 4 w2)
      (emit (.notice src (BitVec.ofNat 32 w0) k.seq (BitVec.ofNat 32 w2)) s)

/-! ## Queues (R333, R351) -/

/-- A CLOSING queue with nothing in flight becomes DISABLED and gives its intake space back (R333). -/
def closeQueue (q : Nat) (s : State) : State :=
  if (s.queue q).state = 3 ∧ inFlightOf s q = 0 then s.updQueue q (fun x => { x with state := 0, intakeAt := 0 }) else s

/-- Commands of a queue that wait: accepted and not started, in acceptance order. -/
def waitingCmds (s : State) (q : Nat) : List JEntry := s.journal.filter (fun e => e.key.qid.toNat == q && e.state == 1)

/-- Flushes a queue's waiting commands (R351). -/
def flushQueue (q : Nat) (s : State) : State := (waitingCmds s q).foldl (fun s e => completeBad e.key 5 Code.flushed 0 s) s

end Sys2Proof.Machine
end

