-- ==== Sys2Proof/Machine/Grn.lean ====
section
/-!
DEFINITION. The GRN commands (R94 to R104, R366) and the Granary's own events: seal checks, rejoining (R114), scrub passes
(R108 to R110), derating (R107), region moves (R92).
-/
namespace Sys2Proof.Machine

/-! ## Uncorrectable units (R108, R109) -/

/-- The stack of a 32-byte unit. -/
def unitStack (s : State) (u : Nat) : Nat := min 1 (stackOf s (u * 32 / slotSize))

/-- A unit in a mirrored region: the same unit of the other copy (journal or queue region). -/
def mirrorUnit (s : State) (u : Nat) : Option Nat :=
  let j := unitStack s u
  let a := u * 32
  if regionOf s (a / slotSize) = .queue then some ((queueBase s (1 - j) + (a - queueBase s j)) / 32)
  else if journalBase s j ≤ a ∧ a < journalBase s j + journalSize then some ((journalBase s (1 - j) + (a - journalBase s j)) / 32)
  else none

/-- An uncorrectable unit is found (R108, R109): counted and raised; a mirrored unit is rewritten from the other copy, and
JOURNAL_UE is raised when that copy fails too or there is none. -/
def foundUe (u : Nat) (s : State) : State :=
  let j := unitStack s u
  let s := s.updGrn (fun g => if j = 0 then { g with ue0 := satInc g.ue0 } else { g with ue1 := satInc g.ue1 })
  let s := raise (srcUe j) 0 u s
  match mirrorUnit s u with
  | none => s.updGrn (fun g => { g with ues := (u :: g.ues).eraseDups })
  | some m =>
    if s.grn.ues.contains m ∨ bit s.grn.stat 17 then raise srcJournalUe 0 u s
    else s.updGrn (fun g => { g with ues := g.ues.erase u })

/-- A corrected unit (R108). -/
def foundCe (u : Nat) (s : State) : State :=
  let j := unitStack s u
  raise (srcCe j) 0 u (s.updGrn (fun g => if j = 0 then { g with ce0 := satInc g.ce0 } else { g with ce1 := satInc g.ce1 }))

/-- SCRUB_PASS (R110): the errors that the pass finds; LATE is kept until a pass completes in time. Uncorrectable units are
entered first, so that two copies failing at one unit are seen together. -/
def doScrubPass (errs : List MemErr) (late : Bool) (s : State) : State :=
  let bad := (errs.filter (·.fatal)).map (·.unit)
  let s := s.updGrn (fun g => { g with scrub := setBit g.scrub 16 late, ues := (bad ++ g.ues).eraseDups })
  let s := (errs.filter (fun e => !e.fatal)).foldl (fun s e => foundCe e.unit s) s
  bad.foldl (fun s u => foundUe u s) s

/-- SCRUB_PASS. -/
def execScrubPass (errs : List MemErr) (late : Bool) (s : State) : Host.Outcome State Fault Refusal := .next (doScrubPass errs late s)

/-! ## GRN.READ (R94, R362) -/

/-- The first uncorrectable unit outside the mirrored regions that a read of `n` bytes meets. -/
def readUe (s : State) (a n : Nat) : Option Nat :=
  ((s.grn.ues.filter (fun u => decide (a / 32 ≤ u) && decide (u ≤ (a + n - 1) / 32) && (mirrorUnit s u).isNone)).foldl
    (fun (m : Option Nat) u => some (match m with
      | none => u
      | some v => min u v)) none)

/-- Mirrored units that a read meets are served by the other copy (R109). -/
def readMirrors (a n : Nat) (s : State) : State :=
  (s.grn.ues.filter (fun u => decide (a / 32 ≤ u) && decide (u ≤ (a + n - 1) / 32) && (mirrorUnit s u).isSome)).foldl
    (fun s u => foundUe u s) s

/-- GRN.READ (R94, R366). -/
def doGrnRead (c : Cmd) (s : State) : State :=
  let a := c.u 0 8
  let n := c.u 8 4
  runCmd { op := 0x200, scopes := 1 } c
    (fun s _ => [lenCheck c 16, when? (decide (grnSize s ≤ a)) (rFormat Code.addrRange 0),
      when? (n % 8 != 0 || decide (n < 8) || decide (4080 < n)) (rFormat Code.readLen 8),
      when? (decide (grnSize s < a + n)) (rFormat Code.addrRange 0)])
    (fun s _ => [slotFenceCheck s (a / slotSize), slotFenceCheck s ((a + n - 1) / slotSize)])
    (fun _ s =>
      let s := readMirrors a n (useStack c.key (a / slotSize) s)
      let s := countUnits 690 a n s
      let (k, s) := draw s
      let bytes (m : Nat) : List Byte := (List.range m).map (fun i => grnByte s k (a + i))
      match readUe s a n with
      | none => complete c.key 0 0 0 0 0 (bytes n) s
      | some u =>
        let d := bytes (32 * u - a)
        complete c.key 8 Code.memUe 0 (BitVec.ofNat 32 (32 * u)) (BitVec.ofNat 32 (32 * u / 2 ^ 32)) d (foundUe u s)) s

/-- GRN.READ. -/
def execGrnRead (c : Cmd) (s : State) : Host.Outcome State Fault Refusal := .next (doGrnRead c s)

/-! ## GRN.WRITE, GRN.SEAL, GRN.RELEASE (R94 to R99) -/

/-- A running stream that holds a slot. -/
def holderOf (s : State) (slot : Nat) : Nat := ((s.runs.find? (fun e => e.2.uses slot)).map (·.1)).getD 0

/-- GRN.WRITE (R94, R95, R97). -/
def doGrnWrite (c : Cmd) (s : State) : State :=
  let a := c.u 0 8
  let n := c.params.length - 8
  let slot := a / slotSize
  runCmd { op := 0x201, scopes := 1 } c
    (fun s _ => [when? (decide (c.params.length < 16) || c.params.length % 8 != 0) (rFormat Code.paramLen),
      when? (a % 8 != 0) (rFormat Code.valueRange 0), when? (decide (grnSize s ≤ a)) (rFormat Code.addrRange 0),
      when? (decide (regionOf s slot ≠ .pattern)) (rFormat Code.region 0),
      when? (decide (slotSize < a % slotSize + n)) (rFormat Code.slotCross 0)])
    (fun s _ => [slotFenceCheck s slot,
      when? (segState s slot == 3) { cls := 2, code := Code.segActive, w6 := slot, w7 := holderOf s slot }])
    (fun _ s =>
      let s := useStack c.key slot s
      let s := s.updSlot slot (fun x => { x with st := 1 })
      let s := s.updGrn (fun g => { g with seals := g.seals.map (fun x => if x.slot = slot then { x with spoilt := true } else x) })
      completeOk c.key 0 (grnStore a (c.params.drop 8) (rewriteUnits a n s))) (takeCommits s)

/-- GRN.WRITE. -/
def execGrnWrite (c : Cmd) (s : State) : Host.Outcome State Fault Refusal := .next (doGrnWrite c s)

/-- SEG_STATE: DETAIL holds the present state (R96, R529). -/
def segStateBad (s : State) (slot : Nat) (ok : List Nat) : Option Reason :=
  when? (!ok.contains (segState s slot)) (rState Code.segState (segState s slot))

/-- GRN.SEAL (R96, R98): of a READY segment it runs no check. -/
def doGrnSeal (c : Cmd) (s : State) : State :=
  let slot := c.u 0 4
  runCmd { op := 0x202, scopes := 1 } c
    (fun s _ => [lenCheck c 16, segSlot s slot (slot % 65536),
      when? (c.u 4 4 % 8 != 0 || decide (c.u 4 4 < 8) || decide (slotSize < c.u 4 4)) (rFormat Code.valueRange 4)])
    (fun s _ => [slotFenceCheck s slot, segStateBad s slot [1, 2]])
    (fun _ s =>
      let s := useStack c.key slot s
      if segState s slot = 2 then completeOk c.key 0 s
      else s.updGrn (fun g => { g with seals := g.seals ++ [{ slot := slot, len := c.u 4 4, crc := BitVec.ofNat 32 (c.u 8 4), key := c.key }] }))
    (takeCommits s)

/-- GRN.SEAL. -/
def execGrnSeal (c : Cmd) (s : State) : Host.Outcome State Fault Refusal := .next (doGrnSeal c s)

/-- SEAL_CHECK_DONE (R98): the oldest running check of a slot ends. -/
def doSealCheckDone (slot : Nat) (s : State) : State :=
  match s.grn.seals.find? (fun x => x.slot == slot) with
  | none => s
  | some x =>
    let s := s.updGrn (fun g => { g with seals := g.seals.erase x })
    let s := countUnits 690 (slot * slotSize) x.len s
    if !x.spoilt ∧ crc32c (grnLoad (slot * slotSize) x.len s) = x.crc then
      completeOk x.key 0 (s.updSlot slot (fun _ => { st := 2, len := x.len }))
    else completeBad x.key 3 Code.segCrc 0 s

/-- SEAL_CHECK_DONE. -/
def execSealCheckDone (slot : BitVec 16) (s : State) : Host.Outcome State Fault Refusal := .next (doSealCheckDone slot.toNat s)

/-- GRN.RELEASE (R96, R99): a running check is abandoned. -/
def doGrnRelease (c : Cmd) (s : State) : State :=
  let slot := c.u 0 4
  runCmd { op := 0x203, scopes := 1 } c (fun s _ => [lenCheck c 8, segSlot s slot (slot % 65536)])
    (fun s _ => [slotFenceCheck s slot, segStateBad s slot [0, 1, 2]])
    (fun _ s =>
      let gone := s.grn.seals.filter (fun x => x.slot == slot)
      let s := s.updGrn (fun g => { g with slots := Tab.erase g.slots slot, seals := g.seals.filter (fun x => x.slot != slot) })
      let s := completeOk c.key 0 s
      gone.foldl (fun s x => completeBad x.key 2 Code.segState 0 s) s) (takeCommits s)

/-- GRN.RELEASE. -/
def execGrnRelease (c : Cmd) (s : State) : Host.Outcome State Fault Refusal := .next (doGrnRelease c s)

/-! ## GRN.SEG_STATUS (R104, R366) -/

/-- The streamed positions that list a slot, with their deadlines: deadline, Sheaf, position, ascending. -/
def deadlinesOf (s : State) (slot : Nat) : List (Nat × Nat × Nat) :=
  let l := s.runs.flatMap (fun e => ((List.range e.2.poss.length).filter (fun p => (posAt e.2.poss p).slot == slot)).filterMap
    (fun p => (deadlineOf s e.2 p).map (fun d => (d, e.1, p))))
  l.foldl (fun (a : List (Nat × Nat × Nat)) x => (a.takeWhile (fun y => decide (y.1 ≤ x.1))) ++ [x] ++ (a.dropWhile (fun y => decide (y.1 ≤ x.1)))) []

/-- The short stamp of a moment. -/
def shortAt (s : State) (m : Nat) : Nat := (s.fullAt 0).toNat + m

/-- The record of a slot. -/
def slotRecord (s : State) (slot : Nat) : List Byte :=
  let l := deadlinesOf s slot
  let n := min l.length 253
  leBytes 4 slot ++ leBytes 1 (if regionOf s slot = .pattern then segState s slot else 0) ++ leBytes 1 (stackOf s slot)
    ++ leBytes 2 (n + (if 253 < l.length then 32768 else 0))
    ++ leBytes 16 (bitsToNat ((s.runs.filter (fun e => e.2.admitted && e.2.poss.any (fun p => p.slot == slot))).map (·.1)))
    ++ leBytes 8 ((l.head?).map (fun x => shortAt s x.1) |>.getD (2 ^ 64 - 1))
    ++ (l.take n).flatMap (fun x => leBytes 1 x.2.1 ++ leBytes 3 0 ++ leBytes 4 x.2.2 ++ leBytes 8 (shortAt s x.1))

/-- Whole records in slot order up to 4,080 bytes, and how many. -/
def slotRecords (s : State) : List Nat → List Byte → Nat → List Byte × Nat
  | [], b, n => (b, n)
  | x :: l, b, n =>
    let r := slotRecord s x
    if b.length + r.length ≤ 4080 then slotRecords s l (b ++ r) (n + 1) else (b, n)

/-- GRN.SEG_STATUS (R366). -/
def doGrnSegStatus (c : Cmd) (s : State) : State :=
  runCmd { op := 0x204, scopes := 1 } c (fun _ _ => [lenCheck c 8, rng c 4 4 1 127]) (fun _ _ => [])
    (fun _ s =>
      let l := ((List.range (c.u 4 4)).map (· + c.u 0 4)).filter (fun x => decide (x < 2 * slotsPerStack s))
      let (b, n) := slotRecords s l [] 0
      complete c.key 0 0 0 (BitVec.ofNat 32 n) 0 b s) s

/-- GRN.SEG_STATUS. -/
def execGrnSegStatus (c : Cmd) (s : State) : Host.Outcome State Fault Refusal := .next (doGrnSegStatus c s)

/-- GRN.CAP_FREE (R366). -/
def doGrnCapFree (c : Cmd) (s : State) : State :=
  let slot := c.u 0 4
  runCmd { op := 0x205, scopes := 1 } c (fun _ _ => [lenCheck c 8])
    (fun s _ => [slotFenceCheck s slot, when? (!s.grn.caps.any (fun u => u.first == slot)) (rState Code.capNotBuffer),
      when? (s.grn.caps.any (fun u => u.first == slot && u.busy)) (rState Code.capBusy)])
    (fun _ s => completeOk c.key 0 (s.updGrn (fun g => { g with caps := g.caps.filter (fun u => u.first != slot) }))) s

/-- GRN.CAP_FREE. -/
def execGrnCapFree (c : Cmd) (s : State) : Host.Outcome State Fault Refusal := .next (doGrnCapFree c s)

/-! ## Rejoining (R114) -/

/-- GRN.STACK_REJOIN (R114): trained, the stack reads REJOINING with its configurable slots FREE, and the copies start. -/
def doGrnStackRejoin (c : Cmd) (trainOk : Bool) (s : State) : State :=
  let j := c.u 0 1
  runCmd { op := 0x206, scopes := 1 } c (fun _ _ => [lenCheck c 8, rng c 0 1 0 1])
    (fun s _ => [when? (!stackFenced s j) (rState Code.stackNotFenced), when? (!trainOk) (rFault 0 j)])
    (fun _ s =>
      let s := s.updGrn (fun g => { g with stat := setBit (setFld g.stat (2 * j) 2 3) 18 true
                                           slots := g.slots.filter (fun e => stackOf s e.1 != j)
                                           ues := g.ues.filter (fun u => unitStack s u != j) })
      completeOk c.key 0 s) s

/-- GRN.STACK_REJOIN. -/
def execGrnStackRejoin (c : Cmd) (trainOk : Bool) (s : State) : Host.Outcome State Fault Refusal := .next (doGrnStackRejoin c trainOk s)

/-- First byte of a microcode master copy (R90). -/
def masterBase (s : State) (j : Nat) : Nat := ((j + 1) * slotsPerStack s - (if j = 0 then 64 else 32)) * slotSize

/-- The microcode master of a stack copied from the other one. -/
def copyMaster (j : Nat) (s : State) : State :=
  let src := masterBase s (1 - j)
  let dst := masterBase s j
  let n := 32 * slotSize
  let inn (b : Nat) (c : Host.Cell) : Bool := decide (b ≤ c.1) && decide (c.1 < b + n)
  s.updGrn (fun g =>
    let old := g.mem.filter (inn dst)
    let m := old.foldl (fun m c => memErase m c.1) g.mem
    { g with mem := (g.mem.filter (inn src)).foldl (fun m c => memWrite m (c.1 - src + dst) c.2) m })

/-- STACK_REJOIN_COPY_DONE (R114): the stack reads OK and single-journal mode ends. -/
def doStackRejoinCopyDone (j : Nat) (s : State) : State :=
  if fld s.grn.stat (2 * j) 2 = 3 then
    let s := copyMaster j s
    s.updGrn (fun g =>
      let st := setBit (setFld g.stat (2 * j) 2 0) 18 false
      { g with stat := setBit st 17 (fld st (2 * (1 - j)) 2 != 0) })
  else s

/-- STACK_REJOIN_COPY_DONE. -/
def execStackRejoinCopyDone (j : Fin 2) (s : State) : Host.Outcome State Fault Refusal := .next (doStackRejoinCopyDone j.val s)

/-! ## Derating (R106, R107) -/

/-- Usable bandwidth of a derating step in GB/s (R106). -/
def usableAt (d : Nat) : Nat := 600 - 60 * min d 5

/-- A thermal event of a zone (R475). -/
def thermalEvent (z : Nat) (s : State) : State := s.updZone z (fun x => { x with eventAt := some s.mono })

/-- DERATE_STEP (R107): a boundary is crossed upward or downward after 10 ms. -/
def doDerateStep (j : Nat) (up : Bool) (s : State) : State :=
  let lo := 8 + 4 * j
  let d := fld s.grn.stat lo 4
  if (up ∧ 6 ≤ d) ∨ (!up ∧ d = 0) then s
  else
    let d' := if up then d + 1 else d - 1
    let s := s.updGrn (fun g =>
      let g := { g with stat := setFld g.stat lo 4 d' }
      if j = 0 then { g with temp0 := setFld g.temp0 16 16 (usableAt d') } else { g with temp1 := setFld g.temp1 16 16 (usableAt d') })
    let s := lowerTags (thermalEvent (6 + j) s)
    let s := count (723 + j) 1 (raise (srcThrottle (6 + j)) 0 0 s)
    let s := traceThermal 0 (6 + j) 0 s
    if up ∧ d' = 6 then raise (srcStackHot j) 0 0 s else s

/-- DERATE_STEP. -/
def execDerateStep (j : Fin 2) (up : Bool) (s : State) : Host.Outcome State Fault Refusal := .next (doDerateStep j.val up s)

/-! ## GRN_RGN (R92) -/

/-- The region registers after a write of `v` to the register of stack `j`. -/
def rgnAfter (j : Nat) (v : Word) (s : State) : State :=
  let q := fld v 0 11
  s.updGrn (fun g =>
    let w0 := setFld g.rgn0 0 11 q
    let w1 := setFld g.rgn1 0 11 q
    if j = 0 then { g with rgn0 := setFld w0 16 14 (fld v 16 14), rgn1 := w1 }
    else { g with rgn0 := w0, rgn1 := setFld w1 16 14 (fld v 16 14) })

/-- The lowest slot in use that would change region. -/
def movedSlot (s t : State) : Option Nat :=
  let used := s.grn.slots.filterMap (fun e => if e.2.st = 0 then none else some e.1)
  let bufs := s.grn.caps.flatMap (fun u => (List.range u.count).map (· + u.first))
  (sortAsc ((used ++ bufs).filter (fun n => decide (regionOf s n ≠ regionOf t n)))).head?

/-- Rings that no longer fit the queue region are placed again (R330). -/
def replaceRings (s : State) : State :=
  (Tab.keys s.cqs).foldl (fun s n =>
    let c := s.cq n
    if c.ring = 0 ∨ c.ring + c.space ≤ regionSize s then s
    else
      let (o, s) := choosePlace c.space (s.updCq n (fun c => { c with ring := 0 }))
      s.updCq n (fun c => { c with ring := o })) s

/-- A write of GRN_RGN (R92). -/
def writeGrnRgn (j : Nat) (v : Word) (s : State) : WRes :=
  let t := rgnAfter j v s
  let beyond (k : Nat) : Bool := decide (configurable t k < captureSlots t k + queueSlots t)
  guarded [when? (decide (fld v 0 11 < 8) || decide (1024 < fld v 0 11)) (badField 0),
      when? (beyond 0 || beyond 1) (badField 16),
      (movedSlot s t).map (fun n => rState Code.slotInUse n),
      when? (fld v 0 11 != queueSlots s && s.queues.any (fun e => e.1 != 0 && e.2.state != 0)) (rState Code.queuesOpen)]
    (.done (replaceRings t))

/-- GRN_RGN_WRITE. -/
def execGrnRgnWrite (a : Agent) (j : Fin 2) (v : BitVec 32) (s : State) : Host.Outcome State Fault Refusal :=
  .next (regRow (.grn (0x10 + 4 * j.val)) v a (fun _ _ => false) (writeGrnRgn j.val v) s)

end Sys2Proof.Machine
end

