-- ==== Sys2Proof/Machine/PwrOps.lean ====
section
/-!
DEFINITION. Shared operations of the bay's power side (R258 to R283): step mode, pulses towards the trigger sequencer, blanking
channels, the DUT power controllers, their gangs, trips and sequences, and the alarms of the window monitors.
-/
namespace Sys2Proof.Machine

/-- 5 µs, a loop period of the supervisory loop (R260). -/
def loopSteps : Nat := 5 * usSteps

/-- VPE is lost: THM_SUP_STAT.PE_RAIL (R463). -/
def State.peRail (s : State) : Bool := bit s.thm.supStat 6

/-- Fence of a bay whose registers are written (R361); its units belong to no site (R503). -/
def bayRegReach (s : State) (k : Nat) : Option Reason := fenceCheck s [] [k]

/-! ## Step mode (R475) -/

/-- S of a bay: the least S of its zone, of THZ_0 and of THZ_1. -/
def stepS (s : State) (k : Nat) : Nat := min (s.zone (zoneOfBay k)).s.toNat (min (s.zone 0).s.toNat (s.zone 1).s.toNat)

/-- The ILIM in effect (R262, R475). -/
def effIlim (s : State) (d : Nat) : Nat :=
  let i := fld (s.dpsOf d).ilim 0 16
  if stepS s (d / 2) < 8 then max 328 (stepS s (d / 2) * i / 8) else i

/-- The PMU current limit in effect (R475). -/
def effIcl (s : State) (p : Nat) : Nat :=
  let i := fld (s.pin p).pmu.clim 0 16
  if stepS s (p / 16) < 8 then max 656 (stepS s (p / 16) * i / 8) else i

/-! ## Pulses (R305) -/

/-- A pulse sets out for a bay's trigger sequencer and arrives `cycles` ECLK cycles later; a sequencer that is off discards
it (R304). -/
def pushPulse (k code cycles : Nat) (stamp : Full) (s : State) : State :=
  if bit (s.bay k).trg.ctrl 31 then
    s.updBay k (fun b =>
      let t := b.trg
      { b with trg := { t with pulses := t.pulses ++ [{ at_ := s.mono + cycles * eclkSteps, code := code, stamp := stamp }] } })
  else s

/-! ## Blanking (R273) -/

/-- Channel `i` of bay `k` as a unit number. -/
def blkNo (k i : Nat) : Nat := 4 * k + i

/-- Starts a channel, or restarts its full length. -/
def startBlk (i : Nat) (s : State) : State :=
  s.updBlk i (fun b => { cfg := setBit b.cfg 31 true, endAt := s.mono + fld b.cfg 0 19 * eclkSteps })

/-- Starts the channels of a bay whose START is one of the listed codes. -/
def startBlks (k : Nat) (codes : List Nat) (s : State) : State :=
  forAll (List.range 4) (fun i s =>
    if codes.contains (fld (s.blk (blkNo k i)).cfg 20 4) then startBlk (blkNo k i) s else s) s

/-- A controller fires as a blanking source: an enable, a VSET change, a sequence step. -/
def blkByDps (d : Nat) (s : State) : State := startBlks (d / 2) [1 + d % 2, 3] s

/-! ## Controllers and gangs (R263 to R266) -/

/-- EN. -/
def Dps.en (x : Dps) : Bool := bit x.ctrl 16
/-- STATE: 0 OFF, 1 RAMP, 2 REG, 3 FAULT_OFF. -/
def Dps.st (x : Dps) : Nat := fld x.stat 0 2
/-- GANGED. -/
def Dps.ganged (x : Dps) : Bool := bit x.stat 2
/-- The gang's master, with MASTER set. -/
def Dps.isMaster (x : Dps) : Bool := bit x.gang 15
/-- A gang member other than the master (R264). -/
def Dps.isFollower (x : Dps) : Bool := x.ganged && !x.isMaster
/-- TRIPPED or LIM_OFF is set. -/
def Dps.tripped (x : Dps) : Bool := bit x.stat 7 || bit x.stat 6
/-- The output is off: STATE is OFF or FAULT_OFF. -/
def Dps.isOff (x : Dps) : Bool := x.st == 0 || x.st == 3

/-- The controllers that act as one with `d`: the gang it masters or belongs to, or itself alone. -/
def gangOf (s : State) (d : Nat) : List Nat :=
  let x := s.dpsOf d
  if x.ganged then
    let m := fld x.gang 0 5
    m :: (List.range 32).filter (fun e => e != m && (s.dpsOf e).ganged && fld (s.dpsOf e).gang 0 5 == m)
  else [d]

/-- Changes every controller of a gang. -/
def updGang (d : Nat) (f : Dps → Dps) (s : State) : State := forAll (gangOf s d) (fun e s => s.updDps e f) s

/-- The running sequence that names a controller (R268). -/
def seqOfDps (s : State) (d : Nat) : Option Nat :=
  (s.seqs.find? (fun e => e.2.steps.any (fun t => t.1 == d))).map (·.1)

/-- SEQ_RUNNING (R268). -/
def seqCheck (s : State) (d : Nat) : Option Reason := when? (seqOfDps s d).isSome (rState Code.seqRunning d)

/-- GANG_MEMBER (R264, R266). -/
def gangCheck (s : State) (d : Nat) : Option Reason := when? (s.dpsOf d).isFollower (rState Code.gangMember d)

/-- The conditions that refuse an enable (R264), reach excepted. -/
def enableChecks (s : State) (d : Nat) : List (Option Reason) :=
  [when? s.peRail (rState Code.peRail d),
   when? ((gangOf s d).any (fun e => (s.dpsOf e).tripped)) (rState Code.dpsTripped d), gangCheck s d]

/-- Commands that wait on a controller end because a request of the other direction takes its place. DESIGN CHOICE, log entry
21. -/
def supersede (d : Nat) (s : State) : State :=
  let ks := (s.dpsOf d).cmds
  endKeys ks { cls := 6, code := Code.stopped, detail := d } (s.updDps d (fun x => { x with cmds := [] }))

/-- The set point ramps towards VSET (R263 steps 1 to 3): STATE = RAMP, PG falls until the ramp has ended. -/
def rampUp (x : Dps) : Dps :=
  { x with ctrl := setBit x.ctrl 16 true, stat := setFld (setBit x.stat 3 false) 0 2 1, down := false, rampDone := false }

/-- An output that is off turns on (R263): blanking channels start, the ramp begins. An output that ramps down turns round. An
output that is on is left as it is. -/
def dpsEnable (d : Nat) (s : State) : State :=
  let x := s.dpsOf d
  if x.en ∧ !x.down then s
  else
    let s := forAll (gangOf s d) blkByDps s
    updGang d rampUp (if x.down then supersede d s else s)

/-- An off request (R263): the set point ramps down to 0 V. -/
def dpsDisable (d : Nat) (s : State) : State :=
  let x := s.dpsOf d
  if x.isOff ∨ x.down then s
  else
    updGang d (fun x => { x with
      ctrl := setBit x.ctrl 16 false, stat := setFld (setBit x.stat 3 false) 0 2 1, down := true, rampDone := false })
      (supersede d s)

/-- A set point changes (R263, R273): while on, the ramp and PG follow again. -/
def dpsSetV (d code : Nat) (s : State) : State :=
  let x := s.dpsOf d
  let s := updGang d (fun y => { y with vset := BitVec.ofNat 32 code }) s
  if fld x.vset 0 16 = code then s
  else
    let s := forAll (gangOf s d) blkByDps s
    if x.en ∧ !x.down then updGang d rampUp s else s

/-- A command waits on a controller. -/
def waitDps (k : Key) (d : Nat) (s : State) : State := s.updDps d (fun x => { x with cmds := x.cmds ++ [k] })

/-- Commands that waited on a controller complete. -/
def endDpsWaits (d cls code : Nat) (s : State) : State :=
  let ks := (s.dpsOf d).cmds
  endKeys ks { cls := cls, code := code, detail := if cls = 0 then 0 else d } (s.updDps d (fun x => { x with cmds := [] }))

/-! ## Sequences (R267, R268) -/

def PwrSeq.step (q : PwrSeq) : Nat × Bool × Nat := q.steps.getD q.cur (0, false, 0)

def State.updSeq (s : State) (x : Nat) (f : PwrSeq → PwrSeq) : State :=
  match Tab.find s.seqs x with
  | none => s
  | some q => { s with seqs := Tab.set s.seqs x (f q) }

/-- An aborted sequence turns off what it has turned on, in reverse order; with nothing left it completes (R268). `n` bounds
the outputs that it passes because they are off already. -/
def seqUnwind (x : Nat) : Nat → State → State
  | 0, s => s
  | n + 1, s =>
    match Tab.find s.seqs x with
    | none => s
    | some q =>
      match q.unwind, q.turnedOn with
      | none, _ => s
      | some code, [] =>
        complete q.key 6 code.toNat 0 (BitVec.ofNat 32 q.failStep) 0 [] { s with seqs := Tab.erase s.seqs x }
      | some _, d :: l =>
        if (s.dpsOf d).isOff then seqUnwind x n (s.updSeq x (fun q => { q with turnedOn := l }))
        else dpsDisable d s

/-- A sequence stops at a step (R268). -/
def seqAbort (x step code : Nat) (s : State) : State :=
  match Tab.find s.seqs x with
  | none => s
  | some q =>
    if q.unwind.isSome then s
    else seqUnwind x 9 (s.updSeq x (fun q => { q with unwind := some (BitVec.ofNat 12 code), failStep := step }))

/-- A step of a sequence has reached its end: PG of an ON step, OFF of an OFF step. The delay of the next runs from now; after
the last the command completes. -/
def seqStepDone (x : Nat) (s : State) : State :=
  match Tab.find s.seqs x with
  | none => s
  | some q =>
    if q.cur + 1 < q.steps.length then
      s.updSeq x (fun q =>
        { q with cur := q.cur + 1, acting := false, stepAt := s.mono + (q.steps.getD (q.cur + 1) (0, false, 0)).2.2 * usSteps })
    else completeOk q.key 0 { s with seqs := Tab.erase s.seqs x }

/-- A controller reached PG or OFF: the step that waited for it is done, and an aborted sequence turns off the next. -/
def seqReached (d : Nat) (on : Bool) (s : State) : State :=
  match seqOfDps s d with
  | none => s
  | some x =>
    match Tab.find s.seqs x with
    | none => s
    | some q =>
      if q.unwind.isSome then (if on then s else seqUnwind x 9 s)
      else if q.acting ∧ q.step.1 = d ∧ q.step.2.1 = on then seqStepDone x s
      else s

/-- A controller of a sequence tripped (R268): an OFF step under way on it is done; a trip of an output that an ON step has
turned on stops the sequence. -/
def seqTripped (d : Nat) (s : State) : State :=
  match seqOfDps s d with
  | none => s
  | some x =>
    match Tab.find s.seqs x with
    | none => s
    | some q =>
      if q.unwind.isSome then seqUnwind x 9 s
      else if q.acting ∧ q.step.1 = d ∧ q.step.2.1 = false then seqStepDone x s
      else
        let begun := (List.range q.steps.length).filter (fun i =>
          (q.steps.getD i (0, false, 0)).1 == d && (decide (i < q.cur) || (i == q.cur && q.acting)))
        match begun.reverse with
        | [] => s
        | i :: _ => if (q.steps.getD i (0, false, 0)).2.1 then seqAbort x i Code.seqTrip s else s

/-! ## Trips (R266, R275 to R278) -/

/-- A trip during a run of the site's Sheaf (R278): it qualifies the run, and with TRIP_STOP ends the site at its next
boundary. -/
def tripRun (d : Nat) (s : State) : State :=
  match siteOfDps s d with
  | none => s
  | some x =>
    match runOfSite s x with
    | none => s
    | some (h, r) =>
      if r.admitted then
        let s := runQual h 9 Code.dpsTrip s
        if bit (s.dpsOf d).ctrl 20 then endSiteSoon h x 3 0 0xFF s else s
      else s

/-- One controller turns off by the trip path (R275): FAULT_OFF, DPS_TRIPSRC, the stamp. `flag` is the flag it sets: 7 TRIPPED,
6 LIM_OFF. -/
def turnOff (flag : Nat) (src : Word) (t : Short) (x : Dps) : Dps :=
  { x with
    ctrl := setBit x.ctrl 16 false
    stat := setBit (setFld (setBit (setBit x.stat 3 false) 5 false) 0 2 3) flag true
    tripsrc := src, tripT := t, down := false, rampDone := false }

/-- DPS_TRIPSRC of a member that follows a trip (R266). -/
def followSrc (src : Word) : Word := setBit src 2 true

/-- A trip of controller `d` and of its gang (R266, R275, R261): the outputs turn off, DPS_TRIP is raised (cause 1 for the limit
timer), commands end ABORTED, sequences and runs react. -/
def tripDps (flag : Nat) (src : Word) (cause d : Nat) (s : State) : State :=
  forAll (gangOf s d) (fun e s =>
    let s := s.updDps e (turnOff (if e = d then flag else 7) (if e = d then src else followSrc src) s.stamp)
    let s := endDpsWaits e 6 Code.dpsTrip (raise (srcDps e) cause 0 s)
    tripRun e (seqTripped e s)) s

/-- A unit's loss turns off its enabled outputs by the trip path; their work ends in that way (R279). -/
def lossOff (src : Word) (vpeOff : Bool) (e : EndWith) (d : Nat) (s : State) : State :=
  if (s.dpsOf d).isOff then s
  else
    let s := s.updDps d (fun x => turnOff 7 src s.stamp { x with stat := setBit x.stat 8 (bit x.stat 8 || vpeOff) })
    let ks := (s.dpsOf d).cmds
    endKeys ks { e with detail := if e.cls = 8 then e.detail else d } (s.updDps d (fun x => { x with cmds := [] }))

/-! ## Monitors (R269 to R275) -/

/-- Zone codes of MON_STAT. -/
def zoneCode : MonZone → Nat
  | .below => 0
  | .inside => 1
  | .above => 2

def Mon.en (x : Mon) : Bool := bit x.cfg 31
def Mon.valid (x : Mon) : Bool := bit x.stat 4
def Mon.zone (x : Mon) : Nat := fld x.stat 2 2

/-- The zone is an alarm zone (R270). -/
def Mon.alarmZone (x : Mon) (z : Nat) : Bool := (z == 2 && bit x.cfg 19) || (z == 0 && bit x.cfg 18)

/-- The blanking channel of a monitor is active (R273). -/
def blanked (s : State) (m : Nat) : Bool :=
  let x := s.mon m
  bit x.cfg 21 && bit (s.blk (blkNo (m / 4) (fld x.cfg 22 2))).cfg 31

/-- A privileged monitor: m = 0 and m = 1 of its bay. -/
def privMon (m : Nat) : Bool := decide (m % 4 < 2)

/-- The controllers that a monitor trips (R275). -/
def tripTargets (s : State) (m : Nat) : List Nat :=
  let x := s.mon m
  if privMon m && bit x.cfg 5 then
    (if bit x.trip 0 then [2 * (m / 4)] else []) ++ (if bit x.trip 1 then [2 * (m / 4) + 1] else [])
  else []

/-- Trips the controllers of a monitor. A controller that a monitor of a lower number trips in the same moment keeps that
number (R277). -/
def tripBy (m : Nat) (s : State) : State :=
  forAll (tripTargets s m) (fun d s =>
    let x := s.dpsOf d
    if x.st = 3 ∧ bit x.tripsrc 1 ∧ x.tripT = s.stamp ∧ fld x.tripsrc 8 8 < m then s
    else tripDps 7 (BitVec.ofNat 32 (m * 256 + 2)) 0 d s) s

/-- The stamp of an alarm (R274): coarse while SCLK is stopped. -/
def alarmStamp (s : State) : Full := if s.sclkOn then s.now else s.evStamp

/-- An alarm goes to its routes (R270). -/
def alarm (m : Nat) (s : State) : State :=
  let x := s.mon m
  let st := alarmStamp s
  let first := !bit x.stat 7
  let s := s.updMon m (fun x =>
    if first then
      { x with
        stat := setBit (if bit x.cfg 1 then setBit x.stat 6 (!s.sclkOn) else x.stat) 7 true
        cap := if bit x.cfg 1 then st.setWidth 64 else x.cap }
    else { x with ecnt := satInc x.ecnt })
  let s := if bit x.cfg 0 then raise (srcMon m) 0 0 s else s
  let s := if bit x.cfg 3 then pushPulse (m / 4) (0x0A + m % 4) 2 st s else s
  let s := if first ∧ bit x.cfg 4 ∧ !bayAwake s (m / 4) then s.updBay (m / 4) (fun b => { b with wakeReq := 2 }) else s
  tripBy m s

/-- A monitor meets a zone (R270, R273): the zone is taken, and entering an alarm zone raises the alarm. Under blanking no alarm
is taken; the trip is blanked only with BLANK_TRIP. `always` raises it even when the zone was met before (R272, R273). -/
def meetZone (always : Bool) (m z : Nat) (s : State) : State :=
  let x := s.mon m
  let enters := x.alarmZone z && (always || x.zone != z)
  let s := s.updMon m (fun x => { x with stat := setFld x.stat 2 2 z })
  if enters then
    if blanked s m then (if bit x.cfg 20 then s else tripBy m s) else alarm m s
  else s

/-- A monitor disabled reads INSIDE and VALID 0 (R272). -/
def monOff (x : Mon) : Mon :=
  { x with stat := setFld (setBit x.stat 4 false) 2 2 1, holding := false }

/-- A monitor's settling starts over (R272): VALID clears. -/
def monStart (now : Nat) (x : Mon) : Mon :=
  { x with stat := setBit x.stat 4 false, holding := false, resolveAt := now + 2 * usSteps }

end Sys2Proof.Machine
end

