-- ==== Sys2Proof/Machine/AnaOps.lean ====
section
/-!
DEFINITION. Shared operations of the bay waveform source and digitiser (R284 to R303): the sine synthesiser, the passing of
samples, starts and stops, span changes, the containers of a capture.
-/
namespace Sys2Proof.Machine

/-! ## Sine synthesis (R289) -/

/-- π in units of 2^-60. -/
def piFix : Int := 0x3243f6a8885a308d

/-- The Taylor series of the sine from its term `t` at power 2k − 1, for an angle in units of 2^-60; `n` terms are left. -/
def sinTerms (th : Int) : Nat → Int → Int → Int
  | 0, _, _ => 0
  | n + 1, k, t =>
    let u := -(t * th / 2 ^ 60 * th / 2 ^ 60 / (2 * k * (2 * k + 1)))
    u + sinTerms th n (k + 1) u

/-- s[i] in the first quadrant, for i up to 1,024: 131,071 × sin(2πi / 4,096), rounded to nearest. -/
def sinQuarter (i : Nat) : Int :=
  let th := piFix * i / 2048
  (131071 * (th + sinTerms th 12 1 th) + 2 ^ 59) / 2 ^ 60

/-- The 4,096-entry sine table. -/
def sinTable (i : Nat) : Int :=
  let j := i % 1024
  match i / 1024 % 4 with
  | 0 => sinQuarter j
  | 1 => sinQuarter (1024 - j)
  | 2 => -(sinQuarter j)
  | _ => -(sinQuarter (1024 - j))

/-- A 16-bit code as a signed number. -/
def code16 (n : Nat) : Int := toSigned 16 n

/-- The synthesiser's value before clipping, for an accumulator value (R289). -/
def ddsValue (acc : Nat) (poff amp : Nat) (ofs : Int) : Int :=
  let ph := (acc + poff * 2 ^ 32) % 2 ^ 48
  let a := ph / 2 ^ 36
  let fr : Int := (ph / 2 ^ 20 % 65536 : Nat)
  let v := sinTable a + ((sinTable ((a + 1) % 4096) - sinTable a) * fr) / 65536
  ofs + roundAway (v * amp) 131072

/-- Clipped to the range of a sample. -/
def clip16 (y : Int) : Int := max (-32768) (min 32767 y)

def AwgRun.ampCode (r : AwgRun) : Nat := fld r.amp 0 16
def AwgRun.ofsCode (r : AwgRun) : Int := code16 (fld r.amp 16 16)

/-- The accumulator after `n` samples. -/
def accAfter (acc ftw : BitVec 48) (n : Nat) : BitVec 48 := acc + BitVec.ofNat 48 (ftw.toNat * n)

/-- One of the next `n` samples is clipped (R289). Without a sum beyond the range none can be. -/
def ddsClips (r : AwgRun) (acc : BitVec 48) (n : Nat) : Bool :=
  if r.ofsCode.natAbs + r.ampCode ≤ 32767 then false
  else (List.range n).any (fun j =>
    let y := ddsValue (accAfter acc r.ftw j).toNat r.poff.toNat r.ampCode r.ofsCode
    decide (clip16 y ≠ y))

/-! ## The passing of samples -/

def State.awg (s : State) (k : Nat) : Awg := (s.bay k).awg
def State.updAwg (s : State) (k : Nat) (f : Awg → Awg) : State := s.updBay k (fun b => { b with awg := f b.awg })
def State.dig (s : State) (k : Nat) : Dig := (s.bay k).dig
def State.updDig (s : State) (k : Nat) (f : Dig → Dig) : State := s.updBay k (fun b => { b with dig := f b.dig })

/-- Fine steps between samples of the source: one SCLK cycle (R286). -/
def awgStep : Nat := 256

/-- The start of the n-th ECLK cycle after the present one, on the clock that is never set. -/
def nextCycle (s : State) (n : Nat) : Nat := s.mono + n * eclkSteps - s.now.toNat % eclkSteps

/-- Accounts for the samples up to a moment (R289): the accumulator advances once per sample in DDS, CLIP is set by a clipped
one. -/
def rollAwg (now : Nat) (x : Awg) : Awg :=
  if x.eff.mode = 3 then
    let n := (now - x.runAt) / awgStep
    { x with acc := accAfter x.acc x.eff.ftw n, runAt := x.runAt + n * awgStep
             stat := if ddsClips x.eff x.acc n then setBit x.stat 6 true else x.stat }
  else x

/-- The samples of a bank. -/
def Awg.bankSamples (x : Awg) (b : Bool) : List (BitVec 16) := if b then x.samples1 else x.samples0
/-- AWG_BANK[b]. -/
def Awg.bankReg (x : Awg) (b : Bool) : Word := if b then x.bank1 else x.bank0
def Awg.bankValid (x : Awg) (b : Bool) : Bool := bit (x.bankReg b) 31
def Awg.bankLen (x : Awg) (b : Bool) : Nat := fld (x.bankReg b) 0 18

/-- The sample at the output at a moment (R287, R292, R293): the safe value 0 in OFF, in the safe state and during a span
hold. -/
def awgSample (now : Nat) (x : Awg) : Int :=
  if bit x.stat 0 ∨ bit x.stat 2 then 0
  else
    let n := (now - x.runAt) / awgStep
    match x.eff.mode.toNat with
    | 1 => code16 x.eff.dc.toNat
    | 2 => code16 ((x.bankSamples x.eff.bank).getD (n % max 1 (x.bankLen x.eff.bank)) 0).toNat
    | 3 => clip16 (ddsValue (accAfter x.acc x.eff.ftw n).toNat x.eff.poff.toNat x.eff.ampCode x.eff.ofsCode)
    | _ => 0

/-- What the registers ask for. -/
def Awg.asked (x : Awg) : AwgRun :=
  { mode := BitVec.ofNat 3 (fld x.ctrl 0 3), bank := bit x.ctrl 4, loop := bit x.ctrl 3, dc := BitVec.ofNat 16 (fld x.level 0 16)
    amp := x.amp, poff := BitVec.ofNat 16 (fld x.poff 0 16), ftw := x.ftw }

/-- MODE of AWG_CTRL. -/
def Awg.mode (x : Awg) : Nat := fld x.ctrl 0 3
/-- HOLDER: 0 none, 1 engine, 2 command. -/
def Awg.holder (x : Awg) : Nat := fld x.ctrl 20 2

/-! ## Starts and stops (R291) -/

/-- The source is OFF and in its safe state (R293): MODE OFF, holder clear, nothing pending. -/
def Awg.toOff (x : Awg) : Awg :=
  let r := x.eff
  { x with
    ctrl := x.ctrl &&& 0xFFCFFFF8#32
    stat := setBit (x.stat &&& 0xFFFFFC6B#32) 0 true
    eff := { r with mode := 0 }
    pend := none, bankPend := none, holdKey := none, spanKey := none, limitAt := 0 }

/-- The commands that wait on a source: for its start, for a bank switch, for its pass, for a span. -/
def Awg.keys (x : Awg) : List Key :=
  ((x.pend.bind (·.key)).toList ++ (x.bankPend.bind id).toList ++ x.holdKey.toList ++ x.spanKey.toList).eraseDups

/-- The source returns to OFF; its commands end in that way. A span that was changing is in force (R292). -/
def awgOff (k : Nat) (e : EndWith) (s : State) : State :=
  let ks := (s.awg k).keys
  endKeys ks e (s.updAwg k (fun x => { (rollAwg s.mono x).toOff with span := BitVec.ofNat 2 (fld x.ctrl 16 2) }))

/-- When a start condition lets the first sample fall (R291): IMMEDIATE two cycles on; TIME at its stamp, or with stamp 0 at the
first SCLK cycle 20 µs on (R142); TRIGGER not yet. -/
def startMoment (s : State) (kind t : Nat) : Option Nat :=
  match kind with
  | 0 => some (nextCycle s 2)
  | 1 =>
    if t = 0 then
      let e := s.now.toNat + leadSteps
      some (s.mono + (cdiv e 256 * 256 - s.now.toNat))
    else some (s.monoOf t)
  | _ => none

/-- The sequencer's event reaches the source and the digitiser (R291, R307): TRIGGER starts fall four cycles later. -/
def triggerStarts (k : Nat) (s : State) : State :=
  let t := nextCycle s 4
  let s := s.updAwg k (fun x => { x with pend := x.pend.map (fun p => { p with startAt := p.startAt.or (some t) }) })
  s.updDig k (fun x => { x with cap := x.cap.map (fun c => if c.pending then { c with startAt := c.startAt.or (some t) } else c) })

/-- A new span (R292): at once while the source is OFF, else through the hold from the next cycle. An earlier change under way
ends SUPERSEDED. -/
def awgSpan (k : Nat) (span : Nat) (key : Option Key) (s : State) : State :=
  let x := s.awg k
  let s := s.updAwg k (fun x => { x with ctrl := setFld x.ctrl 16 2 span })
  if x.eff.mode = 0 then s.updAwg k (fun x => { x with span := BitVec.ofNat 2 span })
  else if x.span.toNat = span ∧ !bit x.stat 2 then s
  else
    endKeys x.spanKey.toList { cls := 6, code := Code.superseded }
      (s.updAwg k (fun x => { x with
        stat := setBit x.stat 2 true, spanKey := key, spanAt := nextCycle s 1 + 800 * eclkSteps }))

/-- PLAY runs in the bank other than the one named: the request is a bank switch (R288). -/
def isSwitch (x : Awg) (mode : Nat) (bank : Bool) : Bool :=
  x.eff.mode == 2 && x.pend.isNone && mode == 2 && x.eff.bank != bank

/-- The checks of a request for a mode (R284, R288, R294). `who` is 1 for an engine, 2 for a command. -/
def awgChecks (who k mode : Nat) (bank : Bool) (s : State) : List (Option Reason) :=
  let x := s.awg k
  [when? (x.holder != 0 && x.holder != who) (rState Code.anaHeld k),
   when? (x.mode == 0 && mode != 0 && bit x.stat 3) (rState Code.safed k),
   when? (mode == 2 && !x.bankValid bank) (rState Code.bankEmpty k),
   when? (isSwitch x mode bank && x.bankPend.isSome) (rState Code.bankPending k)]

/-- A request for a mode, its parameters standing in the registers but MODE, BANK, LOOP and START (R288, R291): a bank switch at
the end of the pass, or a start. A request that it takes the place of ends SUPERSEDED. -/
def awgRequest (who k mode : Nat) (bank loop : Bool) (kind t : Nat) (reset : Bool) (key : Option Key) (s : State) : State :=
  let x := s.awg k
  let ctrl := setFld (setFld (setFld x.ctrl 8 2 kind) 0 3 mode) 20 2 (if x.holder = 0 then (if mode = 0 then 0 else who) else x.holder)
  let ctrl := if mode = 2 then setBit (setBit ctrl 4 bank) 3 loop else ctrl
  if isSwitch x mode bank then
    s.updAwg k (fun x => { x with ctrl := ctrl, stat := setBit x.stat 8 true, bankPend := some key })
  else
    endKeys ((x.pend.bind (·.key)).toList) { cls := 6, code := Code.superseded }
      (s.updAwg k (fun x => { x with
        ctrl := ctrl, stat := setBit x.stat 7 true
        pend := some { key := key, timed := kind == 1, phaseReset := reset && mode == 3, startAt := startMoment s kind t } }))

/-! ## Digitiser (R295, R296) -/

def Dig.decim (x : Dig) : Nat := fld x.ctrl 8 4
/-- Fine steps between samples: 2 SCLK cycles times 2^DECIM. -/
def Dig.step (x : Dig) : Nat := 512 * 2 ^ x.decim
/-- Class 2 units of a capture or acquisition: 3.2 GB/s / 2^DECIM. -/
def Dig.units (x : Dig) : Nat := cdiv 32 (2 ^ x.decim)
/-- CFG of a header (R298): RANGE, FILT, TERM. -/
def Dig.cfgByte (x : Dig) : Nat := fld x.ctrl 16 2 + fld x.ctrl 14 2 * 4 + (bit x.ctrl 13).toNat * 16
/-- A capture or acquisition runs. -/
def Dig.busy (x : Dig) : Bool := x.cap.isSome || x.acq.isSome

/-- A raw sample is over-range (R295). -/
def rawOvr (b : BitVec 12) : Bool := b == 0x800#12 || b == 0x7FF#12

/-- The container of the raw samples of one mean (R296). -/
def container (l : List (BitVec 12)) : BitVec 16 :=
  let v := roundAway ((l.map (fun b => 8 * toSigned 12 b.toNat)).foldl (· + ·) 0) (max 1 l.length)
  BitVec.ofNat 16 (ofSigned 15 v * 2 + (l.any rawOvr).toNat)

/-- The containers of raw samples, `m` to a mean; a part of a mean at the end gives none. `n` bounds their number. -/
def containers (m : Nat) : Nat → List (BitVec 12) → List (BitVec 16)
  | 0, _ => []
  | n + 1, l => if l.length < m then [] else container (l.take m) :: containers m n (l.drop m)

/-- Bytes of containers. -/
def sampleBytes (l : List (BitVec 16)) : List Byte := l.flatMap (fun v => leBytes 2 v.toNat)

/-- The reference went absent: captures and acquisitions note it (R299, R320). -/
def digRefAbsent (s : State) : State :=
  { s with bays := Tab.mapVals s.bays (fun _ b =>
      let d := b.dig
      { b with dig := { d with
          cap := d.cap.map (fun c => if c.pending then c else { c with refAbsent := true, qual := c.qual.or (some (BitVec.ofNat 12 Code.refAbsent)) })
          acq := d.acq.map (fun a => { a with refAbsent := true, qual := a.qual.or (some (BitVec.ofNat 12 Code.refAbsent)) }) } }) }

/-- Removes a capture: CAPTURING clears, reservation released, the buffer stays allocated (R93, R299). -/
def dropDigCap (k : Nat) (c : DigCap) (s : State) : State :=
  let x := s.dig k
  let s := s.updDig k (fun x => { x with cap := none, stat := setBit x.stat 1 false })
  bufDone c.first (release2 (stackOf s c.first) x.units s)

/-- Ends a capture without its samples (R299: fence, reset). -/
def endDigCap (k : Nat) (e : EndWith) (s : State) : State :=
  match (s.dig k).cap with
  | none => s
  | some c =>
    let s := endKeys c.stopped.toList { cls := 0, code := 0 } s
    completeBad c.key e.cls e.code e.detail (dropDigCap k c s)

end Sys2Proof.Machine
end

