-- ==== Sys2Proof/Machine/Ana.lean ====
section
/-!
DEFINITION. The ANA commands (R373), the registers (R303) and the events of the bay waveform source and digitiser.
-/
namespace Sys2Proof.Machine

/-- The bay of a target at bay scope. -/
def Target.bayNo : Target → Nat
  | .bay k => k
  | _ => 0

/-- The bay that a command at bay scope names. -/
def bayArg (c : Cmd) : Nat := (c.target.getD .device).bayNo

/-! ## ANA.LOAD (R288) -/

/-- The slot checks of ANA.LOAD: ADDR_RANGE and REGION (format), SEG_STATE (state). -/
def readySlot (s : State) (slot : Nat) : List (Option Reason) :=
  [slotFenceCheck s slot, segStateBad s slot [2]]

/-- ANA.LOAD (R288, R373): copies LEN samples into a bank and checks their CRC; a copy that fails leaves the bank invalid. -/
def doAnaLoad (c : Cmd) (s : State) : State :=
  let k := bayArg c
  let b := c.u 0 1 == 1
  let slot := c.u 4 4
  let n := c.u 8 4
  runCmd { op := 0x900, scopes := 4 } c
    (fun s _ => [lenCheck c 16, rng c 0 1 0 1, rsv c 1 3, segSlot s slot 4,
      rngIf (n % 8 != 0 || decide (n < 8) || decide (131072 < n)) 8])
    (fun s _ => fenceCheck s [] [k] :: readySlot s slot ++
      [when? (((s.awg k).eff.mode == 2 && (s.awg k).eff.bank == b) ||
          ((s.awg k).bankPend.isSome && (s.awg k).eff.bank != b)) (rState Code.bankActive k)])
    (fun _ s =>
      let a := slot * slotSize
      let s := useStack c.key slot s
      let s := countUnits 690 a (2 * n) s
      match readUe s a (2 * n) with
      | some u => complete c.key 8 Code.memUe 0 (BitVec.ofNat 32 (32 * u)) (BitVec.ofNat 32 (32 * u / 2 ^ 32)) [] (foundUe u s)
      | none =>
        let l := grnLoad a (2 * n) s
        let ok := crc32c l == BitVec.ofNat 32 (c.u 12 4)
        let reg : Word := BitVec.ofNat 32 (ok.toNat * 2 ^ 31 + n)
        let v := (List.range n).map (fun i => BitVec.ofNat 16 (rdLe l (2 * i) 2))
        let s := s.updAwg k (fun x =>
          if b then { x with bank1 := if ok then reg else setBit x.bank1 31 false, samples1 := v }
          else { x with bank0 := if ok then reg else setBit x.bank0 31 false, samples0 := v })
        if ok then completeOk c.key 0 s else refuse c.key (rFormat Code.anaCrc 12) s) s

/-- ANA.LOAD. -/
def execAnaLoad (c : Cmd) (s : State) : Host.Outcome State Fault Refusal := .next (doAnaLoad c s)

/-! ## ANA.SOURCE, ANA.SOURCE_STOP, ANA.SPAN (R284 to R292) -/

/-- FTW of a frequency in mHz (R289): round(f × 2^48 / 3.2 GHz). -/
def ftwOf (f : Nat) : BitVec 48 := BitVec.ofNat 48 (roundDiv ((f * 2 ^ 48 : Nat) : Int) 3200000000000).toNat

/-- The parameters of the mode go into the registers (R291). -/
def awgParams (c : Cmd) (x : Awg) : Awg :=
  match c.u 0 1 with
  | 1 => { x with level := setFld x.level 0 16 (c.u 4 2) }
  | 3 => { x with amp := halves (c.u 8 2) (c.u 6 2), poff := BitVec.ofNat 32 (c.u 10 2), ftw := ftwOf (c.u 0x10 8) }
  | _ => x

/-- ANA.SOURCE (R284 to R292, R373): completes at its first sample, or after its pass in PLAY with LOOP = 0. -/
def doAnaSource (c : Cmd) (s : State) : State :=
  let k := bayArg c
  let mode := c.u 0 1
  let kind := c.u 2 1
  let bank := (c.u 3 1).testBit 0
  runCmd { op := 0x901, scopes := 4 } c
    (fun _ _ => [lenCheck c 40, rng c 0 1 0 3, rng c 1 1 0 3, rng c 2 1 0 2, rng c 3 1 0 7, rng c 6 2 0 32767,
      when? (mode == 3 && decide (1200000000000 < c.u 0x10 8)) (rFormat Code.anaFreq 0x10), timeRsv c 0x18])
    (fun s _ => fenceCheck s [] [k] :: awgChecks 2 k mode bank s ++ (if kind = 1 then timeChecks s (c.time 0x18) leadSteps else []))
    (fun _ s =>
      let s := s.updAwg k (awgParams c)
      let s := if kind = 1 then
          s.updAwg k (fun x => { x with tstart := BitVec.ofNat 64 (c.u 0x18 8), tstartEp := BitVec.ofNat 32 (c.u 0x20 2) }) else s
      let s := if c.u 1 1 = fld (s.awg k).ctrl 16 2 then s else awgSpan k (c.u 1 1) none s
      awgRequest 2 k mode bank ((c.u 3 1).testBit 1) kind (c.time 0x18) ((c.u 3 1).testBit 2) (some c.key) s) s

/-- ANA.SOURCE. -/
def execAnaSource (c : Cmd) (s : State) : Host.Outcome State Fault Refusal := .next (doAnaSource c s)

/-- ANA.SOURCE_STOP (R291, R292): OFF at the next ECLK boundary; what waits on the source ends ABORTED, STOPPED. -/
def doAnaSourceStop (c : Cmd) (s : State) : State :=
  let k := bayArg c
  runCmd { op := 0x902, scopes := 4 } c
    (fun _ _ => [lenCheck c 0])
    (fun s _ => [fenceCheck s [] [k], when? ((s.awg k).holder == 1) (rState Code.anaHeld k)])
    (fun _ s => completeOk c.key 0 (awgOff k { cls := 6, code := Code.stopped } (advanceMono (nextCycle s 1) s))) s

/-- ANA.SOURCE_STOP. -/
def execAnaSourceStop (c : Cmd) (s : State) : Host.Outcome State Fault Refusal := .next (doAnaSourceStop c s)

/-- ANA.SPAN (R292): completes with the stamp of the first sample at the new span. -/
def doAnaSpan (c : Cmd) (s : State) : State :=
  let k := bayArg c
  runCmd { op := 0x903, scopes := 4 } c
    (fun _ _ => [lenCheck c 8, rng c 0 1 0 3, rsv c 1 7])
    (fun s _ => [fenceCheck s [] [k], when? ((s.awg k).holder == 1) (rState Code.anaHeld k)])
    (fun _ s =>
      let s := awgSpan k (c.u 0 1) (some c.key) s
      if (s.awg k).spanKey = some c.key then s else completeOk c.key s.stamp.toNat s) s

/-- ANA.SPAN. -/
def execAnaSpan (c : Cmd) (s : State) : Host.Outcome State Fault Refusal := .next (doAnaSpan c s)

/-! ## Events of the source -/

/-- AWG_START (R290, R291): the first sample of the new mode; a PLAY with LOOP = 0 completes after its pass. -/
def doAwgStart (k : Nat) (s : State) : State :=
  match (s.awg k).pend with
  | none => s
  | some p =>
    match p.startAt with
    | none => s
    | some t =>
      let s := advanceMono t s
      let x := rollAwg s.mono (s.awg k)
      let r := x.asked
      if r.mode = 0 then
        (p.key.toList).foldl (fun s q => completeOk q s.stamp.toNat s)
          (awgOff k { cls := 6, code := Code.superseded } (s.updAwg k (fun _ => { x with pend := none })))
      else
        let old := x.holdKey
        let once := r.mode == 2 && !r.loop
        let s := s.updAwg k (fun _ => { x with
          eff := r, acc := if p.phaseReset then 0 else x.acc, runAt := t, pend := none, bankPend := none
          stat := setBit (setFld (setBit x.stat 0 false) 7 2 0) 9 (r.mode == 2 && r.bank)
          holdKey := if once then p.key else none })
        let s := endKeys (old.toList ++ (x.bankPend.bind id).toList) { cls := 6, code := Code.superseded } s
        if once then s else (p.key.toList).foldl (fun s q => completeOk q s.stamp.toNat s) s

/-- AWG_START. -/
def execAwgStart (k : Fin 16) (s : State) : Host.Outcome State Fault Refusal := .next (doAwgStart k.val s)

/-- AWG_PASS_END (R288): at the end of a PLAY pass the pending bank takes over without a gap, or the pass repeats, or the source
returns to OFF and the command completes with the stamp of its first sample (R373). -/
def doAwgPassEnd (k : Nat) (s : State) : State :=
  let x := s.awg k
  if x.eff.mode = 2 ∧ !bit x.stat 0 then
    let t := x.runAt + x.bankLen x.eff.bank * awgStep
    let s := advanceMono t s
    let first := ((s.fullAt x.runAt).setWidth 64).toNat
    match x.bankPend with
    | some key =>
      let r := x.eff
      let loop := bit x.ctrl 3
      let s := s.updAwg k (fun x => { x with
        eff := { r with bank := !r.bank, loop := loop }, runAt := t, bankPend := none
        stat := setBit (setBit x.stat 8 false) 9 (!r.bank), holdKey := if loop then none else key })
      let s := x.holdKey.toList.foldl (fun s q => completeOk q first s) s
      if loop then key.toList.foldl (fun s q => completeOk q s.stamp.toNat s) s else s
    | none =>
      if x.eff.loop then s.updAwg k (fun x => { x with runAt := t })
      else
        let s := x.holdKey.toList.foldl (fun s q => completeOk q first s) (s.updAwg k (fun x => { x with holdKey := none }))
        match (s.awg k).pend with
        | none => awgOff k { cls := 6, code := Code.stopped } s
        | some _ => s.updAwg k (fun x => { x with eff := { x.eff with mode := 0 } })
  else s

/-- AWG_PASS_END. -/
def execAwgPassEnd (k : Fin 16) (s : State) : Host.Outcome State Fault Refusal := .next (doAwgPassEnd k.val s)

/-- SPAN_HOLD_END (R292): 800 cycles after E the new span is in force and the command completes. -/
def doSpanHoldEnd (k : Nat) (s : State) : State :=
  let x := s.awg k
  if bit x.stat 2 then
    let s := advanceMono x.spanAt s
    let s := s.updAwg k (fun x => { x with
      stat := setBit x.stat 2 false, span := BitVec.ofNat 2 (fld x.ctrl 16 2), spanKey := none })
    x.spanKey.toList.foldl (fun s q => completeOk q s.stamp.toNat s) s
  else s

/-- SPAN_HOLD_END. -/
def execSpanHoldEnd (k : Fin 16) (s : State) : Host.Outcome State Fault Refusal := .next (doSpanHoldEnd k.val s)

/-- AWG_LEG_LIMIT (R294): a leg reaches its current limit; the onset is counted and raised. -/
def doAwgLegLimit (k : Nat) (s : State) : State :=
  raise (srcAna k) 0 0 (s.updAwg k (fun x => { x with
    stat := setBit (setBit x.stat 4 true) 5 true, shorts := satInc x.shorts, limitAt := s.mono }))

/-- AWG_LEG_LIMIT. -/
def execAwgLegLimit (k : Fin 16) (s : State) : Host.Outcome State Fault Refusal := .next (doAwgLegLimit k.val s)

/-- ANA_SHORT_SAFE (R294): 100 µs of limit; the source is safed and its command completes OK_QUALIFIED, ANA_SHORT. -/
def doAnaShortSafe (k : Nat) (s : State) : State :=
  let x := s.awg k
  if bit x.stat 4 then
    let s := advanceMono (x.limitAt + 100 * usSteps) s
    awgOff k { cls := 1, code := Code.anaShort } (s.updAwg k (fun x => { x with stat := setBit x.stat 3 true }))
  else s

/-- ANA_SHORT_SAFE. -/
def execAnaShortSafe (k : Fin 16) (s : State) : Host.Outcome State Fault Refusal := .next (doAnaShortSafe k.val s)

/-! ## Registers of the source (R303) -/

/-- Who an agent is to a holder (R284). -/
def agentWho : Agent → Nat
  | .host _ => 2
  | .engine _ => 1

/-- ANA_HELD (R284). -/
def anaHeld (a : Agent) (k : Nat) (s : State) : Option Reason :=
  when? ((s.awg k).holder != 0 && (s.awg k).holder != agentWho a) (rState Code.anaHeld k)

/-- A new FTW, AMP, OFS or POFF takes effect at the first sample of the next ECLK cycle, phase-continuously (R290). A source
whose start is pending takes them there. -/
def ddsEffect (k : Nat) (f : Awg → Awg) (s : State) : State :=
  if (s.awg k).eff.mode = 3 ∧ (s.awg k).pend.isNone then
    let s := advanceMono (nextCycle s 1) s
    s.updAwg k (fun x =>
      let y := f (rollAwg s.mono x)
      let r := y.eff
      { y with eff := { r with amp := y.amp, poff := BitVec.ofNat 16 (fld y.poff 0 16), ftw := y.ftw } })
  else s.updAwg k f

/-- A write of AWG_AMP, AWG_FTW_LO, AWG_FTW_HI or AWG_POFF (R289, R290). -/
def writeAwgDds (a : Agent) (k : Nat) (r : DdsReg) (v : Word) (s : State) : WRes :=
  let ok (f : Awg → Awg) : WRes := guarded [bayRegReach s k, anaHeld a k s] (.done (ddsEffect k f s))
  match r with
  | .amp => guarded [when? (decide (32767 < fld v 0 16)) (badField 0)] (ok (fun x => { x with amp := v }))
  | .ftwLo => ok (fun x => { x with ftw := setFld x.ftw 0 32 v.toNat })
  | .ftwHi => ok (fun x => { x with ftw := setFld x.ftw 32 16 (fld v 0 16) })
  | .poff => ok (fun x => { x with poff := v &&& 0xFFFF#32 })

/-- The offset of a register (R303). -/
def ddsOff : DdsReg → Nat
  | .amp => 0x0C
  | .ftwLo => 0x10
  | .ftwHi => 0x14
  | .poff => 0x18

/-- AWG_DDS_WRITE. -/
def execAwgDdsWrite (a : Agent) (k : Fin 16) (r : DdsReg) (v : BitVec 32) (s : State) : Host.Outcome State Fault Refusal :=
  .next (regRow (.awg k.val (ddsOff r)) v a (fun e _ => engBayUnit e k.val) (writeAwgDds a k.val r v) s)

/-- A write of AWG_CTRL (R284, R287, R291, R292): a new span; MODE OFF stops the source; a new MODE, BANK or START asks for a
start. -/
def writeAwgCtrl (a : Agent) (k : Nat) (v : Word) (s : State) : WRes :=
  let x := s.awg k
  let mode := fld v 0 3
  let kind := fld v 8 2
  let t := x.tstart.toNat + fld x.tstartEp 0 16 * 2 ^ 64
  let same := mode == x.mode && kind == fld x.ctrl 8 2 && bit v 4 == bit x.ctrl 4
  guarded ([when? (decide (3 < mode)) (badField 0), when? (kind == 3) (badField 8), bayRegReach s k]
      ++ (if mode = 0 then [anaHeld a k s] else awgChecks (agentWho a) k mode (bit v 4) s)
      ++ (if mode ≠ 0 ∧ kind = 1 ∧ !same then timeChecks s t leadSteps else []))
    (.done
      (let s := if fld v 16 2 = fld x.ctrl 16 2 then s else awgSpan k (fld v 16 2) none s
       let s := s.updAwg k (fun x => { x with ctrl := setBit (setBit (setFld x.ctrl 8 2 kind) 4 (bit v 4)) 3 (bit v 3) })
       if mode = 0 then (if x.mode = 0 then s else awgOff k { cls := 6, code := Code.stopped } (advanceMono (nextCycle s 1) s))
       else if same then s.updAwg k (fun x => { x with eff := { x.eff with loop := bit v 3 } })
       else awgRequest (agentWho a) k mode (bit v 4) (bit v 3) kind t false none s))

/-- A write of a register of the source at an offset from 0x6000 (R303). -/
def writeAwgReg (a : Agent) (k off : Nat) (v : Word) (s : State) : WRes :=
  let reach := [bayRegReach s k, anaHeld a k s]
  let put (f : Awg → Awg) : WRes := guarded reach (.done (s.updAwg k f))
  match off with
  | 0x00 => writeAwgCtrl a k v s
  | 0x04 => guarded [bayRegReach s k]
      (.done (s.updAwg k (fun x => { x with stat := x.stat &&& ~~~(v &&& (if agentIsHost a then 0x68#32 else 0x60#32)) })))
  | 0x08 =>
    guarded [when? (decide (fld v 16 16 < 0x2710) || decide (0x7530 < fld v 16 16)) (badField 16)]
      (put (fun x => { x with level := v, eff := { x.eff with dc := if x.pend.isNone then BitVec.ofNat 16 (fld v 0 16) else x.eff.dc } }))
  | 0x0C => writeAwgDds a k .amp v s
  | 0x10 => writeAwgDds a k .ftwLo v s
  | 0x14 => writeAwgDds a k .ftwHi v s
  | 0x18 => writeAwgDds a k .poff v s
  | 0x30 => put (fun x => { x with tstart := setFld x.tstart 0 32 v.toNat })
  | 0x34 => put (fun x => { x with tstart := setFld x.tstart 32 32 v.toNat })
  | 0x38 => put (fun x => { x with tstartEp := v &&& 0xFFFF#32 })
  | _ => guarded [bayRegReach s k] (.done s)

/-! ## The digitiser (R295 to R299, R303) -/

/-- A write of a register of the digitiser at an offset from 0x6400 (R297, R303). -/
def writeDigReg (k off : Nat) (v : Word) (s : State) : WRes :=
  let busy := when? (s.dig k).busy (rState Code.anaBusy k)
  match off with
  | 0x00 =>
    guarded [when? (fld v 16 2 == 3) (badField 16), when? (decide (8 < fld v 8 4)) (badField 8), bayRegReach s k, busy]
      (.done (s.updDig k (fun x => { x with ctrl := v &&& 0x0003FF00#32 })))
  | 0x04 => guarded [bayRegReach s k, busy] (.done (s.updDig k (fun x => { x with dly := v &&& 0x1FF#32 })))
  | 0x08 => guarded [bayRegReach s k] (.done (s.updDig k (fun x => { x with stat := x.stat &&& ~~~(v &&& 0xC#32) })))
  | _ => guarded [bayRegReach s k] (.done s)

/-- A capture takes its first sample (R297, R298): its start stamp with DIG_DLY, the tags in force. -/
def digStart (k : Nat) (t : Nat) (s : State) : State :=
  match (s.dig k).cap with
  | none => s
  | some c =>
    let x := s.dig k
    let d := { c with
      pending := false, startMono := t, start := BitVec.ofNat 80 (s.now.toNat + t - s.mono + fld x.dly 0 9)
      w3 := s.w3Of c.key, refAbsent := s.refAbsent
      qual := if s.refAbsent then some (BitVec.ofNat 12 Code.refAbsent) else none }
    s.updDig k (fun x => { x with cap := some d })

/-- ANA.CAPTURE (R297, R373). -/
def doAnaCapture (c : Cmd) (s : State) : State :=
  let k := bayArg c
  let b := bufOf c 8
  let kind := c.u 0 1
  runCmd { op := 0x904, scopes := 4 } c
    (fun s _ => [lenCheck c 56, rng c 0 1 0 2, rsv c 1 7, bufField c 8 1 1024, timeRsv c 0x18, timeRsv c 0x28,
      when? ((c.u 0x10 8 == 0) == (c.time 0x28 == 0)) (rFormat Code.anaParam 0x10), bufRange s b])
    (fun s _ => [fenceCheck s [] [k], bufFence s b, bufFree s b, when? (s.dig k).busy (rState Code.anaBusy k)]
      ++ (if kind = 1 then timeChecks s (c.time 0x18) leadSteps else [])
      ++ [when? (decide (b.size < 8192)) (rResource Code.capSmall), rsvCheck s (stackOf s b.first) (s.dig k).units])
    (fun _ s =>
      let s := useStack c.key b.first (useBays c.key [k] (releaseWork c.key s))
      let s := reserve2 (stackOf s b.first) (s.dig k).units (allocBuf b s)
      let t := startMoment s kind (c.time 0x18)
      let cap : DigCap := { key := c.key, first := b.first, count := b.count, wrap := b.wrap, pending := true
                            startKind := BitVec.ofNat 2 kind, startAt := t, limit := c.u 0x10 8, endAt := c.time 0x28 }
      let s := s.updDig k (fun x => { x with cap := some cap, stat := setBit x.stat 1 true })
      if kind = 0 then digStart k (t.getD s.mono) s else s) s

/-- ANA.CAPTURE. -/
def execAnaCapture (c : Cmd) (s : State) : Host.Outcome State Fault Refusal := .next (doAnaCapture c s)

/-- DIG_CAPTURE_START (R297): a TIME or TRIGGER start comes. -/
def doDigCaptureStart (k : Nat) (s : State) : State :=
  match (s.dig k).cap with
  | none => s
  | some c =>
    if !c.pending then s
    else
      match c.startAt with
      | none => s
      | some t => digStart k t (advanceMono t s)

/-- DIG_CAPTURE_START. -/
def execDigCaptureStart (k : Fin 16) (s : State) : Host.Outcome State Fault Refusal := .next (doDigCaptureStart k.val s)

/-- Entries of a capture buffer (R298). -/
def DigCap.entries (c : DigCap) : Nat := (c.count * slotSize - 64) / 2

/-- The samples that a capture takes until it ends (R299): at its count, at its end time, or at the stop. -/
def digTaken (s : State) (k : Nat) (c : DigCap) : Nat :=
  let step := (s.dig k).step
  let upTo (m : Nat) : Nat := if m < c.startMono then 0 else (m - c.startMono) / step + 1
  if c.limit = 0 then upTo (s.monoOf c.endAt)
  else if c.stopped.isSome then min c.limit (upTo (s.monoOf c.endAt)) else c.limit

/-- The samples written to the buffer (R298): their entry numbers and containers. -/
def digEntries (c : DigCap) (l : List (BitVec 16)) : List (Nat × BitVec 16) :=
  let n := c.entries
  if c.wrap then
    let k := l.length - n
    (List.range (l.length - k)).map (fun i => ((k + i) % n, l.getD (k + i) 0))
  else (List.range (min n l.length)).map (fun i => (i, l.getD i 0))

/-- The header of a capture (R298). -/
def digHeader (s : State) (k : Nat) (c : DigCap) (taken : Nat) (flags : Nat) : List Byte :=
  let x := s.dig k
  padTo 64 (leBytes 2 k ++ leBytes 1 flags ++ leBytes 1 x.decim ++ leBytes 4 c.w3.toNat ++ leBytes 2 (c.start.toNat / 2 ^ 64)
    ++ leBytes 1 x.cfgByte ++ leBytes 5 0 ++ leBytes 8 (c.start.toNat % 2 ^ 64)
    ++ leBytes 8 ((c.start.toNat + (taken - 1) * x.step) % 2 ^ 64) ++ leBytes 8 taken
    ++ leBytes 8 (if c.wrap then 0 else taken - c.entries) ++ leBytes 2 s.ce.toNat)

/-- A capture ends with its samples (R298, R299). -/
def endDigital (k : Nat) (c : DigCap) (l : List (BitVec 16)) (clamped : Bool) (s : State) : State :=
  let ovr := l.any (fun v => bit v 0)
  let full := !c.wrap && decide (c.entries < l.length)
  let flags := full.toNat + c.wrap.toNat * 2 + c.refAbsent.toNat * 4 + ovr.toNat * 8 + clamped.toNat * 16
  let late : Option Nat :=
    if (l.take c.entries).any (fun v => bit v 0) ∨ (ovr ∧ !full) then some Code.ovr
    else if clamped then some Code.clamped
    else if full then some Code.logFull else none
  let q := (c.qual.map BitVec.toNat).or late
  let s := s.updDig k (fun x => { x with
    stat := setBit (setBit x.stat 2 (bit x.stat 2 || ovr)) 3 (bit x.stat 3 || clamped)
    last := BitVec.ofNat 32 ((l.getLast?.map BitVec.toNat).getD (fld x.last 0 16)) })
  let a := c.first * slotSize
  let s := grnStore a (digHeader s k c l.length flags) s
  let s :=
    if c.wrap then (digEntries c l).foldl (fun s e => grnStore (a + 64 + 2 * e.1) (leBytes 2 e.2.toNat) s) s
    else grnStore (a + 64) (sampleBytes (l.take c.entries)) s
  let s := dropDigCap k c s
  let w6 : Word := BitVec.ofNat 32 a
  let w7 : Word := BitVec.ofNat 32 (a / 2 ^ 32)
  match c.stopped with
  | some q' => completeOk q' 0 (complete c.key 6 Code.stopped 0 w6 w7 [] s)
  | none => complete c.key (if q.isSome then 1 else 0) (q.getD 0) 0 w6 w7 [] s

/-- ANA_CAPTURE_END (R296 to R299): `samples` are the raw samples taken. -/
def doAnaCaptureEnd (k : Nat) (samples : List (BitVec 12)) (clamped : Bool) (s : State) : State :=
  match (s.dig k).cap with
  | none => s
  | some c =>
    if c.pending then s
    else
      let x := s.dig k
      let l := containers (2 ^ x.decim) (digTaken s k c) samples
      let s := advanceMono (c.startMono + (l.length - 1) * x.step) s
      endDigital k c l clamped s

/-- ANA_CAPTURE_END. -/
def execAnaCaptureEnd (k : Fin 16) (samples : List (BitVec 12)) (clamped : Bool) (s : State) : Host.Outcome State Fault Refusal :=
  .next (doAnaCaptureEnd k.val samples clamped s)

/-- ANA.CAPTURE_STOP (R299, R373): a capture not yet started ends at once; a running one ends with the samples taken. -/
def doAnaCaptureStop (c : Cmd) (s : State) : State :=
  let k := bayArg c
  runCmd { op := 0x905, scopes := 4 } c
    (fun _ _ => [lenCheck c 0])
    (fun s _ => [fenceCheck s [] [k], when? (s.dig k).cap.isNone (rState Code.notRunning k)])
    (fun _ s =>
      match (s.dig k).cap with
      | none => s
      | some d =>
        let d := { d with stopped := some c.key, endAt := if d.limit = 0 then min d.endAt s.now.toNat else s.now.toNat }
        if d.pending then endDigital k { d with start := s.now } [] false s
        else s.updDig k (fun x => { x with cap := some d })) s

/-- ANA.CAPTURE_STOP. -/
def execAnaCaptureStop (c : Cmd) (s : State) : Host.Outcome State Fault Refusal := .next (doAnaCaptureStop c s)

end Sys2Proof.Machine
end

