-- ==== Sys2Proof/Machine/Pin.lean ====
section
/-!
DEFINITION. The meanings of the PIN commands and of the events of the pin channel (R37 to R64, R76 to R80, R369).
-/
namespace Sys2Proof.Machine

/-- Scopes device, bay, slice and site (R369). -/
def scopesDBLS : Nat := 29

/-- The state checks of a PIN command on every named pin: reach, fence, STREAM_ACTIVE, then `more` (R360, R369). -/
def pinChecks (c : Cmd) (more : State → Nat → List (Option Reason)) (s : State) (t : Target) : List (Option Reason) :=
  [eachPin (pinsNamed s t (c.u 0 2)) (fun p => firstFail ([pinReach s t p, streamCheck s p] ++ more s p))]

/-- Writes several DACs of several pins as one change (R369). The command completes once the changed DACs have settled,
at once when none changes (R44). -/
def dacCommand (c : Cmd) (f : Pin → Pin) (t : Target) (s : State) : State :=
  let ps := pinsNamed s t (c.u 0 2)
  let changed := ps.filter (fun p => f (s.pin p) ≠ s.pin p)
  let s := useBays c.key (ps.map (· / 16)) s
  if changed.isEmpty then completeOk c.key 0 s
  else forAll changed (fun p s => startSettle (some c.key) p (s.updPin p f)) s

/-- A voltage parameter as a code. -/
def codeAt (c : Cmd) (o : Nat) : Nat := (codeOfUv (c.i o 4)).toNat

/-- Replaces the low or the high half of a word when the mask bit is set. -/
def maskHalf (m : Bool) (hi : Bool) (v : Nat) (w : Word) : Word := if m then setFld w (if hi then 16 else 0) 16 v else w

/-- PIN.LEVELS (R369): drive levels, VTT and VCOM as one change. -/
def levelsOf (c : Cmd) (x : Pin) : Pin :=
  let m := c.u 2 1
  { x with
    lvl01 := maskHalf (m.testBit 1) true (codeAt c 12) (maskHalf (m.testBit 0) false (codeAt c 8) x.lvl01)
    lvl23 := maskHalf (m.testBit 3) true (codeAt c 20) (maskHalf (m.testBit 2) false (codeAt c 16) x.lvl23)
    vtvc := maskHalf (m.testBit 5) true (codeAt c 28) (maskHalf (m.testBit 4) false (codeAt c 24) x.vtvc) }

/-- PIN.LEVELS (R369). -/
def doPinLevels (c : Cmd) (s : State) : State :=
  runCmd { op := 0x500, scopes := scopesDBLS } c
    (fun s t => [lenCheck c 32, pinField c s t 0, rng c 2 1 0 63, rsv c 3 5] ++
      (List.range 6).map (fun i => rngIf ((c.u 2 1).testBit i && !levelOk (codeOfUv (c.i (8 + 4 * i) 4))) (8 + 4 * i)))
    (pinChecks c (fun _ _ => [])) (dacCommand c (levelsOf c)) s

/-- PIN.LEVELS. -/
def execPinLevels (c : Cmd) (s : State) : Host.Outcome State Fault Refusal := .next (doPinLevels c s)

/-- The threshold triple of PIN.THRESH, staged and committed together (R48, R369). -/
def threshOf (c : Cmd) (x : Pin) : Pin :=
  let ab := halves (codeAt c 12) (codeAt c 8)
  { x with thabStaged := ab, thab := ab, thc := halves 0 (codeAt c 16) }

/-- PIN.THRESH (R369). -/
def doPinThresh (c : Cmd) (s : State) : State :=
  runCmd { op := 0x501, scopes := scopesDBLS } c
    (fun s t => [lenCheck c 24, pinField c s t 0, rsv c 2 6, rngIf (!threshOk (codeOfUv (c.i 8 4))) 8,
      rngIf (!threshOk (codeOfUv (c.i 12 4))) 12, rngIf (!threshOk (codeOfUv (c.i 16 4))) 16, rsv c 20 4,
      when? (!threshOrder (codeAt c 8) (codeAt c 12) (codeAt c 16)) (rFormat Code.threshOrder)])
    (pinChecks c (fun _ _ => [])) (dacCommand c (threshOf c)) s

/-- PIN.THRESH. -/
def execPinThresh (c : Cmd) (s : State) : Host.Outcome State Fault Refusal := .next (doPinThresh c s)

/-- A load current in pA as the nearest 6 µA code, halves up (R369). -/
def loadCode (pa : Int) : Nat := (roundDiv pa 6000000).toNat

/-- PIN.LOAD (R369). -/
def doPinLoad (c : Cmd) (s : State) : State :=
  runCmd { op := 0x502, scopes := scopesDBLS } c
    (fun s t => [lenCheck c 24, pinField c s t 0, rsv c 2 6, rngS c 8 8 0 24000000000, rngS c 16 8 0 24000000000])
    (pinChecks c (fun _ _ => []))
    (dacCommand c (fun x => { x with loadi := halves (loadCode (c.i 8 8)) (loadCode (c.i 16 8)) })) s

/-- PIN.LOAD. -/
def execPinLoad (c : Cmd) (s : State) : Host.Outcome State Fault Refusal := .next (doPinLoad c s)

/-- PIN.CLAMP (R369). -/
def doPinClamp (c : Cmd) (s : State) : State :=
  runCmd { op := 0x503, scopes := scopesDBLS } c
    (fun s t => [lenCheck c 16, pinField c s t 0, rsv c 2 2, rngIf (!threshOk (codeOfUv (c.i 4 4))) 4,
      rngIf (!threshOk (codeOfUv (c.i 8 4))) 8, rsv c 12 4,
      when? (decide (codeAt c 8 < codeAt c 4 + clampGap)) (rFormat Code.clampOrder)])
    (pinChecks c (fun _ _ => [])) (dacCommand c (fun x => { x with clamp := halves (codeAt c 8) (codeAt c 4) })) s

/-- PIN.CLAMP. -/
def execPinClamp (c : Cmd) (s : State) : Host.Outcome State Fault Refusal := .next (doPinClamp c s)

/-- PIN.CTRL (R52, R369): the PIN_CTRL and PIN_SYMCFG images as register writes on every named pin. -/
def doPinCtrl (c : Cmd) (s : State) : State :=
  let v := BitVec.ofNat 32 (c.u 4 4)
  runCmd { op := 0x504, scopes := scopesDBLS } c
    (fun s t => [lenCheck c 16, pinField c s t 0, rsv c 2 2, rngIf (!idleActOk (fld v 0 4)) 4, rsv c 12 4])
    (pinChecks c (fun s p => pinCtrlChecks s p v 4))
    (fun t s =>
      let ps := pinsNamed s t (c.u 0 2)
      completeOk c.key 0 (useBays c.key (ps.map (· / 16)) (forAll ps (fun p s =>
        applyPinCtrl true p v (s.updPin p (fun x => { x with symcfg := BitVec.ofNat 32 (c.u 8 4) &&& 0x3#32 }))) s))) s

/-- PIN.CTRL. -/
def execPinCtrl (c : Cmd) (s : State) : Host.Outcome State Fault Refusal := .next (doPinCtrl c s)

/-- The timing set that PIN.TSET spells (R369). -/
def tsetOf (c : Cmd) : TSet :=
  { cfg := BitVec.ofNat 32 (c.u 3 1 * 65536 + (c.u 4 4 - 1)), drv := BitVec.ofNat 32 (c.u 8 4)
    ret := BitVec.ofNat 32 (c.u 12 4), stb := BitVec.ofNat 32 (c.u 16 4), wcl := BitVec.ofNat 32 (c.u 20 4) }

/-- PIN.TSET (R369): stores the set whether or not it is valid, and reports in W6 whether it is (R78). -/
def doPinTset (c : Cmd) (s : State) : State :=
  runCmd { op := 0x505, scopes := scopesDBLS } c
    (fun s t => [lenCheck c 24, pinField c s t 0, rng c 2 1 0 15, rng c 3 1 0 2, rng c 4 4 2 65536,
      rng c 8 4 0 33554431, rng c 12 4 0 33554431, rng c 16 4 0 33554431, rng c 20 4 0 33554431])
    (pinChecks c (fun _ _ => []))
    (fun t s =>
      let ps := pinsNamed s t (c.u 0 2)
      completeOk c.key (tsetOf c).valid.toNat (useBays c.key (ps.map (· / 16)) (forAll ps (fun p s =>
        s.updPin p (fun x => { x with sets := Tab.set x.sets (c.u 2 1) (tsetOf c) })) s))) s

/-- PIN.TSET. -/
def execPinTset (c : Cmd) (s : State) : Host.Outcome State Fault Refusal := .next (doPinTset c s)

/-- The command waits for no other pin's DACs. -/
def settledElsewhere (k : Key) (s : State) : Bool := !(s.pins.any (fun e => e.2.settling.contains k))

/-- DAC_SETTLED (R44): SETTLING clears, and every write that waited for this pin alone completes. -/
def doDacSettled (p : Nat) (s : State) : State :=
  let ks := (s.pin p).settling
  let s := s.updPin p (fun x => { x with stat := setBit x.stat 8 false, settling := [] })
  ks.foldl (fun s k => if settledElsewhere k s then completeOk k 0 s else s) s

/-- DAC_SETTLED. -/
def execDacSettled (p : Fin 256) (s : State) : Host.Outcome State Fault Refusal := .next (doDacSettled p.val s)

/-- PIN_CTRL_WRITE (R52). -/
def execPinCtrlWrite (a : Agent) (p : Fin 256) (v : BitVec 32) (s : State) : Host.Outcome State Fault Refusal :=
  .next (regRow (.pin p.val 0x20) v a (fun e s => engPin s e p.val) (writePinCtrl a p.val v) s)

/-- PIN_THC_WRITE (R48). -/
def execPinThcWrite (a : Agent) (p : Fin 256) (v : BitVec 32) (s : State) : Host.Outcome State Fault Refusal :=
  .next (regRow (.pin p.val 0x0C) v a (fun e s => engPin s e p.val) (writePinThc a p.val v) s)

/-- VPE is present: the pin has power (R56, R500). -/
def Pin.powered (x : Pin) : Bool := !bit x.stat 1

/-- CLAMP_CONDUCT (R56): CLAMP_HI or CLAMP_LO is set and the pin's source is raised, cause 1 high, 2 low (R437). The
clamps act while CLAMP_EN is 1 (always in SAFE) and VPE is present. -/
def doClampConduct (p : Nat) (high : Bool) (s : State) : State :=
  let x := s.pin p
  if x.powered && bit x.ctrl 17 then
    raise (srcPin p) (if high then 1 else 2) 0
      (s.updPin p (fun x => { x with stat := setBit x.stat (if high then 5 else 4) true }))
  else s

/-- CLAMP_CONDUCT. -/
def execClampConduct (p : Fin 256) (high : Bool) (s : State) : Host.Outcome State Fault Refusal :=
  .next (doClampConduct p.val high s)

/-- The driver of a pin is on: DRIVE or TERM (R37). -/
def Pin.driverOn (x : Pin) : Bool :=
  match x.stage with
  | .drive _ => true
  | .term => true
  | _ => false

/-- DRV_LIMIT_ONSET (R58): DRV_LIMIT is set and the 2 µs timer starts. -/
def doDrvLimitOnset (p : Nat) (s : State) : State :=
  if (s.pin p).driverOn then s.updPin p (fun x => { x with stat := setBit x.stat 3 true, limitSince := some s.mono }) else s

/-- DRV_LIMIT_ONSET. -/
def execDrvLimitOnset (p : Fin 256) (s : State) : Host.Outcome State Fault Refusal := .next (doDrvLimitOnset p.val s)

/-- DRV_LIMIT_SAFE (R58): the limit has acted for 2 µs since its onset; the pin enters SAFE, SAFED is set, PIN_EN clears and the source is
raised with cause 3 (R437). A PMU at work on the pin ends FAILED_FAULT (R208). -/
def doDrvLimitSafe (p : Nat) (s : State) : State :=
  let x := s.pin p
  if x.driverOn then
    let s := advanceMono ((x.limitSince.getD s.mono) + 2 * usSteps) s
    let s := s.updPin p (fun x => { x with stat := setBit (setBit x.stat 3 true) 2 true })
    raise (srcPin p) 3 0 (safePin true true { cls := 8, code := 0, detail := p } p s)
  else s

/-- DRV_LIMIT_SAFE. -/
def execDrvLimitSafe (p : Fin 256) (s : State) : Host.Outcome State Fault Refusal := .next (doDrvLimitSafe p.val s)

end Sys2Proof.Machine
end

