-- ==== Sys2Proof/Machine/Pmu.lean ====
section
/-!
DEFINITION. The per-pin PMU (R189 to R209): the operations that commands and engines share, the PMU commands (R370) and
the PMU's events.
-/
namespace Sys2Proof.Machine

/-- Full scale of a current range in pA (R197). -/
def rangeFs (r : Nat) : Int :=
  match r with
  | 0 => 2000
  | 1 => 20000
  | 2 => 200000
  | 3 => 2000000
  | 4 => 20000000
  | 5 => 200000000
  | 6 => 2000000000
  | _ => 25000000000

/-- Forced voltages from −1.5 V to +6.5 V (R192). -/
def forceVOk (uv : Int) : Bool := decide (-1500000 ≤ uv) && decide (uv ≤ 6500000)
/-- Forced currents within the full scale of their range (R192). -/
def forceIOk (r : Nat) (pa : Int) : Bool := decide (-(rangeFs r) ≤ pa) && decide (pa ≤ rangeFs r)

/-- PMUs of a pin's bay, other than the pin's own, that use range 7 (R198). -/
def hiRangeUsers (s : State) (p : Nat) : Nat :=
  ((List.range 16).filter (fun i =>
    let q := p / 16 * 16 + i
    q != p && (s.pin q).pmu.forcing && fld (s.pin q).pmu.ctrl 8 4 == 7)).length

/-- The state and resource checks of a request to enter a mode (R190, R192, R198). `who` is 1 for an engine, 2 for a
command; `mode` is 1 FV, 2 FI, 3 MV. -/
def pmuEnterChecks (who mode range p : Nat) (s : State) : List (Option Reason) :=
  let x := s.pin p
  [when? (x.pmu.holder != 0 && x.pmu.holder != who) (rState Code.pmuHeld p),
   when? (bit x.stat 0) (rState Code.pinSafe p),
   when? (mode != 3 && streamOn s p) (rState Code.streamActive p),
   when? (mode != 3 && range == 7 && decide (2 ≤ hiRangeUsers s p)) (rResource Code.pmuHiRange (p / 16))]

/-- The Kelvin check when the PMU connects (R57, R194): SENSE remote, or local with KELVIN_OPEN. -/
def kelvinCheck (senseOpen : Bool) (x : Pin) : Pin :=
  if bit x.ctrl 19 then
    if senseOpen then
      { x with stat := setBit x.stat 7 true, pmu := { x.pmu with ctrl := setBit x.pmu.ctrl 1 false, kelvinBad := true } }
    else { x with pmu := { x.pmu with ctrl := setBit x.pmu.ctrl 1 true, kelvinBad := false } }
  else { x with pmu := { x.pmu with ctrl := setBit x.pmu.ctrl 1 false, kelvinBad := false } }

/-- Mode, holder, switch, range and value of an accepted request (R189, R194, R200, R201). -/
def pmuSet (who mode range : Nat) (value : Int) (u : Pmu) : Pmu :=
  let c := setFld (setFld u.ctrl 4 2 mode) 2 2 who
  if mode = 3 then
    { u with ctrl := setBit c 0 false, force := 0, stat := u.stat &&& 0xFFFFFF0F#32 }
  else
    let sw := u.forcing && fld u.ctrl 8 4 != range
    { u with
      ctrl := setFld (setBit c 0 true) 8 4 range
      force := value
      stat := setBit (setBit (setBit u.stat 5 true) 6 sw) 7 (mode == 1 && bit u.ctrl 16 && decide (range ≤ 3)) }

/-- A PMU enters a mode (R189, R194): from OFF with the Kelvin check; the output stage follows (R500). -/
def pmuEnter (who mode range : Nat) (value : Int) (senseOpen : Bool) (p : Nat) (s : State) : State :=
  refreshPin p (s.updPin p (fun x =>
    let x := if x.pmu.mode = 0 then kelvinCheck senseOpen x else x
    { x with pmu := pmuSet who mode range value x.pmu }))

/-- Commands that wait for a force end when the PMU leaves it (R195). -/
def endForceWaits (p : Nat) (s : State) : State :=
  let ks := (s.pin p).pmu.waiting
  endKeys ks { cls := 6, code := Code.pmuReleased, detail := p }
    (s.updPin p (fun x => { x with pmu := { x.pmu with waiting := [] } }))

/-- Starts the measurement: BUSY, its kind and count, the stamp of its first sample and the CE in force then (R202,
R207). -/
def measStart (kind : Bool) (n : Nat) (k : Option Key) (p : Nat) (s : State) : State :=
  let s := match k with
    | none => s
    | some k => s.updWork k (fun w => { w with ce := s.ce })
  s.updPin p (fun x => { x with pmu := { x.pmu with
    stat := setBit x.pmu.stat 0 true, measKind := kind, measN := n, measBy := k, measT0 := s.stamp } })

/-- A measurement starts, or waits until the one in progress completes (R202). -/
def measRequest (kind : Bool) (n : Nat) (k : Option Key) (p : Nat) (s : State) : State :=
  if bit (s.pin p).pmu.stat 0 then
    s.updPin p (fun x => { x with pmu := { x.pmu with next := x.pmu.next ++ [(kind, n, k)] } })
  else measStart kind n k p s

/-- PMU.FV, PMU.FI and PMU.MV: their prologue and effect, given mode, range, value and their format checks. -/
def pmuCommand (op mode range : Nat) (value : Int) (format : State → Target → List (Option Reason)) (c : Cmd)
    (senseOpen : Bool) (s : State) : State :=
  let p := c.u 0 2
  runCmd { op := op, scopes := scopesDBLS } c format
    (fun s t => pinReach s t p :: pmuEnterChecks 2 mode range p s)
    (fun _ s =>
      let s := useBays c.key [p / 16] s
      if mode = 3 then completeOk c.key 0 (pmuEnter 2 3 range 0 senseOpen p (endForceWaits p s))
      else
        (pmuEnter 2 mode range value senseOpen p s).updPin p
          (fun x => { x with pmu := { x.pmu with waiting := x.pmu.waiting ++ [c.key] } })) s

/-- PMU.FV (R194, R370): completes when the forced value has settled (R200). -/
def doPmuFv (c : Cmd) (senseOpen : Bool) (s : State) : State :=
  pmuCommand 0x600 1 (c.u 2 1) (c.i 4 4)
    (fun s t => [lenCheck c 8, onePin c s t 0, when? (decide (7 < c.u 2 1)) (rFormat Code.pmuRange 2), rsv c 3 1,
      when? (!forceVOk (c.i 4 4)) (rFormat Code.pmuValue 4)]) c senseOpen s

/-- PMU.FV. -/
def execPmuFv (c : Cmd) (senseOpen : Bool) (s : State) : Host.Outcome State Fault Refusal := .next (doPmuFv c senseOpen s)

/-- PMU.FI (R194, R370). -/
def doPmuFi (c : Cmd) (senseOpen : Bool) (s : State) : State :=
  pmuCommand 0x601 2 (c.u 2 1) (c.i 8 8)
    (fun s t => [lenCheck c 16, onePin c s t 0, when? (decide (7 < c.u 2 1)) (rFormat Code.pmuRange 2), rsv c 3 5,
      when? (!forceIOk (c.u 2 1) (c.i 8 8)) (rFormat Code.pmuValue 8)]) c senseOpen s

/-- PMU.FI. -/
def execPmuFi (c : Cmd) (senseOpen : Bool) (s : State) : Host.Outcome State Fault Refusal := .next (doPmuFi c senseOpen s)

/-- PMU.MV (R194, R370): completes with the sense path connected. -/
def doPmuMv (c : Cmd) (senseOpen : Bool) (s : State) : State :=
  pmuCommand 0x602 3 (fld (s.pin (c.u 0 2)).pmu.ctrl 8 4) 0
    (fun s t => [lenCheck c 8, onePin c s t 0, rsv c 2 6]) c senseOpen s

/-- PMU.MV. -/
def execPmuMv (c : Cmd) (senseOpen : Bool) (s : State) : Host.Outcome State Fault Refusal := .next (doPmuMv c senseOpen s)

/-- PMU_MODE: a measurement in OFF, or a current measurement in MV (R192, R370). -/
def measModeBad (kind : Bool) (x : Pin) : Bool := x.pmu.mode == 0 || (x.pmu.mode == 3 && kind)

/-- PMU.MEAS (R202, R370): completes when the last sample has been taken. -/
def doPmuMeas (c : Cmd) (s : State) : State :=
  let p := c.u 0 2
  let kind := c.u 2 1 == 1
  runCmd { op := 0x603, scopes := scopesDBLS } c
    (fun s t => [lenCheck c 8, onePin c s t 0, rng c 2 1 0 1, rsv c 3 1, rng c 4 2 1 65535, rsv c 6 2])
    (fun s t => [pinReach s t p, when? ((s.pin p).pmu.holder == 1) (rState Code.pmuHeld p),
      when? (measModeBad kind (s.pin p)) (rState Code.pmuMode p)])
    (fun _ s => measRequest kind (c.u 4 2) (some c.key) p (useBays c.key [p / 16] s)) s

/-- PMU.MEAS. -/
def execPmuMeas (c : Cmd) (s : State) : Host.Outcome State Fault Refusal := .next (doPmuMeas c s)

/-- PMU.DISC (R195, R370): a measurement in progress completes ABORTED, PMU_RELEASED; then the command completes. -/
def doPmuDisc (c : Cmd) (s : State) : State :=
  let p := c.u 0 2
  runCmd { op := 0x604, scopes := scopesDBLS } c
    (fun s t => [lenCheck c 8, onePin c s t 0, rsv c 2 6])
    (fun s t => [pinReach s t p, when? ((s.pin p).pmu.holder == 1) (rState Code.pmuHeld p)])
    (fun _ s => completeOk c.key 0
      (pmuOff p { cls := 6, code := Code.pmuReleased, detail := p } (useBays c.key [p / 16] s))) s

/-- PMU.DISC. -/
def execPmuDisc (c : Cmd) (s : State) : Host.Outcome State Fault Refusal := .next (doPmuDisc c s)

/-- PMU_SETTLED (R200): SETTLING ends, with the boost and the range change before it, and the waiting commands complete. -/
def doPmuSettled (p : Nat) (s : State) : State :=
  if bit (s.pin p).pmu.stat 5 then
    let ks := (s.pin p).pmu.waiting
    let s := s.updPin p (fun x => { x with pmu := { x.pmu with stat := x.pmu.stat &&& 0xFFFFFF1F#32, waiting := [] } })
    ks.foldl (fun s k => completeOk k 0 s) s
  else s

/-- PMU_SETTLED. -/
def execPmuSettled (p : Fin 256) (s : State) : Host.Outcome State Fault Refusal := .next (doPmuSettled p.val s)

/-- PMU_RES_INFO of a result (R209). The flags are STEP, LIMIT, RANGE_SW, SAT from bit 3 down. -/
def resInfoOf (u : Pmu) (flags : BitVec 4) : Word :=
  BitVec.ofNat 32 (min u.measN 255 * 65536 + fld u.ctrl 8 4 * 4096 + u.measKind.toNat * 32 + u.kelvinBad.toNat * 16
    + flags.toNat)

/-- The qualifier of a result (R203): SAT, LIMIT, RANGE_SW, then KELVIN_OPEN. -/
def measQualifier (flags : BitVec 4) (kelvin : Bool) : Option Nat :=
  if bit flags 0 then some Code.pmuSat else if bit flags 2 then some Code.pmuCompliance
  else if bit flags 1 then some Code.pmuRangeSw else if kelvin then some Code.kelvinOpen else none

/-- The next measurement that waits on a PMU starts (R202). -/
def measNext (p : Nat) (s : State) : State :=
  match (s.pin p).pmu.next with
  | [] => s
  | m :: l => measStart m.1 m.2.1 m.2.2 p (s.updPin p (fun x => { x with pmu := { x.pmu with next := l } }))

/-- PMU_MEAS_DONE (R202, R203): the mean and its flags become the result; a command completes with the mean. STEP sets TH
in its tags. -/
def doPmuMeasDone (p : Nat) (mean : Int) (flags : BitVec 4) (s : State) : State :=
  let u := (s.pin p).pmu
  if bit u.stat 0 then
    let s := s.updPin p (fun x => { x with pmu := { x.pmu with
      res := mean, resInfo := resInfoOf u flags, resT0 := u.measT0, measBy := none
      stat := setBit (setBit (setBit u.stat 0 false) 1 (bit flags 0)) 2 true } })
    let s := match u.measBy with
      | none => s
      | some k =>
        completeQual k (measQualifier flags u.kelvinBad) 0 (ofSigned 64 mean)
          (s.updWork k (fun w => { w with th := w.th || bit flags 3 }))
    measNext p s
  else s

/-- PMU_MEAS_DONE. -/
def execPmuMeasDone (p : Fin 256) (mean : Int) (flags : BitVec 4) (s : State) : Host.Outcome State Fault Refusal :=
  .next (doPmuMeasDone p.val mean flags s)

/-- PMU_COMPLIANCE (R199): the PMU holds its limit; AT_LIMIT and LIM_SEEN are set. -/
def doPmuCompliance (p : Nat) (s : State) : State :=
  if (s.pin p).pmu.forcing then
    s.updPin p (fun x => { x with pmu := { x.pmu with stat := setBit (setBit x.pmu.stat 4 true) 3 true } })
  else s

/-- PMU_COMPLIANCE. -/
def execPmuCompliance (p : Fin 256) (s : State) : Host.Outcome State Fault Refusal := .next (doPmuCompliance p.val s)

/-- PMU_LIMIT_RELEASE (R199): the programmed force returns and AT_LIMIT clears; LIM_SEEN stays. -/
def doPmuLimitRelease (p : Nat) (s : State) : State :=
  s.updPin p (fun x => { x with pmu := { x.pmu with stat := setBit x.pmu.stat 4 false } })

/-- PMU_LIMIT_RELEASE. -/
def execPmuLimitRelease (p : Fin 256) (s : State) : Host.Outcome State Fault Refusal := .next (doPmuLimitRelease p.val s)

end Sys2Proof.Machine
end

