-- ==== Sys2Proof/Machine/TdcOps.lean ====
section
/-!
DEFINITION. Shared operations of the TDCs (R228 to R257): interpolator tables, the drains of stamp captures and pair logs,
the delivery of stamps to their consumers, and the ends of captures, intervals and frequency measurements.
-/
namespace Sys2Proof.Machine

/-! ## Interpolator tables (R247, R251) -/

/-- Hits of a bin: the factory table's, or the committed one's (R250). -/
def TdcTable.count (t : TdcTable) (interp p bin : Nat) : Nat :=
  if t.factory then Config.factoryHits interp p bin else t.counts.getD bin 0

/-- Hits of all bins below `c`. -/
def TdcTable.sum (t : TdcTable) (interp p : Nat) : Nat → Nat
  | 0 => 0
  | c + 1 => TdcTable.sum t interp p c + t.count interp p c

/-- POS[c] in 1/256 fine step, rounded to the nearest, halves up (R247). DESIGN CHOICE, log entry 12. -/
def TdcTable.pos (t : TdcTable) (interp p c : Nat) : Nat := (2 * t.sum interp p c + t.count interp p c + 16) / 32

/-- w[c] in 1/256 fine step. -/
def TdcTable.width (t : TdcTable) (interp p c : Nat) : Nat := t.count interp p c / 16

/-- The table of interpolator `i`. -/
def Tdc.tab (t : Tdc) (i : Bool) : TdcTable := if i then t.tab1 else t.tab0

/-- Replaces the table of interpolator `i`. -/
def Tdc.setTab (t : Tdc) (i : Bool) (x : TdcTable) : Tdc := if i then { t with tab1 := x } else { t with tab0 := x }

/-- The stamp of a raw fine code taken by the serving interpolator (R228, R242, R247). -/
def stampOf (s : State) (p : Nat) (rise : Bool) (cycle code : Nat) : TStamp :=
  let t := (s.pin p).tdc
  let tb := t.tab t.svc
  let u := cycle * 65536 + tb.pos t.svc.toNat p code
  let f := (u + 128) / 256
  { full := BitVec.ofNat 80 (s.nearFull f), fine := BitVec.ofInt 8 ((u : Int) - 256 * (f : Int)), rise := rise
    width := tb.width t.svc.toNat p code }

/-- A stamp's corrected value in 1/256 fine step, before rounding (R242). -/
def TStamp.exact (t : TStamp) : Int := (t.full.toNat : Int) * 256 + t.fine.toInt

/-! ## Markers and entries (R236) -/

/-- A marker. -/
def marker (ty payload : Nat) : TStamp := { marker := BitVec.ofNat 6 ty, payload := BitVec.ofNat 56 payload }

/-- The eight bytes of an entry (R236). -/
def TStamp.bytes (t : TStamp) : List Byte :=
  if t.marker = 0 then leBytes 8 ((if t.rise then 2 else 3) * 2 ^ 62 + t.full.toNat % 2 ^ 62)
  else leBytes 8 (t.marker.toNat * 2 ^ 56 + t.payload.toNat)

/-- What a BASE marker writes: EP and bits [63:62] (R236). -/
def baseOf (f : Full) : BitVec 18 := f.extractLsb' 62 18

/-- The BASE marker of a stamp. -/
def baseMarker (f : Full) : TStamp := marker 1 (f.toNat / 2 ^ 64 * 2 ^ 40 + fld f 62 2 * 2 ^ 38)

/-- Stamps that a pin's FIFO holds (R230). -/
def tdcFifoMax : Nat := 1024

/-! ## Stamp captures: the drain (R232, R234, R235) -/

/-- Size of a pin's area (R235). -/
def TdcCap.areaSize (c : TdcCap) : Nat := c.count * slotSize / max c.pins.length 1 / 4096 * 4096
/-- Entries an area holds (R235). -/
def TdcCap.areaEntries (c : TdcCap) : Nat := (c.areaSize - 64) / 8
/-- First byte of a pin's area. -/
def TdcCap.areaAddr (c : TdcCap) (p : Nat) : Nat := c.first * slotSize + c.pins.idxOf p * c.areaSize
/-- Fine steps between two entries of a pin's drain: RATE × 12.5 million entries per second (R234). -/
def TdcCap.period (c : TdcCap) : Nat := 65536 / max c.rate 1
def TdcCap.area (c : TdcCap) (p : Nat) : TdcArea := Tab.get {} c.areas p
def TdcCap.updArea (c : TdcCap) (p : Nat) (f : TdcArea → TdcArea) : TdcCap := { c with areas := Tab.upd {} c.areas p f }

/-- Changes the capture with a given first slot. -/
def updCap (first : Nat) (f : TdcCap → TdcCap) (s : State) : State :=
  { s with caps := s.caps.map (fun c => if c.first = first then f c else c) }

/-- The first condition of R238 or R244 to arise. -/
def noteQual (b : Bool) (code : Nat) (q : Option (BitVec 12)) : Option (BitVec 12) :=
  if b then q.or (some (BitVec.ofNat 12 code)) else q

/-- One entry leaves the FIFO for the area (R235). -/
def areaPut (c : TdcCap) (p : Nat) (t : TStamp) (s : State) : State :=
  let a := c.area p
  let n := c.areaEntries
  if n ≤ a.entries ∧ c.wrap = false then
    updCap c.first (fun c => { (c.updArea p (fun a => { a with full := true, lost := a.lost + (t.marker == 0).toNat })) with
                               qual := noteQual (t.marker == 0) Code.tdcLost c.qual }) s
  else
    updCap c.first (fun c => c.updArea p (fun a =>
        { a with entries := a.entries + 1, wrapped := a.wrapped || decide (n ≤ a.entries), full := a.full || decide (n ≤ a.entries) }))
      (grnStore (c.areaAddr p + 64 + 8 * (a.entries % max n 1)) t.bytes s)

/-- Drains `fuel` entries of a pin of a capture. -/
def drainEntries (first p : Nat) : Nat → State → State
  | 0, s => s
  | k + 1, s =>
    match s.caps.find? (fun c => c.first == first), (s.pin p).tdc.fifo with
    | some c, t :: l => drainEntries first p k (areaPut c p t (s.updPin p (fun x => { x with tdc := { x.tdc with fifo := l } })))
    | _, _ => s

/-- How many entries of a pin's FIFO have drained by now. -/
def drainedBy (s : State) (c : TdcCap) (p : Nat) : Nat :=
  let a := c.area p
  if s.mono < a.nextDrain then 0 else min (s.pin p).tdc.fifo.length ((s.mono - a.nextDrain) / c.period + 1)

/-- Drains a pin of a capture up to the present. -/
def drainPin (c : TdcCap) (p : Nat) (s : State) : State :=
  let k := drainedBy s c p
  updCap c.first (fun c => c.updArea p (fun a => { a with nextDrain := a.nextDrain + k * c.period }))
    (drainEntries c.first p k s)

/-- Stamps in a pin's FIFO at the present (R232, R255): what the drain has not taken. -/
def tdcLevel (s : State) (p : Nat) : Nat :=
  (s.pin p).tdc.fifo.length - ((s.caps.find? (fun c => c.pins.contains p)).map (fun c => drainedBy s c p)).getD 0

/-- Offers an item to the FIFO of a pin that a command holds; the flag says whether it was taken. -/
def fifoPut (c : TdcCap) (p : Nat) (t : TStamp) (s : State) : Bool × State :=
  let q := (s.pin p).tdc.fifo
  if q.length < tdcFifoMax then
    (true, updCap c.first (fun c => c.updArea p (fun a => { a with nextDrain := if q.isEmpty then max a.nextDrain s.mono else a.nextDrain }))
      (s.updPin p (fun x => { x with tdc := { x.tdc with fifo := x.tdc.fifo ++ [t] } })))
  else (false, s)

/-- A stamp finds the FIFO full (R232). -/
def fifoLost (p : Nat) (s : State) : State :=
  let s := s.updPin p (fun x => { x with tdc := { x.tdc with lost := satInc x.tdc.lost, ovf := true, lostPending := x.tdc.lostPending + 1 } })
  match s.caps.find? (fun c => c.pins.contains p) with
  | none => s
  | some c => updCap c.first (fun c => { (c.updArea p (fun a => { a with lost := a.lost + 1 })) with
                                         qual := noteQual true Code.tdcLost c.qual }) s

/-- A stamp goes to the FIFO of a capture, behind the LOST and BASE markers that are due (R232, R236). -/
def captureStamp (c : TdcCap) (p : Nat) (t : TStamp) (s : State) : State :=
  let s := drainPin c p s
  let t0 := (s.pin p).tdc
  let (okL, s) := if t0.lostPending = 0 then (true, s) else fifoPut c p (marker 3 (min t0.lostPending 0xFFFFFFFF)) s
  let s := if okL then s.updPin p (fun x => { x with tdc := { x.tdc with lostPending := 0 } }) else s
  let (okB, s) :=
    if okL then
      if (c.area p).base == some (baseOf t.full) then (true, s) else fifoPut c p (baseMarker t.full) s
    else (false, s)
  let s := if okB then updCap c.first (fun c => c.updArea p (fun a => { a with base := some (baseOf t.full) })) s else s
  if okB then
    let (ok, s) := fifoPut c p t s
    if ok then s else fifoLost p s
  else fifoLost p s

/-! ## Interval units: the record log (R243, R224) -/

def updTiv (n : Nat) (f : Interval → Interval) (s : State) : State :=
  s.updSlice n (fun x => { x with tiv := x.tiv.map f })

/-- Records the buffer holds (R243). -/
def Interval.room (t : Interval) : Nat := (t.count * slotSize - 128) / 32
/-- Fine steps between two 32-byte records at RECRATE × 100 MB/s. -/
def Interval.period (t : Interval) : Nat := 262144 / max t.recRate 1

/-- The drop record of R243. -/
def tivDrop (refused : Nat) (st : Full) : List Byte :=
  padTo 32 (leBytes 4 0x13 ++ leBytes 4 refused ++ leBytes 8 0 ++ leBytes 8 (st.toNat % 2 ^ 64))

/-- A record is accepted or refused (R224, R243). -/
def tivOffer (n : Nat) (r : List Byte) (s : State) : State :=
  updTiv n (fun t =>
    if t.recRate = 0 then t
    else if t.fifo.length < tdcFifoMax then
      { t with fifo := t.fifo ++ [r], recs := t.recs + 1, nextDrain := if t.fifo.isEmpty then max t.nextDrain s.mono else t.nextDrain }
    else { t with refused := t.refused + 1, lost := t.lost + 1 }) s

/-- Drains records of a unit while their time has come (`all`: every one). A place that frees after refusals takes a DROP
record. -/
def tivDrain (n : Nat) (all : Bool) : Nat → State → State
  | 0, s => s
  | k + 1, s =>
    match (s.slice n).tiv with
    | none => s
    | some t =>
      match t.fifo with
      | [] => s
      | r :: l =>
        if all || decide (t.nextDrain ≤ s.mono) then
          let i := t.recs - t.fifo.length
          let at' := min t.nextDrain s.mono
          let t' := { t with fifo := l, nextDrain := t.nextDrain + t.period }
          let t' := if t.refused = 0 then t'
            else { t' with fifo := l ++ [tivDrop t.refused (s.fullAt at')], refused := 0, recs := t'.recs + 1 }
          let s := if t.room ≤ i ∧ t.wrap = false then s
            else grnStore (t.first * slotSize + 128 + 32 * (i % max t.room 1)) r s
          let t' := if t.room ≤ i then
              (if t.wrap then { t' with full := true, wrapped := true } else { t' with full := true, lost := t'.lost + 1 })
            else t'
          tivDrain n all k (s.updSlice n (fun x => { x with tiv := some t' }))
        else s

/-- Drains the records of a unit up to the present. -/
def tivCatchUp (n : Nat) (s : State) : State :=
  tivDrain n false ((((s.slice n).tiv.map (fun t => t.fifo.length)).getD 0) + 1) s

/-- Brings every drain up to the present, so that the Granary holds what has drained by now. -/
def catchUp (s : State) : State :=
  let s := s.caps.foldl (fun s c => forAll c.pins (fun p s =>
    match s.caps.find? (fun d => d.first == c.first) with
    | none => s
    | some d => drainPin d p s) s) s
  forAll ((s.slices.filter (fun e => e.2.tiv.isSome)).map (·.1)) tivCatchUp s

/-! ## Conditions of a pin's results (R238, R249, R250) -/

/-- REF_ABSENT, TDC_DEGRADED, CAL_STALE in their order (R238). `ref` is false for intervals (R252). -/
def pinQual (ref : Bool) (s : State) (p : Nat) (q : Option (BitVec 12)) : Option (BitVec 12) :=
  noteQual (s.pin p).tdc.stale Code.calStale
    (noteQual (s.pin p).tdc.degraded Code.tdcDegraded (noteQual (ref && s.refAbsent) Code.refAbsent q))

/-! ## Ends -/

/-- FLAGS of a capture header (R237). -/
def TdcCap.flags (c : TdcCap) (p : Nat) : Nat :=
  let a := c.area p
  a.full.toNat + 2 * (decide (0 < a.lost)).toNat + 4 * c.refAbsent.toNat + 8 * a.wrapped.toNat

/-- The 64-byte header of a pin (R237). -/
def TdcCap.header (c : TdcCap) (p : Nat) (w3 : Word) (fin : Full) : List Byte :=
  let a := c.area p
  leBytes 2 p ++ leBytes 2 (c.flags p) ++ leBytes 4 w3.toNat ++ leBytes 2 (c.start.toNat / 2 ^ 64) ++ leBytes 6 0
    ++ leBytes 8 (c.start.toNat % 2 ^ 64) ++ leBytes 8 (fin.toNat % 2 ^ 64) ++ leBytes 8 a.entries ++ leBytes 8 a.lost
    ++ leBytes 8 a.dead ++ leBytes 8 0

/-- A capture ends at its end time or at TDC.STOP: the FIFOs drain, the headers are written, holds and reservation go, one
completion follows (R237, R238). -/
def endCapture (first : Nat) (s : State) : State :=
  match s.caps.find? (fun c => c.first == first) with
  | none => s
  | some c =>
    let s := forAll c.pins (fun p s => drainEntries first p ((s.pin p).tdc.fifo.length) s) s
    let c := (s.caps.find? (fun c => c.first == first)).getD c
    let w3 := s.w3Of c.key
    let s := forAll c.pins (fun p s => grnStore (c.areaAddr p) (c.header p w3 s.now) s) s
    completeQual c.key (c.qual.map (·.toNat)) 0 (first * slotSize) (dropCapture c s)

/-- FLAGS of an interval header (R243). -/
def Interval.flags (t : Interval) : Nat :=
  t.full.toNat + 2 * (decide (0 < t.lost)).toNat + 4 * t.wrapped.toNat + 8 * t.overflow.toNat

/-- The 128-byte result header (R243). -/
def Interval.header (t : Interval) (n : Nat) (w3 : Word) (fin : Full) : List Byte :=
  leBytes 1 n ++ leBytes 1 t.index.toNat ++ leBytes 2 t.flags ++ leBytes 4 w3.toNat ++ leBytes 2 (t.armed.toNat / 2 ^ 64)
    ++ leBytes 6 0 ++ leBytes 8 (t.armed.toNat % 2 ^ 64) ++ leBytes 8 (fin.toNat % 2 ^ 64) ++ leBytes 8 t.pairs
    ++ leBytes 8 (ofSigned 64 t.least) ++ leBytes 8 (ofSigned 64 t.greatest) ++ leBytes 16 (ofSigned 128 t.sum)
    ++ leBytes 16 t.sumsq ++ leBytes 4 t.subBin ++ leBytes 4 t.order ++ leBytes 4 t.unpaired ++ leBytes 4 t.surplus
    ++ leBytes 4 t.recs ++ leBytes 4 t.lost ++ leBytes 4 t.dead ++ leBytes 12 0

/-- How an interval measurement ends (R244). -/
inductive TivEnd where
  | pairs
  | timeout
  | overflow
  | stopped
  deriving DecidableEq, Repr

/-- Stamps still unmatched when an INDEX measurement ends (R241); an open start of NEXT stays unreported. -/
def Interval.leftover (t : Interval) : Interval :=
  if t.index then
    { t with unpaired := t.unpaired + t.stops.length, surplus := t.surplus + t.starts.length
             qual := noteQual (decide (0 < t.stops.length)) Code.unpaired t.qual, starts := [], stops := [] }
  else t

/-- An interval measurement ends: its records drain, the header is written, one completion follows (R243, R244). -/
def endInterval (n : Nat) (e : TivEnd) (s : State) : State :=
  let s := tivDrain n true (((s.slice n).tiv.map (fun t => t.fifo.length)).getD 0 + 1)
    (updTiv n (fun t => { t.leftover with overflow := t.overflow || e == .overflow }) s)
  match (s.slice n).tiv with
  | none => s
  | some t =>
    let a := t.first * slotSize
    let s := dropInterval n t (grnStore a (t.header n (s.w3Of t.key) s.now) s)
    match e with
    | .stopped => complete t.key 6 Code.stopped 0 (BitVec.ofNat 32 a) (BitVec.ofNat 32 (a / 2 ^ 32)) [] s
    | .overflow => completeQual t.key (some Code.pairOverflow) 0 a s
    | .timeout => completeQual t.key (some Code.tdcTimeout) 0 a s
    | .pairs => completeQual t.key (t.qual.map (·.toNat)) 0 a s

/-- A frequency measurement ends with a result (R245, R246). -/
def endFreq (p : Nat) (q : Option (BitVec 12)) (res : Nat) (s : State) : State :=
  match (s.pin p).tdc.freq with
  | none => s
  | some f =>
    completeQual f.key (q.map (·.toNat)) 0 res (s.updPin p (fun x => { x with tdc := { x.tdc with freq := none } }))

/-! ## Delivery to the consumers (R230) -/

/-- The pair record (R243). -/
def pairRecord (sub order : Bool) (st : TStamp) (idx : Nat) (d : Int) : List Byte :=
  leBytes 1 0x11 ++ leBytes 1 (sub.toNat + 2 * order.toNat) ++ leBytes 2 (st.full.toNat / 2 ^ 64) ++ leBytes 4 0
    ++ leBytes 8 idx ++ leBytes 8 (ofSigned 64 d) ++ leBytes 8 (st.full.toNat % 2 ^ 64)

/-- A pair is formed (R242, R243). -/
def formPair (n : Nat) (a b : TStamp) (s : State) : State :=
  match (s.slice n).tiv with
  | none => s
  | some t =>
    let x := b.exact - a.exact
    let d := roundAway x 256
    let sub := decide (x.natAbs < max a.width b.width)
    let ord := t.index && decide (x < 0)
    let s := tivOffer n (pairRecord sub ord a t.pairs d) s
    updTiv n (fun t => { t with
      pairs := t.pairs + 1
      least := if t.pairs = 0 then d else min t.least d
      greatest := if t.pairs = 0 then d else max t.greatest d
      sum := t.sum + d, sumsq := (t.sumsq + d.natAbs * d.natAbs) % 2 ^ 128
      subBin := t.subBin + sub.toNat, order := t.order + ord.toNat
      qual := noteQual ord Code.order (noteQual sub Code.subBin t.qual) }) s

/-- The unit ends after N pairs (R239). -/
def tivCheckEnd (n : Nat) (s : State) : State :=
  match (s.slice n).tiv with
  | none => s
  | some t => if t.overflow then endInterval n .overflow s else if t.n ≤ t.pairs then endInterval n .pairs s else s

/-- A start stamp reaches a unit (R240, R241). -/
def tivStart (n : Nat) (a : TStamp) (s : State) : State :=
  match (s.slice n).tiv with
  | none => s
  | some t =>
    if t.index then
      match t.stops with
      | b :: l => formPair n a b (updTiv n (fun t => { t with stops := l }) s)
      | [] => updTiv n (fun t => if t.starts.length < tdcFifoMax then { t with starts := t.starts ++ [a] }
                                 else { t with overflow := true }) s
    else updTiv n (fun t => { t with surplus := t.surplus + t.starts.length, starts := [a] }) s

/-- A stop stamp reaches a unit (R240, R241). -/
def tivStop (n : Nat) (b : TStamp) (s : State) : State :=
  match (s.slice n).tiv with
  | none => s
  | some t =>
    match t.starts with
    | a :: l => formPair n a b (updTiv n (fun t => { t with starts := l }) s)
    | [] =>
      if t.index then
        updTiv n (fun t => if t.stops.length < tdcFifoMax then { t with stops := t.stops ++ [b] }
                           else { t with overflow := true }) s
      else updTiv n (fun t => { t with unpaired := t.unpaired + 1, qual := noteQual true Code.unpaired t.qual }) s

/-- A stamp of pin `p` reaches the unit of slice `n`: as a start first, then as a stop (R240). -/
def tivStamp (p n : Nat) (a : TStamp) (s : State) : State :=
  match (s.slice n).tiv with
  | none => s
  | some t =>
    let late := match t.timeoutAt with
      | none => false
      | some m => decide (m ≤ s.monoOf a.full.toNat)
    if late then s
    else
      let s := updTiv n (fun t => { t with qual := pinQual false s p t.qual }) (tivCatchUp n s)
      let s := if t.startPin == p && t.startRise == a.rise then tivStart n a s else s
      let s := if t.stopPin == p && t.stopRise == a.rise then tivStop n a s else s
      tivCheckEnd n s

/-- A unit names this pin and polarity. -/
def Interval.wants (t : Interval) (p : Nat) (rise : Bool) : Bool :=
  (t.startPin == p && t.startRise == rise) || (t.stopPin == p && t.stopRise == rise)

/-- The slices whose units tap an edge. -/
def tivTaps (s : State) (p : Nat) (rise : Bool) : List Nat :=
  (s.slices.filter (fun e => match e.2.tiv with | none => false | some t => t.wants p rise)).map (·.1)

/-- The polarity bit of an edge. -/
def polBit (rise : Bool) : Nat := if rise then 0 else 1

/-- The FIFO of a pin takes this polarity (R230, R231). -/
def fifoWants (s : State) (p : Nat) (rise : Bool) : Bool :=
  (s.pin p).tdc.holder != 0 && bit (s.pin p).tdc.pol (polBit rise)

/-- The frequency measurement of a pin takes this polarity. -/
def freqWants (s : State) (p : Nat) (rise : Bool) : Bool :=
  match (s.pin p).tdc.freq with
  | none => false
  | some f => f.rise == rise

/-- Millihertz of `n` edges in `d` 1/256 fine steps, to the nearest (R245): a fine step is 1/819,200,000,000 s. -/
def milliHertz (n d : Nat) : Nat := (roundDiv ((n * 819200000000 * 1000 * 256 : Nat) : Int) (max d 1)).toNat

/-- Qualifier of a frequency result (R246, R249, R250, R252). -/
def freqQual (s : State) (p : Nat) (f : Freq) : Option (BitVec 12) :=
  pinQual false s p (noteQual (f.refAbsent || s.refAbsent) Code.refAbsent none)

/-- A stamped edge reaches the frequency measurement (R245, R246). -/
def freqStamp (p : Nat) (a : TStamp) (s : State) : State :=
  match (s.pin p).tdc.freq with
  | none => s
  | some f =>
    let m := s.monoOf a.full.toNat
    let past := f.closed || decide (f.openedAt + f.gate ≤ m)
    if f.openedAt + 2 * f.gate ≤ m then endFreq p (some (BitVec.ofNat 12 Code.noSignal)) 0 s
    else match f.start with
      | none => s.updPin p (fun x => { x with tdc := { x.tdc with freq := some { f with start := some a } } })
      | some st =>
        let n := (f.count + 1) % 2 ^ 48
        if past then endFreq p (freqQual s p f) (milliHertz n (a.exact - st.exact).toNat) s
        else s.updPin p (fun x => { x with tdc := { x.tdc with freq := some { f with count := n } } })

/-- An edge in the dead time still counts for frequency (R229, R245). -/
def freqDead (p : Nat) (s : State) : State :=
  s.updPin p (fun x => { x with tdc := { x.tdc with freq := x.tdc.freq.map (fun f =>
    if f.start.isSome then { f with count := (f.count + 1) % 2 ^ 48 } else f) } })

/-- A stamp goes to the pin's FIFO (R231, R232). -/
def fifoStamp (p : Nat) (a : TStamp) (s : State) : State :=
  match s.caps.find? (fun c => c.pins.contains p) with
  | some c =>
    if c.endAt ≠ 0 ∧ c.endAt ≤ a.full.toNat then s
    else captureStamp c p a (updCap c.first (fun c => { c with qual := pinQual true s p c.qual }) s)
  | none =>
    if (s.pin p).tdc.fifo.length < tdcFifoMax then
      s.updPin p (fun x => { x with tdc := { x.tdc with fifo := x.tdc.fifo ++ [a] } })
    else fifoLost p s

/-- An edge that falls in the dead time (R229, R238, R244). -/
def deadEdge (p : Nat) (rise : Bool) (s : State) : State :=
  let s := s.updPin p (fun x => { x with tdc := { x.tdc with dead := satInc x.tdc.dead } })
  let s := if freqWants s p rise then freqDead p s else s
  let s := forAll (tivTaps s p rise) (fun n s => updTiv n (fun t =>
    { t with dead := t.dead + 1, qual := noteQual true Code.tdcDead t.qual }) s) s
  if fifoWants s p rise then
    match s.caps.find? (fun c => c.pins.contains p) with
    | none => s
    | some c => updCap c.first (fun c => { (c.updArea p (fun a => { a with dead := a.dead + 1 })) with
                                           qual := noteQual true Code.tdcDead c.qual }) s
  else s

/-- A stamped edge is delivered: taps first, then the FIFO (R230). Counter 256 + p counts the pin's stamps (R512). -/
def deliverStamp (p : Nat) (a : TStamp) (m : Nat) (s : State) : State :=
  let s := count (256 + p) 1 (s.updPin p (fun x => { x with tdc := { x.tdc with lastStamp := some m } }))
  let s := forAll (tivTaps s p a.rise) (fun n s => tivStamp p n a s) s
  let s := if freqWants s p a.rise then freqStamp p a s else s
  if fifoWants s p a.rise then fifoStamp p a s else s

/-- The dead time after a stamp: 5 ns (R229). -/
def tdcDeadSteps : Nat := 4096

/-! ## Markers of other events (R236, R243, R252) -/

/-- A marker to every pin of every capture (R236). -/
def markCaptures (ty payload : Nat) (s : State) : State :=
  s.caps.foldl (fun s c => forAll c.pins (fun p s =>
    match s.caps.find? (fun d => d.first == c.first) with
    | none => s
    | some d => (fifoPut d p (marker ty payload) (drainPin d p s)).2) s) s

/-- A CAL record to every running unit (R243). -/
def markIntervals (ce : Nat) (s : State) : State :=
  forAll ((s.slices.filter (fun e => e.2.tiv.isSome)).map (·.1)) (fun n s =>
    tivOffer n (padTo 32 (leBytes 4 0x12 ++ leBytes 4 ce ++ leBytes 8 0 ++ leBytes 8 s.stamp.toNat)) (tivCatchUp n s)) s

/-- The reference goes or returns: REF markers, and REF_ABSENT on captures and frequency results (R236, R252). -/
def tdcRefChange (lost : Bool) (s : State) : State :=
  let s := markCaptures 4 lost.toNat s
  if lost then
    { s with
      caps := s.caps.map (fun c => { c with refAbsent := true, qual := noteQual true Code.refAbsent c.qual })
      pins := Tab.mapVals s.pins (fun _ x => { x with tdc := { x.tdc with freq := x.tdc.freq.map (fun f => { f with refAbsent := true }) } }) }
  else s

end Sys2Proof.Machine
end

