-- ==== Sys2Proof/Machine/Tdc.lean ====
section
/-!
DEFINITION. The meanings of the TDC commands and of the events of the time-to-digital converters (R228 to R257, R371).
-/
namespace Sys2Proof.Machine

/-- Scopes device and site. -/
def scopesDS : Nat := 17

/-- The pins of a TDC.CAPTURE bitmap, in pin-number order (R234, R235). -/
def capPins (c : Cmd) : List Nat := bitsOf 256 (c.u 0 32)

/-- Size of a pin area (R235). -/
def capArea (c : Cmd) : Nat := (bufOf c 0x28).size / max (capPins c).length 1 / 4096 * 4096

/-- The class 2 units of a capture (R234). -/
def capUnits (c : Cmd) : Nat := c.u 0x21 1 * (capPins c).length

/-- Format checks of TDC.CAPTURE in field order, then CAP_RANGE (R234 steps 1 and 2, R359). -/
def capFormat (c : Cmd) (s : State) (t : Target) : List (Option Reason) :=
  [lenCheck c 64, when? (c.u 0 32 == 0) (rFormat Code.tdcParam 0), eachPin (capPins c) (fun p => when? (!t.hasPin s p) (rFormat Code.scope p)),
   when? (c.u 0x20 1 == 0) (rFormat Code.tdcParam 0x20), rngIf (decide (3 < c.u 0x20 1)) 0x20,
   when? (c.u 0x21 1 == 0 || decide (2 < c.u 0x21 1)) (rFormat Code.tdcParam 0x21), rsv c 0x22 6, bufField c 0x28 1 1024,
   timeRsv c 0x30, bufRange s (bufOf c 0x28)]

/-- State and resource checks of TDC.CAPTURE (R234 steps 3 to 7). -/
def capState (c : Cmd) (s : State) (t : Target) : List (Option Reason) :=
  let b := bufOf c 0x28
  [eachPin (capPins c) (pinReach s t), bufFence s b,
   eachPin (capPins c) (fun p => when? ((s.pin p).tdc.holder != 0) (rState Code.tdcHeld p)), bufFree s b,
   when? (decide (capArea c < 8192)) (rResource Code.capSmall), rsvCheck s (stackOf s b.first) (capUnits c)]

/-- A capture begins: its buffer, reservation and holds, and the first BASE marker of each area (R231, R234, R236). -/
def startCapture (c : Cmd) (s : State) : State :=
  let b := bufOf c 0x28
  let ps := capPins c
  let pol := BitVec.ofNat 2 (c.u 0x20 1)
  let s := useStack c.key b.first (useBays c.key (ps.map (· / 16)) (releaseWork c.key s))
  let s := reserve2 (stackOf s b.first) (capUnits c) (allocBuf b s)
  let q := ps.foldl (fun q p => pinQual true s p q) none
  let cap : TdcCap := { key := c.key, pins := ps, pol := pol, rate := c.u 0x21 1, first := b.first, count := b.count
                        wrap := b.wrap, endAt := c.time 0x30, start := s.now, qual := q, refAbsent := s.refAbsent }
  let s := { s with caps := s.caps ++ [cap] }
  forAll ps (fun p s =>
    let s := s.updPin p (fun x => { x with tdc := { x.tdc with holder := 2, pol := pol, fifo := [], lostPending := 0 } })
    updCap b.first (fun d => d.updArea p (fun a => { a with base := some (baseOf s.now) })) (fifoPut cap p (baseMarker s.now) s).2) s

/-- TDC.CAPTURE (R234). -/
def doTdcCapture (c : Cmd) (s : State) : State :=
  runCmd { op := 0x700, scopes := scopesDS } c (capFormat c) (capState c) (fun _ s => startCapture c s) s

/-- TDC.CAPTURE. -/
def execTdcCapture (c : Cmd) (s : State) : Host.Outcome State Fault Refusal := .next (doTdcCapture c s)

/-- The slice of a target at slice scope. -/
def Target.sliceNo : Target → Nat
  | .slice n => n
  | _ => 0

/-- An interval measurement begins (R239). -/
def startInterval (c : Cmd) (n : Nat) (s : State) : State :=
  let b := bufOf c 0x18
  let p := c.u 0 2
  let q := c.u 2 2
  let s := useStack c.key b.first (useBays c.key [p / 16, q / 16, n / 8] (releaseWork c.key s))
  let s := reserve2 (stackOf s b.first) (c.u 7 1) (allocBuf b s)
  s.updSlice n (fun x => { x with
    tivPairs := 0, tivUnpaired := 0, tivSurplus := 0
    tiv := some { key := c.key, startPin := p, stopPin := q, startRise := c.u 4 1 == 1, stopRise := c.u 5 1 == 1
                  index := c.u 6 1 == 1, n := c.u 8 4, recRate := c.u 7 1, first := b.first, count := b.count
                  wrap := b.wrap, timeoutAt := if c.u 0x10 8 = 0 then none else some (s.mono + c.u 0x10 8)
                  armed := s.now, qual := pinQual false s q (pinQual false s p none) } })

/-- TDC.INTERVAL (R239, R358). -/
def doTdcInterval (c : Cmd) (s : State) : State :=
  let b := bufOf c 0x18
  runCmd { op := 0x701, scopes := 8 } c
    (fun s _ => [lenCheck c 32, rng c 0 2 0 255, rng c 2 2 0 255, rng c 4 1 1 2, rng c 5 1 1 2, rng c 6 1 0 1, rng c 7 1 0 8,
      rng c 8 4 1 4294967295, rsv c 12 4, bufField c 0x18 1 1024, bufRange s b])
    (fun s t => [pinReach s t (c.u 0 2), pinReach s t (c.u 2 2), fenceCheck s [t.sliceNo] [], bufFence s b,
      when? (s.slice t.sliceNo).tiv.isSome (rState Code.tdcBusy t.sliceNo), bufFree s b,
      rsvCheck s (stackOf s b.first) (c.u 7 1)])
    (fun t s => startInterval c t.sliceNo s) s

/-- TDC.INTERVAL. -/
def execTdcInterval (c : Cmd) (s : State) : Host.Outcome State Fault Refusal := .next (doTdcInterval c s)

/-- TDC.FREQ (R245, R246). -/
def doTdcFreq (c : Cmd) (s : State) : State :=
  let p := c.u 0 2
  runCmd { op := 0x702, scopes := scopesDBLS } c
    (fun s t => [lenCheck c 16, onePin c s t 0, rng c 2 1 1 2, rsv c 3 5, rng c 8 8 819200 (2 ^ 48)])
    (fun s t => [pinReach s t p, when? (s.pin p).tdc.freq.isSome (rState Code.tdcBusy p)])
    (fun _ s =>
      let s := useBays c.key [p / 16] s
      s.updPin p (fun x => { x with tdc := { x.tdc with
        freq := some { key := c.key, rise := c.u 2 1 == 1, gate := c.u 8 8, openedAt := s.mono, refAbsent := s.refAbsent } } })) s

/-- TDC.FREQ. -/
def execTdcFreq (c : Cmd) (s : State) : Host.Outcome State Fault Refusal := .next (doTdcFreq c s)

/-- The capture that TDC.STOP names, all of whose pins the target takes in. -/
def stopCapture? (s : State) (t : Target) (slot : Nat) : Option TdcCap :=
  s.caps.find? (fun d => d.first == slot && d.pins.all (fun p => t.hasPin s p))

/-- The work that TDC.STOP names exists (R371). -/
def tdcRunning (c : Cmd) (s : State) (t : Target) : Bool :=
  match c.u 0 1 with
  | 0 => (stopCapture? s t (c.u 4 4)).isSome
  | 1 => (match t with | .slice n => (s.slice n).tiv.isSome | _ => false)
  | _ => (s.pin (c.u 2 2)).tdc.freq.isSome

/-- Reach of what TDC.STOP names. -/
def tdcStopReach (c : Cmd) (s : State) (t : Target) : Option Reason :=
  match c.u 0 1 with
  | 0 => eachPin (((stopCapture? s t (c.u 4 4)).map (·.pins)).getD []) (fun p => siteOwned t (siteOfPin s p) p)
  | 1 => none
  | _ => pinReach s t (c.u 2 2)

/-- TDC.STOP ends the named work (R371). -/
def tdcStopEffect (c : Cmd) (t : Target) (s : State) : State :=
  match c.u 0 1 with
  | 0 => endCapture (c.u 4 4) s
  | 1 => endInterval t.sliceNo .stopped s
  | _ =>
    match (s.pin (c.u 2 2)).tdc.freq with
    | none => s
    | some f =>
      completeBad f.key 6 Code.stopped 0 (s.updPin (c.u 2 2) (fun x => { x with tdc := { x.tdc with freq := none } }))

/-- TDC.STOP (R371). -/
def doTdcStop (c : Cmd) (s : State) : State :=
  runCmd { op := 0x703, scopes := 25 } c
    (fun s t => [lenCheck c 8, rng c 0 1 0 2, rsv c 1 1, if c.u 0 1 = 2 then onePin c s t 2 else none])
    (fun s t => [tdcStopReach c s t, when? (!tdcRunning c s t) (rState Code.notRunning)])
    (fun t s => completeOk c.key 0 (tdcStopEffect c t s)) s

/-- TDC.STOP. -/
def execTdcStop (c : Cmd) (s : State) : Host.Outcome State Fault Refusal := .next (doTdcStop c s)

/-- The 2,048-byte record of a table (R251). A factory table that serves is full (R247, R250); a factory table that does
not serve has given way to a table being built with no hit yet. -/
def tableRecord (p : Nat) (i : Bool) (t : Tdc) : List Byte :=
  let x := t.tab i
  let serving := t.svc == i
  let empty := x.factory && !serving
  let cnt (b : Nat) : Nat := if empty then 0 else x.count i.toNat p b
  let pos (b : Nat) : Nat := if empty then 0 else x.pos i.toNat p b
  leBytes 2 p ++ leBytes 1 i.toNat ++ leBytes 1 (if serving then 1 else x.state.toNat) ++ leBytes 2 x.ce.toNat
    ++ leBytes 2 (ofSigned 16 x.temp) ++ leBytes 8 x.first.toNat ++ leBytes 8 x.last.toNat
    ++ leBytes 4 (if x.factory && serving then 1048576 else x.hits) ++ leBytes 36 0
    ++ (List.range 256).flatMap (fun b => leBytes 4 (cnt b)) ++ (List.range 256).flatMap (fun b => leBytes 2 (pos b))
    ++ leBytes 448 0

/-- TDC.CAL_READ (R251): both tables, the serving one first, into a buffer of one slot. -/
def doTdcCalRead (c : Cmd) (s : State) : State :=
  let p := c.u 0 2
  let b := bufOf c 8
  runCmd { op := 0x704, scopes := scopesDBLS } c
    (fun s t => [lenCheck c 16, onePin c s t 0, rsv c 2 6, bufField c 8 1 1, bufRange s b])
    (fun s t => [pinReach s t p, bufFence s b, bufFree s b])
    (fun _ s =>
      let t := (s.pin p).tdc
      let s := useStack c.key b.first (useBays c.key [p / 16] s)
      let s := grnStore b.addr (tableRecord p t.svc t ++ tableRecord p (!t.svc) t) (allocBuf b s)
      completeOk c.key b.addr (bufDone b.first s)) s

/-- TDC.CAL_READ. -/
def execTdcCalRead (c : Cmd) (s : State) : Host.Outcome State Fault Refusal := .next (doTdcCalRead c s)

/-- A pin's TDC stamps: SCLK runs, its bay is awake, its PE die has power, its units are not fenced (R22, R33, R250,
R463). -/
def tdcLive (s : State) (p : Nat) : Bool :=
  s.sclkOn && decide ((s.bay (p / 16)).state = 0) && (s.pin p).powered && (fenceCheck s [p / 2] []).isNone

/-- An edge is within 5 ns of the last stamp of its pin (R229). -/
def inDeadTime (t : Tdc) (m : Nat) : Bool :=
  match t.lastStamp with
  | none => false
  | some l => decide (m < l + tdcDeadSteps)

/-- TDC_EDGE (R228 to R232): the crossing is stamped by the serving interpolator and delivered, or is counted as dead. -/
def doTdcEdge (p : Nat) (rise : Bool) (cycle code : Nat) (s : State) : State :=
  let a := stampOf s p rise cycle code
  let s := advanceTo a.full.toNat s
  if tdcLive s p && (fifoWants s p rise || freqWants s p rise || !(tivTaps s p rise).isEmpty) then
    let m := s.monoOf a.full.toNat
    if inDeadTime (s.pin p).tdc m then deadEdge p rise s else deliverStamp p a m s
  else s

/-- TDC_EDGE. -/
def execTdcEdge (p : Fin 256) (rise : Bool) (cycle : BitVec 56) (code : BitVec 8) (s : State) :
    Host.Outcome State Fault Refusal :=
  .next (doTdcEdge p.val rise cycle.toNat code.toNat s)

/-- TDC_CAPTURE_END (R238): the end time of the capture with this first slot arrives. -/
def doTdcCaptureEnd (slot : Nat) (s : State) : State :=
  match s.caps.find? (fun c => c.first == slot) with
  | none => s
  | some c => if c.endAt = 0 then s else endCapture slot (advanceTo c.endAt s)

/-- TDC_CAPTURE_END. -/
def execTdcCaptureEnd (slot : BitVec 16) (s : State) : Host.Outcome State Fault Refusal := .next (doTdcCaptureEnd slot.toNat s)

/-- TDC_INTERVAL_TIMEOUT (R244). -/
def doTdcIntervalTimeout (n : Nat) (s : State) : State :=
  match (s.slice n).tiv.bind (·.timeoutAt) with
  | none => s
  | some m => endInterval n .timeout (advanceMono m s)

/-- TDC_INTERVAL_TIMEOUT. -/
def execTdcIntervalTimeout (n : Fin 128) (s : State) : Host.Outcome State Fault Refusal := .next (doTdcIntervalTimeout n.val s)

/-- TDC_FREQ_GATE_CLOSE (R245). -/
def doTdcFreqGateClose (p : Nat) (s : State) : State :=
  match (s.pin p).tdc.freq with
  | none => s
  | some f =>
    (advanceMono (f.openedAt + f.gate) s).updPin p (fun x => { x with tdc := { x.tdc with freq := some { f with closed := true } } })

/-- TDC_FREQ_GATE_CLOSE. -/
def execTdcFreqGateClose (p : Fin 256) (s : State) : Host.Outcome State Fault Refusal := .next (doTdcFreqGateClose p.val s)

/-- TDC_FREQ_NO_SIGNAL (R246): no end edge within G after the gate closed; the result is 0. -/
def doTdcFreqNoSignal (p : Nat) (s : State) : State :=
  match (s.pin p).tdc.freq with
  | none => s
  | some f => endFreq p (some (BitVec.ofNat 12 Code.noSignal)) 0 (advanceMono (f.openedAt + 2 * f.gate) s)

/-- TDC_FREQ_NO_SIGNAL. -/
def execTdcFreqNoSignal (p : Fin 256) (s : State) : Host.Outcome State Fault Refusal := .next (doTdcFreqNoSignal p.val s)

/-- A pin takes part in calibration: CAL_EN, its bay awake, its die powered (R248). -/
def inCalibration (s : State) (p : Nat) : Bool :=
  bit (s.pin p).tdc.ctrl 16 && decide ((s.bay (p / 16)).state = 0) && (s.pin p).powered

/-- A pin restarts its calibrating table (R248 step 2). -/
def restartTable (s : State) (t : Tdc) : Tdc :=
  { (t.setTab (!t.svc) { factory := false, first := s.stamp }) with inRound := true, checked := none }

/-- TDC_CAL_ROUND_START (R248): every pin that takes part restarts its calibrating table. -/
def doTdcCalRoundStart (s : State) : State :=
  if s.sclkOn && !s.tim.calActive then
    forAll ((List.range 256).filter (inCalibration s))
      (fun p s => s.updPin p (fun x => { x with tdc := restartTable s x.tdc }))
      (s.updTim (fun t => { t with calActive := true }))
  else s

/-- TDC_CAL_ROUND_START. -/
def execTdcCalRoundStart (s : State) : Host.Outcome State Fault Refusal := .next (doTdcCalRoundStart s)

/-- A table is accepted: every bin holds 1,024 to 16,384 hits of the 2^20 (R247, R249). -/
def tableOk (hits : List Nat) : Bool :=
  hits.all (fun h => decide (1024 ≤ h) && decide (h ≤ 16384)) && hits.foldl (· + ·) 0 == 1048576

/-- TDC_TABLE_CHECK (R249): a full table is checked, in a round or, for a bay that has woken, out of one (R250). TEMP is the
temperature of the pin's zone. -/
def doTdcTableCheck (p : Nat) (hits : List Nat) (s : State) : State :=
  let t := (s.pin p).tdc
  if (t.inRound || t.stale) && t.checked.isNone then
    let i := !t.svc
    let ok := tableOk hits
    let x : TdcTable := { t.tab i with
      factory := false, counts := hits, hits := hits.foldl (· + ·) 0, last := s.stamp, state := if ok then 0 else 2
      first := if t.inRound then (t.tab i).first else s.stamp
      temp := (s.zone (zoneOfBay (p / 16))).temp }
    s.updPin p (fun y => { y with tdc := { (y.tdc.setTab i x) with checked := some ok } })
  else s

/-- TDC_TABLE_CHECK. -/
def execTdcTableCheck (p : Fin 256) (hits : List Nat) (s : State) : Host.Outcome State Fault Refusal :=
  .next (doTdcTableCheck p.val hits s)

/-- A committed table takes over (R248 step 3): the interpolators swap roles; rejections, DEGRADED and CAL_STALE end (R249, R250). -/
def Tdc.swap (ce : BitVec 16) (t : Tdc) : Tdc :=
  let i := !t.svc
  let t := t.setTab t.svc { t.tab t.svc with state := 0 }
  { (t.setTab i { t.tab i with state := 1, ce := ce }) with
    svc := i, tableCe := ce, rej := 0, degraded := false, stale := false, inRound := false, checked := none }

/-- A pin keeps its table (R249): the rejection is counted; the third in a row degrades the pin. -/
def Tdc.reject (t : Tdc) : Tdc :=
  let r := min (t.rej.toNat + 1) 255
  { t with rej := BitVec.ofNat 8 r, degraded := t.degraded || decide (3 ≤ r), inRound := false, checked := none }

/-- A calibration is committed: CE advances and every running capture, interval unit and site log is marked (R6, R220, R236, R243). -/
def commitCe (s : State) : State :=
  let s := bumpCe s
  markSiteLogs s.ce.toNat (markIntervals s.ce.toNat (markCaptures 2 s.ce.toNat s))

/-- TDC_CAL_COMMIT (R248 to R250): every pin with an accepted table swaps, in one cycle; the others are rejected. CE advances once,
when at least one table is committed. -/
def doTdcCalCommit (s : State) : State :=
  let ps := (s.pins.filter (fun x => x.2.tdc.inRound || x.2.tdc.checked.isSome)).map (·.1)
  let good := ps.filter (fun p => (s.pin p).tdc.checked == some true)
  let bad := ps.filter (fun p => (s.pin p).tdc.checked != some true)
  let s := if good.isEmpty then s else commitCe s
  let s := forAll good (fun p s => s.updPin p (fun x => { x with tdc := x.tdc.swap s.ce })) s
  let s := forAll bad (fun p s => raise srcTdcCal 0 p (s.updPin p (fun x => { x with tdc := x.tdc.reject }))) s
  s.updTim (fun t => { t with
    calActive := false, calDone := t.calDone || !good.isEmpty, calRej := satAdd t.calRej bad.length })

/-- TDC_CAL_COMMIT. -/
def execTdcCalCommit (s : State) : Host.Outcome State Fault Refusal := .next (doTdcCalCommit s)

/-- FINE_DELAY_CAL_COMMIT (R6): a background calibration of the pins' fine delays. -/
def doFineDelayCalCommit (s : State) : State := if s.powered then commitCe s else s

/-- FINE_DELAY_CAL_COMMIT. -/
def execFineDelayCalCommit (s : State) : Host.Outcome State Fault Refusal := .next (doFineDelayCalCommit s)

end Sys2Proof.Machine
end

