-- ==== Sys2Proof/Machine/Cal.lean ====
section
/-!
DEFINITION. Commits of the background calibrations of a PMU (R207) and of a bay's waveform source and digitiser (R300).
-/
namespace Sys2Proof.Machine

/-- The ADC of a slice is idle (R191): neither PMU measures. -/
def adcIdle (s : State) (n : Nat) : Bool := !bit (s.pin (2 * n)).pmu.stat 0 && !bit (s.pin (2 * n + 1)).pmu.stat 0

/-- PMU_CAL_COMMIT (R207): only while that PMU is OFF and the slice's ADC is idle. -/
def doPmuCalCommit (p : Nat) (s : State) : State :=
  if s.powered ∧ (s.pin p).pmu.mode = 0 ∧ adcIdle s (p / 2) then commitCe s else s

/-- PMU_CAL_COMMIT. -/
def execPmuCalCommit (p : Fin 256) (s : State) : Host.Outcome State Fault Refusal := .next (doPmuCalCommit p.val s)

/-- ANA_CAL_COMMIT (R300): only while the source is OFF and the digitiser is not capturing. -/
def doAnaCalCommit (k : Nat) (s : State) : State :=
  if s.powered ∧ (s.awg k).mode = 0 ∧ (s.dig k).busy = false then commitCe s else s

/-- ANA_CAL_COMMIT. -/
def execAnaCalCommit (k : Fin 16) (s : State) : Host.Outcome State Fault Refusal := .next (doAnaCalCommit k.val s)

end Sys2Proof.Machine
end

