-- ==== Sys2Proof/Machine/TrgOps.lean ====
section
/-!
DEFINITION. Shared operations of the trigger sequencers (R304 to R309), the arm groups (R310 to R315) and the segmented
acquisitions (R316 to R323).
-/
namespace Sys2Proof.Machine

def State.trg (s : State) (k : Nat) : Trg := (s.bay k).trg
def State.updTrg (s : State) (k : Nat) (f : Trg → Trg) : State := s.updBay k (fun b => { b with trg := f b.trg })

/-- The start of the present ECLK cycle as a full stamp (R313). -/
def State.cycleStamp (s : State) : Full := BitVec.ofNat 80 (s.now.toNat / eclkSteps * eclkSteps)

/-! ## Sources (R305) -/

/-- A pulse source. -/
def isPulse (code : Nat) : Bool := (decide (0x01 ≤ code) && decide (code ≤ 0x12)) || code == 0x19
/-- A reserved code. -/
def isReserved (code : Nat) : Bool := code == 0x13 || decide (0x1C ≤ code)

/-- The local group of a bay (R310). -/
def groupOfBay (s : State) (k : Nat) : Option Nat := (List.range 16).find? (fun g => bit (s.group g).cfg k)

/-- TRG_TIME as a full stamp. -/
def Trg.fullTime (x : Trg) : Nat := x.time.toNat + fld x.timeEp 0 16 * 2 ^ 64

/-- A level source of a bay's sequencer at the present moment. -/
def levelOf (s : State) (k code : Nat) : Bool :=
  let x := s.trg k
  match code with
  | 0x00 => true
  | 0x14 => decide ((Tab.get 0 x.clim 0).toNat ≤ (Tab.get 0 x.cval 0).toNat)
  | 0x15 => decide ((Tab.get 0 x.clim 1).toNat ≤ (Tab.get 0 x.cval 1).toNat)
  | 0x16 => decide (Tab.get 0 x.tend 0 ≤ s.mono)
  | 0x17 => decide (Tab.get 0 x.tend 1 ≤ s.mono)
  | 0x18 => decide (x.fullTime ≤ s.now.toNat)
  | 0x1A => (groupOfBay s k).any (fun g => (s.group g).state == 2)
  | 0x1B => (s.dig k).done
  | _ => false

/-- A condition: code, whether it is inverted, target. -/
structure Cond where
  code : Nat
  inv : Bool
  next : Nat

def Trg.st (x : Trg) : Nat := fld x.ctrl 20 3
def Trg.condA (x : Trg) (n : Nat) : Cond :=
  let w := Tab.get 0 x.cond n
  { code := fld w 27 5, inv := bit w 26, next := fld w 23 3 }
def Trg.condB (x : Trg) (n : Nat) : Cond :=
  let w := Tab.get 0 x.cond n
  { code := fld w 11 5, inv := bit w 10, next := fld w 7 3 }

/-- A condition holds in a cycle in which these pulses have arrived. -/
def condHolds (s : State) (k : Nat) (ps : List Pulse) (c : Cond) : Bool :=
  (if isPulse c.code then ps.any (fun p => p.code == c.code) else levelOf s k c.code) != c.inv

/-- The moment at which a condition can next come to hold of itself: now, when it holds without a pulse, or when a timer or
TRG_TIME ends. -/
def condMoment (s : State) (k : Nat) (c : Cond) : Option Nat :=
  if condHolds s k [] c then some s.mono
  else if c.inv then none
  else match c.code with
    | 0x16 => some (Tab.get 0 (s.trg k).tend 0)
    | 0x17 => some (Tab.get 0 (s.trg k).tend 1)
    | 0x18 => some (s.monoOf (s.trg k).fullTime)
    | _ => none

/-! ## Acquisitions (R316 to R323) -/

def Acq.rs (a : Acq) : Nat := cdiv (64 + 2 * (a.pre + a.post)) 64 * 64

/-- Removes an acquisition: reservation released, buffer allocated still, DONE (R305, R323). -/
def dropAcq (k : Nat) (a : Acq) (s : State) : State :=
  let u := (s.dig k).units
  let s := s.updDig k (fun x => { x with acq := none, done := true, stat := setBit x.stat 1 false })
  bufDone a.first (release2 (stackOf s a.first) u s)

/-- The acquisition header (R321). -/
def acqHeader (s : State) (k : Nat) (a : Acq) : List Byte :=
  let x := s.dig k
  padTo 256 (leBytes 2 k ++ leBytes 1 a.group ++ leBytes 1 ((a.flags.toNat ||| a.wrap.toNat) ||| (a.refAbsent.toNat * 2))
    ++ leBytes 4 a.w3.toNat ++ leBytes 2 (a.start.toNat / 2 ^ 64) ++ leBytes 1 x.cfgByte ++ leBytes 1 x.decim ++ leBytes 4 a.rs
    ++ leBytes 4 a.pre ++ leBytes 4 a.post ++ leBytes 4 a.nrec ++ leBytes 4 0 ++ leBytes 8 (a.start.toNat % 2 ^ 64)
    ++ leBytes 8 (s.now.toNat % 2 ^ 64) ++ leBytes 8 a.records ++ leBytes 8 a.missTotal ++ leBytes 8 a.holdign
    ++ leBytes 4 a.missed ++ leBytes 2 s.ce.toNat ++ leBytes 2 (a.missStamp.toNat / 2 ^ 64)
    ++ leBytes 8 (a.missStamp.toNat % 2 ^ 64))

/-- An acquisition ends (R321, R323). `e` is given for a fence or a reset; otherwise `endBy` and the qualifiers decide. -/
def endAcq (k : Nat) (e : Option EndWith) (s : State) : State :=
  match (s.dig k).acq with
  | none => s
  | some a =>
    let addr := a.first * slotSize
    let s := if stackFenced s (stackOf s a.first) then s else grnStore addr (acqHeader s k a) s
    let s := dropAcq k a s
    let w6 : Word := BitVec.ofNat 32 addr
    let w7 : Word := BitVec.ofNat 32 (addr / 2 ^ 32)
    let (cls, code, detail) : Nat × Nat × Nat :=
      match e with
      | some e => (e.cls, e.code, e.detail)
      | none =>
        if a.endBy = 1 then (6, Code.stopped, 0)
        else if a.endBy = 2 ∧ !a.wrap ∧ a.records < a.nrec then (1, Code.acqShort, 0)
        else match a.qual with
          | some q => (1, q.toNat, 0)
          | none => (0, 0, 0)
    let s := complete a.key cls code detail w6 w7 [] s
    a.stopKeys.foldl (fun s q => completeOk q 0 s) s

/-- A stop or the group's return to IDLE: at once, or when the record in progress has been completed from the samples already
taken (R323). -/
def stopAcq (k : Nat) (why : BitVec 2) (key : Option Key) (s : State) : State :=
  match (s.dig k).acq with
  | none => s
  | some a =>
    if a.endBy = 0 then
      let s := s.updDig k (fun x => { x with acq := some { a with endBy := why, endAt := s.now, stopKeys := key.toList } })
      if a.inRecord.isSome then s else endAcq k none s
    else s.updDig k (fun x => { x with acq := some { a with stopKeys := a.stopKeys ++ key.toList } })

/-- The first grid sample at or after a stamp (R318). -/
def gridAt (a : Acq) (step t : Nat) : Nat := a.start.toNat + cdiv (t - a.start.toNat) step * step

/-- The valid samples of a record (R317, R318): FIRST_VALID and the index after the last valid one. -/
def validRange (a : Acq) (step t : Nat) : Nat × Nat :=
  let n := a.pre + a.post
  let trig := gridAt a step t
  let newest := a.start.toNat + (a.drawn - a.start.toNat) / step * step
  let lo := max (max a.emptied a.start.toNat) (newest + step - 65536 * step)
  -- index i is sampled at trig + (i - PRE) * step
  let first := min n (cdiv (lo + a.pre * step - trig) step)
  let last := if a.endBy = 0 then n else min n ((a.endAt.toNat + a.pre * step + step - trig) / step)
  (first, max first last)

/-- PRE_VALID. -/
def preValid (a : Acq) (r : Nat × Nat) : Nat := min a.pre r.2 - min a.pre r.1

/-- A trigger is taken for a bay (R314, R317): its record begins. -/
def takeRecord (k : Nat) (t : Full) (source : BitVec 8) (origin : BitVec 16) (late : Bool) (s : State) : State :=
  match (s.dig k).acq with
  | none => s
  | some a =>
    if a.endBy ≠ 0 then s
    else
      let b := { a with inRecord := some t, drawn := s.now.toNat, source := source, origin := origin, late := late
                        recMissed := a.missed, recMissStamp := a.missStamp, missed := 0, missStamp := 0
                        rsl := s.boot.sl, rtq := s.tim.tq, rce := s.ce
                        rth := s.throttled (BitVec.ofNat 16 (2 ^ k)) (BitVec.ofNat 2 (2 ^ stackOf s a.first)) }
      let short := decide (preValid b (validRange b (s.dig k).step t.toNat) < b.pre)
      let q := if late then some Code.late else if a.xgap then some Code.xgap else if short then some Code.shortPre else none
      s.updDig k (fun x => { x with acq := some { b with qual := a.qual.or (q.map (BitVec.ofNat 12)) } })

/-- A miss is counted against a bay (R322). -/
def missRecord (k : Nat) (t : Full) (s : State) : State :=
  match (s.dig k).acq with
  | none => s
  | some a =>
    if a.endBy ≠ 0 then s
    else s.updDig k (fun x => { x with acq := some { a with
      missed := a.missed + 1, missTotal := a.missTotal + 1, missStamp := if a.missed = 0 then t else a.missStamp
      flags := a.flags ||| 0x80#8, qual := a.qual.or (some (BitVec.ofNat 12 Code.missed)) } })

/-! ## Arm groups (R310 to R315) -/

def Ag.xen (x : Ag) : Bool := bit x.cfg 31
def Ag.mcg (x : Ag) : Nat := fld x.cfg 23 8
/-- MASTER: 0 host, 1 local bay, 2 remote. -/
def Ag.master (x : Ag) : Nat := fld x.cfg 21 2
def Ag.mbay (x : Ag) : Nat := fld x.cfg 17 4
/-- Local members (R310). -/
def Ag.members (x : Ag) : List Nat := bitsOf 16 (fld x.cfg 0 16)
def Ag.count (x : Ag) : Bool := bit x.hold 31
def Ag.each (x : Ag) : Bool := bit x.hold 30
/-- L in fine steps (R314). -/
def Ag.latency (x : Ag) : Nat := (if x.xen then fld x.xlat 0 16 else 4) * eclkSteps
/-- The end of BUSY (R311). -/
def Ag.busyEnd (x : Ag) : Nat := x.trigAt + x.recTime.toNat * eclkSteps
/-- The end of the re-arm (R311). -/
def Ag.rearmEnd (x : Ag) : Nat := x.busyEnd + 400 * eclkSteps

/-- Members that take part: a fenced bay takes none (R324). -/
def takingPart (s : State) (g : Nat) : List Nat := (s.group g).members.filter (fun k => !bayFenced s k && !dieFenced s (k / 8))

/-- A message of a cross-device group (R315): 0 arm, 1 ready, 2 fire, 3 disarm. -/
def sendTrg (g kind k : Nat) (t : Full) (s : State) : State :=
  let x := s.group g
  if x.xen then
    let s' := emit (.trigger { mcg := BitVec.ofNat 8 x.mcg, kind := BitVec.ofNat 2 kind, dev := s.devid, bay := BitVec.ofNat 4 k
                               gseq := x.seqOut, t := t })
      (s.updGroup g (fun x => { x with seqOut := x.seqOut + 1 }))
    originate 3 (0x8000 + x.mcg) 0x22 0
      (leBytes 1 kind ++ leBytes 1 k ++ leBytes 2 0 ++ leBytes 4 x.seqOut.toNat ++ leBytes 16 t.toNat) s'
  else s

/-- The group enters HOLD at a stamp (R311, R312): with HVAL = 0 it is READY at once. -/
def enterHold (t : Nat) (x : Ag) : Ag :=
  if x.hval = 0 then { x with state := 2, readyAt := t, holdCount := 0 }
  else { x with state := 1, readyAt := if x.count then 0 else t + x.hval.toNat * eclkSteps, holdCount := 0 }

/-- An arm with stamp a (R311). -/
def armGroup (g a : Nat) (s : State) : State :=
  s.updGroup g (fun x => enterHold a { x with armAt := a, fires := 0 })

/-- The group returns to IDLE: acquisitions of its members end (R311, R323). -/
def idleGroup (g : Nat) (s : State) : State :=
  let ks := (s.group g).members
  forAll ks (fun k s => if ((s.dig k).acq.map (·.group)) = some g then stopAcq k 2 none s else s)
    (s.updGroup g (fun x => { x with state := 0, holdCount := 0 }))

/-- The end of BUSY. -/
def agBusyOver (g : Nat) (s : State) : State := s.updGroup g (fun x => { x with state := 4 })

/-- The end of the re-arm (R311, R317): pre-trigger memories are emptied; IDLE after the NFIRE-th trigger, HOLD with EACH, else
READY. -/
def agRearmOver (g : Nat) (s : State) : State :=
  let x := s.group g
  let t := x.rearmEnd
  let s := forAll x.members (fun k s => s.updDig k (fun d => { d with acq := d.acq.map (fun a =>
    if a.group = g then { a with emptied := t } else a) })) s
  if x.nfire ≠ 0 ∧ x.nfire.toNat ≤ x.fires.toNat then idleGroup g s
  else if x.each then s.updGroup g (enterHold t)
  else s.updGroup g (fun x => { x with state := 2, readyAt := t })

/-- The hold-off is over: its time has come, or its pulses have been counted (R312). -/
def agHoldOver (x : Ag) (t : Nat) : Bool := x.readyAt != 0 && decide (x.readyAt ≤ t)

/-- Takes the moves of a group that are due at a stamp: end of BUSY, end of re-arm, end of hold-off. -/
def agCatch (g t : Nat) (s : State) : State :=
  let s := if (s.group g).state = 3 ∧ (s.group g).busyEnd ≤ t then agBusyOver g s else s
  let s := if (s.group g).state = 4 ∧ (s.group g).rearmEnd ≤ t then agRearmOver g s else s
  if (s.group g).state = 1 ∧ agHoldOver (s.group g) t then s.updGroup g (fun x => { x with state := 2 }) else s

/-- Orders fires by stamp, device and bay (R314). -/
def Fire.before (a b : Fire) : Bool :=
  decide (a.t < b.t) || (a.t == b.t && (decide (a.dev < b.dev) || (a.dev == b.dev && decide (a.bay < b.bay))))

/-- The earliest of fires. -/
def earliest : List Fire → Option Fire
  | [] => none
  | f :: l => match earliest l with
    | none => some f
    | some g => if g.before f then some g else some f

/-- The fate of a fire (R314, R374): 0 taken, 1 ignored in hold-off, 2 missed, 3 ignored in IDLE. -/
def fateOf (x : Ag) (t : Nat) : Nat :=
  if x.state = 0 then 3
  else if x.fires ≠ 0 ∧ x.trigAt ≤ t ∧ t < x.rearmEnd then 2
  else if x.state = 3 ∨ x.state = 4 then 2
  else if x.state = 1 ∨ t < x.readyAt then 1
  else 0

/-- Completes the host commands behind fires (R374). -/
def endFires (l : List Fire) (fate : Nat) (s : State) : State :=
  l.foldl (fun s f => f.key.toList.foldl (fun s k =>
    complete k 0 0 fate (BitVec.ofNat 32 f.t) (BitVec.ofNat 32 (f.t / 2 ^ 32)) [] s) s) s

/-- ORIGIN of a record header (R320). -/
def Fire.origin (f : Fire) : BitVec 16 :=
  if f.source = 0xFF then 0 else BitVec.ofNat 16 (0x8000 + f.bay.toNat * 1024 + f.dev.toNat)

/-- Decides one fire (R314). -/
def decideFire (g : Nat) (f : Fire) (s : State) : State :=
  let s := agCatch g f.t s
  let x := s.group g
  let fate := fateOf x f.t
  let same := x.known.filter (fun h => h.t == f.t)
  let s := s.updGroup g (fun x => { x with known := if fate = 0 then x.known.filter (fun h => h.t != f.t) else x.known.erase f })
  let ks := takingPart s g
  let t : Full := BitVec.ofNat 80 f.t
  match fate with
  | 0 =>
    let s := s.updGroup g (fun x => { x with
      state := 3, trigAt := f.t, last := t.setWidth 64, fires := satInc x.fires })
    let s := forAll ks (fun k s => takeRecord k t f.source f.origin f.late (pushPulse k 0x19 0 s.cycleStamp s)) s
    endFires same 0 s
  | 1 =>
    let s := s.updGroup g (fun x => { x with holdign := satInc x.holdign })
    let s := forAll ks (fun k s => s.updDig k (fun d => { d with acq := d.acq.map (fun a => { a with holdign := a.holdign + 1 }) })) s
    endFires [f] 1 s
  | 2 =>
    endFires [f] 2 (forAll ks (fun k s => missRecord k t s) (s.updGroup g (fun x => { x with miss := satInc x.miss })))
  | _ => endFires [f] 3 s

/-- A fire becomes known to its group (R313, R314); in a cross-device group a message carries it to the others (R315). -/
def fireGroup (g : Nat) (f : Fire) (s : State) : State :=
  sendTrg g 2 f.bay.toNat (BitVec.ofNat 80 f.t) (s.updGroup g (fun x => { x with known := x.known ++ [f] }))

/-! ## The sequencer (R304, R307, R308) -/

/-- An event reaches an engine's latch (R308). -/
def latchEvent (k e n : Nat) (s : State) : State :=
  s.updTrg k (fun x => { x with
    evlost := if bit x.set e then satInc x.evlost else x.evlost
    pend := Tab.set x.pend e (BitVec.ofNat 3 n), set := setBit x.set e true })

/-- The group that a bay's ARM and DISARM actions act on: it is the master (R307). -/
def masteredBy (s : State) (k : Nat) : Option Nat :=
  (List.range 16).find? (fun g => (s.group g).master == 1 && (s.group g).mbay == k)

/-- Entry actions of a state (R307). `cause` is the source that caused the move and `t` the stamp of a fire. -/
def entryActions (k n cause : Nat) (t : Full) (s : State) : State :=
  let w := Tab.get 0 (s.trg k).act n
  let s := forAll [0, 1] (fun i s =>
    let s := if bit w (26 + i) then s.updTrg k (fun x => { x with cval := Tab.set x.cval i 0 }) else s
    if bit w (24 + i) then
      s.updTrg k (fun x => { x with tend := Tab.set x.tend i (s.mono + (Tab.get 0 x.tlen i).toNat * eclkSteps) })
    else s) s
  let s := if bit w 31 then
      startBlks k [4] (triggerStarts k (forAll (bitsOf 9 (fld w 0 9)) (fun e s => latchEvent k e n s) s))
    else s
  let s :=
    if bit w 30 ∨ bit w 28 then
      match masteredBy s k with
      | none => s.updTrg k (fun x => { x with ctrl := setBit x.ctrl 1 true })
      | some g =>
        let a := s.cycleStamp
        let s := if bit w 30 ∧ (s.group g).state = 0 then sendTrg g 0 k a (armGroup g a.toNat s) else s
        if bit w 28 then sendTrg g 3 k a (idleGroup g s) else s
    else s
  if bit w 29 then
    match groupOfBay s k with
    | none => s
    | some g => fireGroup g { t := t.toNat, dev := s.devid, bay := BitVec.ofNat 4 k, source := BitVec.ofNat 8 cause } s
  else s

/-- The sequencer enters a state and runs its entry actions in the same cycle. -/
def enterState (k n cause : Nat) (t : Full) (s : State) : State :=
  entryActions k n cause t (s.updTrg k (fun x => { x with ctrl := setFld x.ctrl 20 3 n, lastMove := some s.mono }))

/-- Counters count the pulses of their source (R307). -/
def countPulses (k : Nat) (ps : List Pulse) (s : State) : State :=
  forAll [0, 1] (fun i s => s.updTrg k (fun x =>
    { x with cval := Tab.set x.cval i (satAdd (Tab.get 0 x.cval i)
        (ps.filter (fun p => p.code == fld (Tab.get 0 x.csrc i) 0 5)).length) })) s

/-- Arm groups in COUNT hold-off that this bay masters count pulses (R312). The HVAL-th makes r, which a cross-device master
sends. -/
def holdPulses (k : Nat) (ps : List Pulse) (s : State) : State :=
  match masteredBy s k with
  | none => s
  | some g =>
    ps.foldl (fun s p =>
      let x := s.group g
      if x.state = 1 ∧ x.count ∧ x.readyAt = 0 ∧ p.code = fld x.hold 25 5 then
        if x.holdCount + 1 = x.hval.toNat then
          sendTrg g 1 k p.stamp (s.updGroup g (fun x => { x with holdCount := x.holdCount + 1, readyAt := p.stamp.toNat }))
        else s.updGroup g (fun x => { x with holdCount := x.holdCount + 1 })
      else s) s

/-- The stamp that a fire takes from what caused the move (R313). -/
def causeStamp (s : State) (k : Nat) (ps : List Pulse) (c : Cond) : Full :=
  if c.inv then s.cycleStamp
  else if c.code = 0x18 then BitVec.ofNat 80 (s.trg k).fullTime
  else if decide (0x0A ≤ c.code) && decide (c.code ≤ 0x12) then ((ps.find? (fun p => p.code == c.code)).map (·.stamp)).getD s.cycleStamp
  else s.cycleStamp

/-- One evaluation of the present state (R304): A, else B, else it stays. -/
def seqEvaluate (k : Nat) (ps : List Pulse) (s : State) : State :=
  let x := s.trg k
  let a := x.condA x.st
  let b := x.condB x.st
  if condHolds s k ps a then enterState k a.next a.code (causeStamp s k ps a) s
  else if condHolds s k ps b then enterState k b.next b.code (causeStamp s k ps b) s
  else s.updTrg k (fun x => { x with lastMove := some s.mono })

/-- The least of moments. -/
def leastOf (l : List Nat) : Option Nat := l.foldl (fun m t => some (match m with
  | none => t
  | some u => min u t)) none

/-- The next cycle in which something can happen at a sequencer, not before the cycle after its last evaluation (R304). -/
def seqMoment (s : State) (k : Nat) (now : Bool) : Option Nat :=
  let x := s.trg k
  let l := (if now then [s.mono] else []) ++ x.pulses.map (·.at_) ++ (condMoment s k (x.condA x.st)).toList
    ++ (condMoment s k (x.condB x.st)).toList
  (leastOf l).map (fun t => max (max t s.mono) (match x.lastMove with
    | none => 0
    | some m => m + eclkSteps))

/-- The sequencer of a bay runs to its next cycle (R304, R305, R307): pulses that have arrived in it are evaluated and counted,
those of earlier cycles are counted only. -/
def seqCycle (k : Nat) (env : List Pulse) (s : State) : State :=
  if bit (s.trg k).ctrl 31 then
    match seqMoment s k (!env.isEmpty) with
    | none => s
    | some t =>
      let s := advanceMono t s
      let due := (s.trg k).pulses.filter (fun p => decide (p.at_ ≤ s.mono))
      let s := s.updTrg k (fun x => { x with pulses := x.pulses.filter (fun p => decide (s.mono < p.at_)) })
      let here := due.filter (fun p => decide (s.mono < p.at_ + eclkSteps)) ++ env
      let s := seqEvaluate k here s
      holdPulses k (due ++ env) (countPulses k (due ++ env) s)
  else s

/-- The sequencer stops where it stands (R304, R324); with `clear` its latches and counters clear too. -/
def seqOff (k : Nat) (clear : Bool) (s : State) : State :=
  s.updTrg k (fun x =>
    let y := { x with ctrl := setBit x.ctrl 31 false, pulses := [] }
    if clear then { y with set := 0, pend := [], cval := [], tend := [], evlost := 0 } else y)

end Sys2Proof.Machine
end

