-- ==== Sys2Proof/Machine/Trg.lean ====
section
/-!
DEFINITION. The TRG commands (R374), the registers (R325, R326) and the events of trigger sequencers, arm groups and
acquisitions.
-/
namespace Sys2Proof.Machine

/-! ## Commands -/

/-- TRG.ARM (R311, R312, R374): the arm stamp is the start of the execution cycle. -/
def doTrgArm (c : Cmd) (s : State) : State :=
  let g := c.u 0 1
  runCmd { op := 0xA00, scopes := 1 } c
    (fun s _ => [lenCheck c 8, rng c 0 1 0 15, rsv c 1 7,
      when? ((s.group g).count && (s.group g).master == 0) (rFormat Code.trgHold)])
    (fun s _ => [when? ((s.group g).master != 0) (rState Code.trgNotMaster g),
      when? ((s.group g).state != 0) (rState Code.trgArmed g)])
    (fun _ s =>
      let a := s.cycleStamp
      completeOk c.key (a.toNat % 2 ^ 64) (sendTrg g 0 0 a (armGroup g a.toNat s))) s

/-- TRG.ARM. -/
def execTrgArm (c : Cmd) (s : State) : Host.Outcome State Fault Refusal := .next (doTrgArm c s)

/-- TRG.DISARM (R311, R374): from any state. -/
def doTrgDisarm (c : Cmd) (s : State) : State :=
  let g := c.u 0 1
  runCmd { op := 0xA01, scopes := 1 } c
    (fun _ _ => [lenCheck c 8, rng c 0 1 0 15, rsv c 1 7])
    (fun s _ => [when? ((s.group g).master != 0) (rState Code.trgNotMaster g)])
    (fun _ s => completeOk c.key 0 (sendTrg g 3 0 s.cycleStamp (idleGroup g s))) s

/-- TRG.DISARM. -/
def execTrgDisarm (c : Cmd) (s : State) : Host.Outcome State Fault Refusal := .next (doTrgDisarm c s)

/-- TRG.FIRE (R313, R314, R374): completes with the decision. -/
def doTrgFire (c : Cmd) (s : State) : State :=
  let g := c.u 0 1
  runCmd { op := 0xA02, scopes := 1 } c
    (fun _ _ => [lenCheck c 8, rng c 0 1 0 15, rsv c 1 7]) (fun _ _ => [])
    (fun _ s => fireGroup g { t := s.cycleStamp.toNat, dev := s.devid, key := some c.key } s) s

/-- TRG.FIRE. -/
def execTrgFire (c : Cmd) (s : State) : Host.Outcome State Fault Refusal := .next (doTrgFire c s)

/-- TRG_PARAM (R316 order 1). -/
def acqParamBad (pre post nrec : Nat) : Bool :=
  decide (65536 < pre) || decide (post < 16) || decide (16777216 < post) || pre % 16 != 0 || post % 16 != 0 ||
    decide (pre + post < 32) || decide (nrec < 1) || decide (1048576 < nrec)

/-- The checks of TRG.ACQUIRE that depend on the bay's group and digitiser (R316 orders 3 to 8). -/
def acqState (c : Cmd) (k : Nat) (s : State) : List (Option Reason) :=
  let b := bufOf c 0x10
  let x := s.dig k
  let p := 2 ^ x.decim
  match groupOfBay s k with
  | none => [some (rState Code.trgNogroup k)]
  | some g =>
    let y := s.group g
    let rs := cdiv (64 + 2 * (c.u 0 4 + c.u 4 4)) 64 * 64
    [when? x.busy (rState Code.anaBusy k),
     when? (decide (y.recTime.toNat * 4 < c.u 4 4 * p)) (rFormat Code.trgPost 4),
     when? (y.xen && decide (65536 * p < c.u 0 4 * p + fld y.xlat 0 16 * 4)) (rResource Code.trgRing),
     when? (decide (b.size < 256 + c.u 8 4 * rs)) (rResource Code.capSmall),
     rsvCheck s (stackOf s b.first) x.units]

/-- An acquisition starts (R316, R317). -/
def startAcq (c : Cmd) (k g : Nat) (s : State) : State :=
  let b := bufOf c 0x10
  let s := useStack c.key b.first (useBays c.key [k] (releaseWork c.key s))
  let s := reserve2 (stackOf s b.first) (s.dig k).units (allocBuf b s)
  let t := cdiv s.now.toNat 256 * 256 + fld (s.dig k).dly 0 9
  let a : Acq := { key := c.key, pre := c.u 0 4, post := c.u 4 4, nrec := c.u 8 4, wrap := b.wrap, first := b.first, count := b.count
                   group := g, start := BitVec.ofNat 80 t, emptied := t, refAbsent := s.refAbsent
                   qual := if s.refAbsent then some (BitVec.ofNat 12 Code.refAbsent) else none }
  s.updDig k (fun x => { x with acq := some a, done := false, stat := setBit x.stat 1 true })

/-- TRG.ACQUIRE (R316, R374). -/
def doTrgAcquire (c : Cmd) (s : State) : State :=
  let k := bayArg c
  let b := bufOf c 0x10
  runCmd { op := 0xA03, scopes := 4 } c
    (fun s _ => [lenCheck c 24, rsv c 12 4, bufField c 0x10 1 1024,
      when? (acqParamBad (c.u 0 4) (c.u 4 4) (c.u 8 4)) (rFormat Code.trgParam 0), bufRange s b])
    (fun s _ => [fenceCheck s [] [k], bufFence s b, bufFree s b] ++ acqState c k s)
    (fun _ s => match groupOfBay s k with
      | none => s
      | some g => startAcq c k g s) s

/-- TRG.ACQUIRE. -/
def execTrgAcquire (c : Cmd) (s : State) : Host.Outcome State Fault Refusal := .next (doTrgAcquire c s)

/-- TRG.ACQ_STOP (R323, R374): completes when the acquisition has ended. -/
def doTrgAcqStop (c : Cmd) (s : State) : State :=
  let k := bayArg c
  runCmd { op := 0xA04, scopes := 4 } c
    (fun _ _ => [lenCheck c 0])
    (fun s _ => [fenceCheck s [] [k], when? (s.dig k).acq.isNone (rState Code.notRunning k)])
    (fun _ s => stopAcq k 1 (some c.key) s) s

/-- TRG.ACQ_STOP. -/
def execTrgAcqStop (c : Cmd) (s : State) : Host.Outcome State Fault Refusal := .next (doTrgAcqStop c s)

/-! ## Registers of a sequencer (R309, R325) -/

/-- TRG_RUNNING (R309). -/
def trgFrozen (s : State) (k : Nat) : Option Reason := when? (bit (s.trg k).ctrl 31) (rState Code.trgRunning k)

/-- A write of TRG_CTRL (R304, R309): enabling enters INIT and runs its entry actions; disabling discards pending pulses. -/
def writeTrgCtrl (k : Nat) (v : Word) (s : State) : WRes :=
  let x := s.trg k
  let en := bit x.ctrl 31
  guarded [bayRegReach s k, when? (en && fld v 16 3 != fld x.ctrl 16 3) (rState Code.trgRunning k)]
    (.done
      (let s := s.updTrg k (fun x => { x with
         ctrl := setFld (if bit v 1 then setBit x.ctrl 1 false else x.ctrl) 16 3 (fld v 16 3) })
       if bit v 31 && !en then
         enterState k (fld v 16 3) 0 s.cycleStamp (s.updTrg k (fun x => { x with ctrl := setBit x.ctrl 31 true }))
       else if en && !bit v 31 then seqOff k false s
       else s))

/-- TRG_CTRL_EN. -/
def execTrgCtrlEn (a : Agent) (k : Fin 16) (v : BitVec 32) (s : State) : Host.Outcome State Fault Refusal :=
  .next (regRow (.trg k.val 0x000) v a (fun e _ => engBayUnit e k.val) (writeTrgCtrl k.val v) s)

/-- A write of a register of a sequencer at an offset from 0x7000 (R305, R309, R325). -/
def writeTrgReg (k off : Nat) (v : Word) (s : State) : WRes :=
  let put (checks : List (Option Reason)) (f : Trg → Trg) : WRes :=
    guarded (checks ++ [bayRegReach s k, trgFrozen s k]) (.done (s.updTrg k f))
  let free (f : Trg → Trg) : WRes := guarded [bayRegReach s k] (.done (s.updTrg k f))
  let csrc (i : Nat) : WRes :=
    put [when? (!(isPulse (fld v 0 5))) (rFormat Code.trgCond 0)] (fun x => { x with csrc := Tab.set x.csrc i (v &&& 0x1F#32) })
  match off with
  | 0x000 => writeTrgCtrl k v s
  | 0x010 => csrc 0
  | 0x014 => put [] (fun x => { x with clim := Tab.set x.clim 0 v })
  | 0x020 => csrc 1
  | 0x024 => put [] (fun x => { x with clim := Tab.set x.clim 1 v })
  | 0x040 => put [] (fun x => { x with tlen := Tab.set x.tlen 0 v })
  | 0x048 => put [] (fun x => { x with tlen := Tab.set x.tlen 1 v })
  | 0x050 => put [] (fun x => { x with diglvl := v &&& 0xFFFFCFFF#32 })
  | 0x058 => free (fun x => { x with time := setFld x.time 0 32 v.toNat })
  | 0x05C => free (fun x => { x with time := setFld x.time 32 32 v.toNat })
  | 0x060 => free (fun x => { x with timeEp := v &&& 0xFFFF#32 })
  | _ =>
    if 0x100 ≤ off ∧ off < 0x140 then
      let n := (off - 0x100) / 8
      if off % 8 = 0 then
        put [when? (isReserved (fld v 27 5)) (rFormat Code.trgCond 27), when? (isReserved (fld v 11 5)) (rFormat Code.trgCond 11)]
          (fun x => { x with cond := Tab.set x.cond n (v &&& 0xFF80FF80#32) })
      else put [] (fun x => { x with act := Tab.set x.act n (v &&& 0xFF0001FF#32) })
    else guarded [bayRegReach s k] (.done s)

/-- TRG_STATE_MOVE (R304, R305): the sequencer runs to its next cycle. `pulses` are the pulse sources that the outside world
brings in that cycle, by code, and `t` their stamp. -/
def doTrgStateMove (k : Nat) (pulses : BitVec 32) (t : Full) (s : State) : State :=
  seqCycle k ((bitsOf 32 pulses.toNat).filter isPulse |>.map (fun c => { code := c, stamp := t })) s

/-- TRG_STATE_MOVE. -/
def execTrgStateMove (k : Fin 16) (pulses : BitVec 32) (t : BitVec 80) (s : State) : Host.Outcome State Fault Refusal :=
  .next (doTrgStateMove k.val pulses t s)

/-! ## Registers and events of an arm group (R310 to R315, R326) -/

/-- A write of a register of an arm group at its offset (R310, R326). -/
def writeAgReg (g off : Nat) (v : Word) (s : State) : WRes :=
  let x := s.group g
  let put (checks : List (Option Reason)) (f : Ag → Ag) : WRes :=
    guarded (checks ++ [when? (x.state != 0) (rState Code.trgArmed g)]) (.done (s.updGroup g f))
  match off with
  | 0x00 =>
    let taken := (List.range 16).find? (fun k => bit v k && (List.range 16).any (fun h => h != g && bit (s.group h).cfg k))
    guarded [when? (fld v 21 2 == 3) (badField 21), when? (x.state != 0) (rState Code.trgArmed g),
        taken.map (fun k => rState Code.trgMember k)]
      (.done (s.updGroup g (fun x => { x with cfg := v &&& 0xFFFEFFFF#32 })))
  | 0x04 => put [] (fun x => { x with hold := v &&& 0xFE000000#32 })
  | 0x08 => put [] (fun x => { x with hval := v })
  | 0x0C => put [] (fun x => { x with recTime := v })
  | 0x10 => put [when? (decide (fld v 0 16 < 40)) (badField 0)] (fun x => { x with xlat := v &&& 0xFFFF#32 })
  | 0x14 => put [] (fun x => { x with nfire := v })
  | _ => .done s

/-- AG_READY (R312): the hold-off ends at r. -/
def doAgReady (g : Nat) (s : State) : State :=
  let x := s.group g
  if x.state = 1 ∧ x.readyAt ≠ 0 then
    (advanceTo x.readyAt s).updGroup g (fun x => { x with state := 2 })
  else s

/-- AG_READY. -/
def execAgReady (g : Fin 16) (s : State) : Host.Outcome State Fault Refusal := .next (doAgReady g.val s)

/-- AG_TRIGGER_DECIDE (R314): the earliest fire is decided at t + L. -/
def doAgTriggerDecide (g : Nat) (s : State) : State :=
  match earliest (s.group g).known with
  | none => s
  | some f => decideFire g f (advanceTo (f.t + (s.group g).latency) s)

/-- AG_TRIGGER_DECIDE. -/
def execAgTriggerDecide (g : Fin 16) (s : State) : Host.Outcome State Fault Refusal := .next (doAgTriggerDecide g.val s)

/-- AG_BUSY_END (R311): REC_TIME after the trigger. -/
def doAgBusyEnd (g : Nat) (s : State) : State :=
  if (s.group g).state = 3 then agBusyOver g (advanceTo (s.group g).busyEnd s) else s

/-- AG_BUSY_END. -/
def execAgBusyEnd (g : Fin 16) (s : State) : Host.Outcome State Fault Refusal := .next (doAgBusyEnd g.val s)

/-- AG_REARM_END (R311): 400 ECLK cycles after the end of BUSY. -/
def doAgRearmEnd (g : Nat) (s : State) : State :=
  if (s.group g).state = 4 then agRearmOver g (advanceTo (s.group g).rearmEnd s) else s

/-- AG_REARM_END. -/
def execAgRearmEnd (g : Fin 16) (s : State) : Host.Outcome State Fault Refusal := .next (doAgRearmEnd g.val s)

/-- A gap in the sequence numbers of a device (R315). -/
def seqGap (g : Nat) (m : TrgMsg) (s : State) : State :=
  let x := s.group g
  let gap := match Tab.find x.seqIn m.dev.toNat with
    | none => false
    | some n => n + 1 != m.gseq
  let s := s.updGroup g (fun x => { x with seqIn := Tab.set x.seqIn m.dev.toNat m.gseq
                                           xgap := if gap then satInc x.xgap else x.xgap })
  if gap then
    forAll x.members (fun k s => s.updDig k (fun d => { d with acq := d.acq.map (fun a => { a with xgap := true }) })) s
  else s

/-- A cross-device message reaches a group (R315). -/
def groupMessage (m : TrgMsg) (g : Nat) (s : State) : State :=
  let s := seqGap g m s
  let x := s.group g
  match m.kind.toNat with
  | 0 => if x.master = 2 ∧ x.state = 0 then armGroup g m.t.toNat s else s
  | 1 => if x.master = 2 ∧ x.state = 1 ∧ x.count then s.updGroup g (fun x => { x with readyAt := m.t.toNat }) else s
  | 2 =>
    let late := decide (m.t.toNat + x.latency < s.now.toNat)
    let f : Fire := { t := m.t.toNat, dev := m.dev, bay := m.bay, source := 0xFE, late := late }
    let s := s.updGroup g (fun x => { x with known := x.known ++ [f], xlate := if late then satInc x.xlate else x.xlate })
    if late then decideFire g f (raise srcXfireLate 0 0 s) else s
  | _ => if x.master = 2 then idleGroup g s else s

/-- TRG_MESSAGE_RX (R315): every group of the multicast group but one that the device itself sent to. -/
def doTrgMessageRx (m : TrgMsg) (s : State) : State :=
  if m.dev = s.devid then s
  else forAll ((List.range 16).filter (fun g => (s.group g).xen && (s.group g).mcg == m.mcg.toNat)) (groupMessage m) s

/-- TRG_MESSAGE_RX. -/
def execTrgMessageRx (m : TrgMsg) (s : State) : Host.Outcome State Fault Refusal := .next (doTrgMessageRx m s)

/-! ## Records (R318 to R320) -/

/-- Where record `i` stands (R319). -/
def recordAddr (a : Acq) (i : Nat) : Nat := a.first * slotSize + 0x100 + (if a.wrap then i % a.nrec else i) * a.rs

/-- A record header (R320). -/
def recordHeader (a : Acq) (t : Full) (flags : Nat) (step : Nat) (r : Nat × Nat) : List Byte :=
  let w3 := tagWord a.rsl a.rtq a.rth a.rce
  let s0 := gridAt a step t.toNat - a.pre * step
  padTo 64 (leBytes 8 a.records ++ leBytes 8 (t.toNat % 2 ^ 64) ++ leBytes 2 (t.toNat / 2 ^ 64) ++ leBytes 1 flags
    ++ leBytes 1 a.source.toNat ++ leBytes 4 w3.toNat ++ leBytes 4 (preValid a r) ++ leBytes 4 r.1 ++ leBytes 4 a.recMissed
    ++ leBytes 4 0 ++ leBytes 8 (a.recMissStamp.toNat % 2 ^ 64) ++ leBytes 8 (s0 % 2 ^ 64) ++ leBytes 2 (a.recMissStamp.toNat / 2 ^ 64)
    ++ leBytes 2 a.origin.toNat)

/-- ACQ_RECORD_DONE (R318 to R320, R323): `samples` are the containers of the record by index; an index that is not valid is
written as 0. -/
def doAcqRecordDone (k : Nat) (samples : List (BitVec 16)) (clamped : Bool) (s : State) : State :=
  match (s.dig k).acq with
  | none => s
  | some a =>
    match a.inRecord with
    | none => s
    | some t =>
      let step := (s.dig k).step
      let r := validRange a step t.toNat
      let n := a.pre + a.post
      let s := if a.endBy = 0 then advanceTo (gridAt a step t.toNat + (a.post - 1) * step) s else s
      let v := (List.range n).map (fun i => if r.1 ≤ i ∧ i < r.2 then samples.getD i 0 else 0)
      let ovr := v.any (fun b => bit b 0)
      let short := decide (preValid a r < a.pre)
      let flags := ovr.toNat + (a.source == 0xFE).toNat * 2 + a.late.toNat * 4 + a.refAbsent.toNat * 8 + clamped.toNat * 16
        + short.toNat * 32 + a.xgap.toNat * 64
      let s := grnStore (recordAddr a a.records)
        (padTo a.rs (recordHeader a t flags step r ++ sampleBytes v)) s
      let hdr := (a.refAbsent.toNat * 2) ||| (ovr.toNat * 4) ||| (clamped.toNat * 8) ||| (a.late.toNat * 16) ||| (a.xgap.toNat * 32)
        ||| (short.toNat * 64)
      let q : Option Nat := if ovr then some Code.ovr else if clamped then some Code.clamped else none
      let b := { a with
        records := a.records + 1, inRecord := none, xgap := false, late := false
        flags := a.flags ||| BitVec.ofNat 8 hdr, qual := a.qual.or (q.map (BitVec.ofNat 12))
        w3 := if a.records = 0 then tagWord a.rsl a.rtq a.rth a.rce else a.w3 }
      let s := s.updDig k (fun x => { x with
        acq := some b, stat := setBit (setBit x.stat 2 (bit x.stat 2 || ovr)) 3 (bit x.stat 3 || clamped)
        last := BitVec.ofNat 32 ((v.getLast?.map BitVec.toNat).getD (fld x.last 0 16)) })
      if b.endBy ≠ 0 ∨ (!b.wrap ∧ b.nrec ≤ b.records) then endAcq k none s else s

/-- ACQ_RECORD_DONE. -/
def execAcqRecordDone (k : Fin 16) (samples : List (BitVec 16)) (clamped : Bool) (s : State) : Host.Outcome State Fault Refusal :=
  .next (doAcqRecordDone k.val samples clamped s)

end Sys2Proof.Machine
end

