-- ==== Sys2Proof/Machine/EngOps.lean ====
section
/-!
DEFINITION. Shared operations of the engines (R147 to R188): microword fields, parity, conditions, events, the parts of a
word's execution, calls, master copies and store loads.
-/
namespace Sys2Proof.Machine

/-! ## The microword (R150) -/

abbrev MWord := BitVec 128

def mwSeq (w : MWord) : Nat := fld w 124 4
def mwCond (w : MWord) : Nat := fld w 118 6
def mwCinv (w : MWord) : Bool := bit w 117
def mwLcs (w : MWord) : Nat := fld w 115 2
def mwEg (w : MWord) : Nat := fld w 113 2
def mwSp (w : MWord) : Bool := bit w 112
def mwTgt (w : MWord) : Nat := fld w 96 14
def mwAlu (w : MWord) : Nat := fld w 92 4
def mwSa (w : MWord) : Nat := fld w 88 4
def mwSb (w : MWord) : Nat := fld w 84 4
def mwBsel (w : MWord) : Nat := fld w 82 2
def mwDst (w : MWord) : Nat := fld w 77 5
def mwIfu (w : MWord) : Nat := fld w 73 4
def mwIfop (w : MWord) : Nat := fld w 69 4
def mwIfa (w : MWord) : Nat := fld w 65 4
def mwUf (w : MWord) : Nat := fld w 60 4
def mwCnt (w : MWord) : Nat := fld w 32 16
def mwImm (w : MWord) : Nat := fld w 0 32

/-! ## Kinds and sizes (R147, R171) -/

/-- Engines 0 to 127 are slice engines, 128 + k is the engine of BAY_k. -/
def isSliceEng (e : Nat) : Bool := decide (e < 128)

/-- Words in a control store. -/
def storeSize (slice : Bool) : Nat := if slice then 4096 else 16384

/-- An address cut to the store (R153). -/
def engAddr (e a : Nat) : BitVec 14 := BitVec.ofNat 14 (a % storeSize (isSliceEng e))

/-- The units an engine has (R147), by IFU code, and their operations (R157). -/
def unitOps (slice : Bool) (u : Nat) : Nat :=
  match u with
  | 1 => if slice then 2 else 0
  | 2 => if slice then 6 else 0
  | 3 => if slice then 4 else 0
  | 4 => if slice then 3 else 0
  | 5 => if slice then 5 else 0
  | 6 => 2
  | 7 => 2
  | 8 => 3
  | 9 => 2
  | 10 => 2
  | _ => 0

/-- A condition exists in this kind of engine (R154). -/
def condExists (slice : Bool) (c : Nat) : Bool :=
  decide (c ≤ 0x12) || c == 0x1A || c == 0x1B || (slice && decide (0x13 ≤ c) && decide (c ≤ 0x19))

/-- A word that a store of this kind may hold (R151). -/
def wordLegal (slice : Bool) (w : MWord) : Bool :=
  let ifu := mwIfu w
  fld w 110 2 == 0 && !bit w 64 && fld w 48 12 == 0
    && decide (mwSeq w ≤ 8) && condExists slice (mwCond w) && decide (mwEg w ≤ 2) && decide (mwAlu w ≤ 11)
    && decide (mwDst w ≤ 0x13) && (ifu == 0 || decide (mwIfop w < unitOps slice ifu)) && (ifu != 0 || mwIfop w == 0)
    && decide (mwTgt w < storeSize slice)
    && !(ifu == 5 && mwIfop w == 3 && mwIfa w == 15)
    && (mwSeq w != 8 || decide (mwImm w < 2))

/-! ## Parity (R168) -/

/-- The number of ones in the low `n` bits. -/
def onesIn : Nat → Nat → Nat
  | 0, _ => 0
  | n + 1, v => v % 2 + onesIn n (v / 2)

/-- The parity bits P7 to P0 of a word. -/
def parityOf (w : MWord) : Nat := bitsToNat ((List.range 8).filter (fun j => onesIn 16 (fld w (16 * j) 16) % 2 == 0))

/-- The entry that stores a word. -/
def entryOf (w : MWord) : BitVec 136 := BitVec.ofNat 136 (parityOf w * 2 ^ 128 + w.toNat)

/-- The groups of an entry that fail their check (SYN of R188). -/
def syndrome (x : BitVec 136) : Nat :=
  bitsToNat ((List.range 8).filter (fun j => (onesIn 16 (fld x (16 * j) 16) + (bit x (128 + j)).toNat) % 2 == 0))

/-- The entry at an address of an engine's store. -/
def Engine.entry (x : Engine) (a : BitVec 14) : BitVec 136 := Tab.get haltEntry x.store a.toNat

/-! ## Registers of an engine -/

def Engine.srv (x : Engine) (i : Nat) : Word := Tab.get 0 x.sr i
def Engine.lcv (x : Engine) (i : Nat) : Word := Tab.get 0 x.lc i
def Engine.setSr (x : Engine) (i : Nat) (v : Word) : Engine := { x with sr := Tab.set x.sr i v }
def Engine.setLc (x : Engine) (i : Nat) (v : Word) : Engine := { x with lc := Tab.set x.lc i v }
def Engine.aluf (x : Engine) : Nat := x.z.toNat * 8 + x.n.toNat * 4 + x.c.toNat * 2 + x.v.toNat

/-- The timer's remaining cycles (R157). -/
def Engine.timerLeft (x : Engine) (mono : Nat) : Nat := if x.timerEnd ≤ mono then 0 else cdiv (x.timerEnd - mono) eclkSteps

/-- The timer is at 0 (R154); TIMER latches as an event when enabled (R182). -/
def Engine.timerHit (x : Engine) : Engine :=
  { x with timerEnd := 0, timerZero := true, latched := if bit x.even 3 then setBit x.latched 3 true else x.latched }

/-- The timer reaches 0 once its end has come. -/
def timerCatch (e : Nat) (s : State) : State :=
  let x := s.eng e
  if x.timerEnd ≠ 0 ∧ x.timerEnd ≤ s.mono then s.updEng e Engine.timerHit else s

/-! ## Conditions (R154) -/

/-- The selected pin of a slice engine (R191). -/
def selPin (s : State) (e : Nat) : Nat := 2 * e + (s.eng e).sel.toNat

/-- The number of an engine within its bay: 0 to 7 its slices, 8 the bay engine (R305, R308). -/
def lineOf (e : Nat) : Nat := if e < 128 then e % 8 else 8

/-- RUN: the engine's site has started a run and has not ended. -/
def runCond (s : State) (e : Nat) : Bool :=
  match homeSite s e with
  | none => false
  | some x => s.runs.any (fun h => h.2.phase == 2 && h.2.members.contains x && (h.2.site x).live)

/-- MON: a reachable monitor has signalled since its last acknowledgement (R148, R270). -/
def monCond (s : State) (e : Nat) : Bool :=
  s.mons.any (fun m => engMon s e m.1 && bit m.2.stat 7 && bit m.2.cfg 2)

/-- The condition sources. -/
def condSource (s : State) (e c : Nat) : Bool :=
  let x := s.eng e
  match c with
  | 0x00 => true
  | 0x01 => x.z
  | 0x02 => x.n
  | 0x03 => x.c
  | 0x04 => x.v
  | 0x05 => bit x.uf 0
  | 0x06 => bit x.uf 1
  | 0x07 => bit x.uf 2
  | 0x08 => bit x.uf 3
  | 0x09 => x.lcv 0 == 0
  | 0x0A => x.lcv 1 == 0
  | 0x0B => x.lcv 2 == 0
  | 0x0C => x.lcv 3 == 0
  | 0x0D => !x.calls.isEmpty
  | 0x0E => x.timerZero
  | 0x0F => !x.peer.isEmpty
  | 0x10 => bit (s.trg (engBay e)).set (lineOf e)
  | 0x11 => x.refuse
  | 0x12 => x.sat
  | 0x13 => bit (s.pin (selPin s e)).pmu.stat 2
  | 0x14 => bit (s.pin (selPin s e)).pmu.stat 4
  | 0x15 => !(s.pin (2 * e)).tdc.fifo.isEmpty
  | 0x16 => !(s.pin (2 * e + 1)).tdc.fifo.isEmpty
  | 0x17 => runCond s e
  | 0x18 => (s.slice e).win.fail
  | 0x19 => (s.slice e).win.iter
  | 0x1A => monCond s e
  | 0x1B => s.boot.sl == 3
  | _ => false

/-- The condition of a word after CINV. -/
def condOf (s : State) (e : Nat) (w : MWord) : Bool := condSource s e (mwCond w) != mwCinv w

/-! ## Events (R164, R182) -/

/-- Pending events in ENG_EVEN bit order: the latched edges, and the enabled conditions that hold. CALLQ is an event while a
routine runs. -/
def pendOf (s : State) (e : Nat) : Nat :=
  let x := s.eng e
  let level := [(5, monCond s e), (2, condSource s e 0x10), (1, condSource s e 0x0F), (0, condSource s e 0x0D && x.state == 1)]
  x.latched.toNat ||| bitsToNat ((level.filter (fun l => l.2 && bit x.even l.1)).map (·.1))

/-- Enabled pending events. -/
def takeable (s : State) (e : Nat) : Nat := pendOf s e &&& fld (s.eng e).even 0 6

/-- The highest of the pending events (R182). -/
def topEvent (p : Nat) : Option Nat := [5, 4, 3, 2, 1, 0].find? (fun i => p.testBit i)

/-! ## Calls (R160 to R162) -/

/-- An ENGINE trace record (R508). -/
def traceEngine (sub e : Nat) (info : Word) (s : State) : State :=
  trace 4 sub 0 (leBytes 2 e ++ leBytes 2 (s.eng e).pc.toNat ++ leBytes 4 info.toNat) s

/-- The open call of an engine ends: its result block is written, or at most two words go into W6 and W7 (R162). -/
def endCall (e cls code detail : Nat) (s : State) : State :=
  match (s.eng e).open? with
  | none => s
  | some o =>
    let s := s.updEng e (fun x => { x with open? := none })
    let k := o.call.key
    if o.call.count = 0 then
      complete k cls code detail (o.put.getD 0 0) (o.put.getD 1 0) [] s
    else
      let a := o.call.first * slotSize
      let s := grnStore a (leBytes 4 o.put.length ++ leBytes 4 0 ++ o.put.flatMap (fun v => leBytes 4 v.toNat)) s
      complete k cls code detail (BitVec.ofNat 32 a) (BitVec.ofNat 32 (a / 2 ^ 32)) [] (bufDone o.call.first s)

/-- The open call and every waiting call of an engine end in one way (R161, R179). -/
def endCalls (e : Nat) (w : EndWith) (s : State) : State :=
  let x := s.eng e
  let s := s.updEng e (fun x => { x with open? := none, calls := [] })
  ((x.open?.map (·.call)).toList ++ x.calls).foldl
    (fun s c => completeBad c.key w.cls w.code w.detail (if c.count = 0 then s else bufDone c.first s)) s

/-! ## Master copies (R170, R171) -/

/-- A bank of a master copy. -/
def bankBase (s : State) (j : Nat) (b : Bool) : Nat := masterBase s j + b.toNat * 0x1000000
/-- The words of an engine in a bank. -/
def wordsAddr (s : State) (j : Nat) (b : Bool) (e : Nat) : Nat :=
  bankBase s j b + (if e < 128 then e * 0x10000 else 0x800000 + (e - 128) * 0x40000)
/-- The header of an engine in a bank. -/
def headerAddr (s : State) (j : Nat) (b : Bool) (e : Nat) : Nat := bankBase s j b + 0xC00000 + e * 64
/-- The select byte of an engine. -/
def selectAddr (s : State) (j e : Nat) : Nat := masterBase s j + 0xFF0000 + e

/-- The stacks whose copies are written: not a fenced one (R173). -/
def liveStacks (s : State) : List Nat := [0, 1].filter (fun j => !stackFenced s j)

/-- The header of a bank reads VALID (R171), in the copy that a load reads (R175). -/
def bankValid (s : State) (b : Bool) (e : Nat) : Bool :=
  let j := if fld s.grn.stat 0 2 = 0 then 0 else 1
  rdLe (grnLoad (headerAddr s j b e + 32) 4 s) 0 4 == 1

/-- The HALT word (R170). -/
def haltWord : MWord := 0x70000000000000000000000000000000#128

/-- Little-endian bytes of words (R170). -/
def wordBytes (l : List MWord) : List Byte := l.flatMap (fun w => leBytes 16 w.toNat)

/-- The words that bytes spell. -/
def wordsOf : Nat → List Byte → List MWord
  | 0, _ => []
  | n + 1, b => BitVec.ofNat 128 (fromLe (b.take 16)) :: wordsOf n (b.drop 16)

/-- The header of an image (R170). -/
def imageHeader (slice : Bool) (l : List MWord) (version : Word) : List Byte :=
  let h := leBytes 4 0x5A435331 ++ leBytes 1 (if slice then 0 else 1) ++ leBytes 3 0 ++ leBytes 4 l.length ++ leBytes 4 version.toNat
    ++ leBytes 4 (crc32c (wordBytes l)).toNat ++ leBytes 8 0
  h ++ leBytes 4 (crc32c h).toNat

/-- Writes an image and its header into a bank of an engine, in every live copy (R171, R173). -/
def storeBank (b : Bool) (e : Nat) (header words : List Byte) (s : State) : State :=
  forAll (liveStacks s) (fun j s =>
    let s := rewriteUnits (headerAddr s j b e) 64 (rewriteUnits (wordsAddr s j b e) words.length s)
    grnStore (headerAddr s j b e) (header ++ leBytes 4 1 ++ leBytes 28 0) (grnStore (wordsAddr s j b e) words s)) s

/-- A store filled from words: addresses from COUNT upward hold HALT (R170). -/
def storeOf (l : List MWord) : Tab (BitVec 136) := (List.range l.length).zip (l.map entryOf)

/-- What a load attempt from a copy finds: the words, VERSION and CRC, if every unit reads and the sum is right (R175). -/
def loadFrom (s : State) (j : Nat) (b : Bool) (e : Nat) : Option (List MWord × Word × Word) :=
  let h := grnLoad (headerAddr s j b e) 32 s
  let n := rdLe h 8 4
  let a := wordsAddr s j b e
  let bytes := grnLoad a (16 * n) s
  let bad := s.grn.ues.any (fun u => decide (a / 32 ≤ u) && decide (u ≤ (a + 16 * n - 1) / 32))
  if decide (storeSize (isSliceEng e) < n) || bad || stackFenced s j || crc32c bytes != BitVec.ofNat 32 (rdLe h 0x10 4) then none
  else some (wordsOf n bytes, BitVec.ofNat 32 (rdLe h 0x0C 4), BitVec.ofNat 32 (rdLe h 0x10 4))

/-- The two attempts of a load (R175): from copy 0 when STACK_0 is OK, else copy 1; then from the other. -/
def loadAttempts (s : State) (b : Bool) (e : Nat) (ok1 ok2 : Bool) : Option (List MWord × Word × Word) :=
  let j := if fld s.grn.stat 0 2 = 0 then 0 else 1
  let a := if ok1 then loadFrom s j b e else none
  match a with
  | some r => some r
  | none => if ok2 then loadFrom s (1 - j) b e else none

/-- The fence unit of an engine (R179, R33). -/
def fenceUnitOf (e : Nat) : FenceUnit := if e < 128 then .slice (Fin.ofNat 128 e) else .bay (Fin.ofNat 16 (e - 128))

/-- A successful load (R175 step 4, R180): the store, the select bytes, ENG_CS; the engine is IDLE and a fence of its machine check ends. -/
def loadDone (b : Bool) (e : Nat) (r : List MWord × Word × Word) (s : State) : State :=
  let s := forAll (liveStacks s) (fun j s => grnStore (selectAddr s j e) [BitVec.ofNat 8 b.toNat] s) s
  let s := if (s.eng e).mcFence then { s with fenced := s.fenced.filter (fun u => u != fenceUnitOf e) } else s
  traceEngine 5 e 0 (s.updEng e (fun x =>
    { x with store := storeOf r.1, bank := b, ver := r.2.1, crc := r.2.2, loading := false, state := 0, mcFence := false
             repair := [], reload := none }))

/-- A load begins (R175 step 1). -/
def beginLoad (e : Nat) (s : State) : State := s.updEng e (fun x => { x with loading := true, state := 3 })

/-- The engine becomes IDLE (R161, R186); a reload that waits for it begins (R174). -/
def engIdle (e : Nat) (s : State) : State :=
  let s := s.updEng e (fun x => { x with state := 0, group := false, cur := none, waiting := false, waitEnd := 0, mustRun := false
                                         partialFx := false, idleOrigin := false, groupEnd := false, sp := false })
  if (s.eng e).reload.isSome then beginLoad e s else s

/-! ## Parts of a word's execution (R152) -/

/-- Cycles after which an open effect group is closed (R163). -/
def groupCycles : Nat := 64

/-- A group still open at the end of its 64th cycle is closed there, counted and raised (R163). -/
def groupCatch (e : Nat) (s : State) : State :=
  let x := s.eng e
  if x.group && decide (x.groupAt + groupCycles * eclkSteps ≤ s.mono) then
    raise srcGroupOverrun 0 0 (s.updEng e (fun x => { x with group := false, groupEnd := x.cur.isNone, govr := satInc x.govr }))
  else s

/-- A holding WAIT has run out its limit (R153): only WAIT_TIMEOUT goes on. -/
def Engine.limitOver (x : Engine) (mono : Nat) : Bool := x.waiting && x.waitEnd != 0 && decide (x.waitEnd ≤ mono)

/-- The engine's present word is `w`: it runs, and the entry at PC is sound and holds `w` (R169). -/
def wordAt (s : State) (e : Nat) (w : MWord) : Bool :=
  let x := s.eng e
  engRunning s e && syndrome (x.entry x.pc) == 0 && (x.entry x.pc).setWidth 128 == w && !x.limitOver s.mono

/-- The first cycle of a word (R152 step 1, R163): time reaches it, EG opens a group, the condition and LC[LCS] are taken. A
WAIT whose condition does not hold holds. -/
def beginWord (e : Nat) (w : MWord) (s : State) : State :=
  if (s.eng e).cur.isSome then s
  else
    let s := groupCatch e (timerCatch e (advanceMono (s.eng e).nextAt s))
    let s := s.updEng e (fun x => if mwEg w = 1 ∧ x.group = false then { x with group := true, groupAt := s.mono } else x)
    let c := condOf s e w
    s.updEng e (fun x =>
      if mwSeq w = 5 ∧ c = false then
        { x with waiting := true
                 waitEnd := if x.waiting then x.waitEnd else if mwCnt w = 0 then 0 else s.mono + mwCnt w * eclkSteps }
      else
        let cur : WordCur := { cond := c, lc := x.lcv (mwLcs w), aluDone := mwAlu w == 0, ifDone := mwIfu w == 0 }
        { x with cur := some cur, waiting := false })

/-- The ALU takes its B operand from the interface (R156). -/
def takesRet (w : MWord) : Bool := mwBsel w == 2 && mwAlu w != 0

/-- The word's first part that may act next, if it is begun: the ALU acts before the interface, but for a B operand that
the interface returns (R152). -/
def aluReady (w : MWord) (c : WordCur) : Bool := !c.aluDone && (c.ifDone || !takesRet w)
def ifReady (w : MWord) (c : WordCur) : Bool := !c.ifDone && (c.aluDone || takesRet w)

/-- The user-flag action (R150). -/
def applyUf (w : MWord) (f : BitVec 4) : BitVec 4 :=
  let i := mwUf w % 4
  match mwUf w / 4 with
  | 0 => f
  | 1 => setBit f i true
  | 2 => setBit f i false
  | _ => setBit f i (!bit f i)

/-- The last cycle's end (R152, R163): EG closes the group, SP is noted, the word is counted (R512); the next word starts at the
next ECLK cycle. -/
def endWord (e : Nat) (w : MWord) (uf : Bool) (next : Nat) (s : State) : State :=
  let s := count (512 + e) 1 (groupCatch e s)
  s.updEng e (fun x =>
    let close := mwEg w == 2 && x.group
    let g := x.group && !close
    { x with
      uf := if uf then applyUf w x.uf else x.uf
      group := g, groupEnd := close, sp := mwSp w && !g, cur := none, waiting := false, waitEnd := 0, mustRun := false
      pc := engAddr e next, nextAt := nextCycle s 1 })

end Sys2Proof.Machine
end

