-- ==== Sys2Proof/Machine/Str.lean ====
section
/-!
DEFINITION. The STR commands (R127 to R146, R367) and the events of runs: grants, first vectors, vectors, commit points,
refill warnings, log drains and verdicts.
-/
namespace Sys2Proof.Machine

/-! ## STR.SITE, STR.SITE_RELEASE, STR.SHEAF -/

/-- SITE_MAP: DETAIL is the byte offset of the first offending field (R128). -/
def mapBad (b : Bool) (o : Nat) : Option Reason := when? b (rFormat Code.siteMap o)

/-- The byte at an offset repeats one before it in a list that starts at `o`. -/
def dupByte (c : Cmd) (o j : Nat) : Bool := (List.range j).any (fun i => c.u (o + i) 1 == c.u (o + j) 1)

/-- The fields of a site map in ascending offset (R127, R128). -/
def siteMapChecks (c : Cmd) : List (Option Reason) :=
  let npin := c.u 2 1
  let ndps := c.u 3 1
  let nmon := c.u 4 1
  [when? (c.u 0 1 != c.index.toNat) (rFormat Code.scope), mapBad (decide (127 < c.u 1 1)) 1,
   mapBad (npin == 0 || decide (64 < npin)) 2, mapBad (decide (8 < ndps)) 3, mapBad (decide (8 < nmon)) 4, mapBad (c.u 5 3 != 0) 5]
    ++ (List.range 8).map (fun j =>
      mapBad (if j < ndps then decide (31 < c.u (8 + j) 1) || dupByte c 8 j else c.u (8 + j) 1 != 0xFF) (8 + j))
    ++ (List.range 8).map (fun j =>
      mapBad (if j < nmon then decide (63 < c.u (16 + j) 1) || dupByte c 16 j else c.u (16 + j) 1 != 0xFF) (16 + j))
    ++ (List.range 64).map (fun j =>
      let o := 0x18 + 4 * j
      mapBad (if j < npin then
          decide (64 ≤ c.u (o + 2) 1) || c.u (o + 3) 1 != 0 || (c.u (o + 1) 1).testBit 6
            || (List.range j).any (fun i => c.u (0x18 + 4 * i) 1 == c.u o 1)
        else c.u o 4 != 0) o)

/-- The site that a site map spells (R127). -/
def siteOfMap (c : Cmd) : Site :=
  { home := c.u 1 1
    pins := (List.range (c.u 2 1)).map (fun j =>
      let w := c.u (0x18 + 4 * j) 4
      { pin := w % 256, col := w / 256 % 64, paired := w.testBit 15, pair := w / 65536 % 64 })
    dps := (List.range (c.u 3 1)).map (fun j => c.u (8 + j) 1)
    mons := (List.range (c.u 4 1)).map (fun j => c.u (16 + j) 1) }

/-- RES_OWNED: a named resource belongs to another site (R19, R361). Kinds: 0 pin, 1 controller, 2 monitor, 3 slice. -/
def resOwned (x : Nat) (owner : Option Nat) (kind n w6 : Nat) : Option Reason :=
  match owner with
  | none => none
  | some y => when? (x != y) { cls := 2, code := Code.resOwned, detail := kind * 2 ^ 14 + n, w6 := w6 }

/-- The resources of a site map are free or the site's own (R19). -/
def siteFree (s : State) (x : Nat) (t : Site) : List (Option Reason) :=
  [resOwned x (siteOfHome s t.home) 3 t.home 0] ++ t.dps.map (fun d => resOwned x (siteOfDps s d) 1 d 0)
    ++ t.mons.map (fun m => resOwned x (siteOfMon s m) 2 m 0) ++ t.pinNos.map (fun p => resOwned x (siteOfPin s p) 0 p p)

/-- SITE_RUNNING: the site is a member of an admitted Sheaf. -/
def siteRunningCheck (s : State) (x : Nat) : Option Reason := when? (runOfSite s x).isSome (rState Code.siteRunning x)

/-- STR.SITE (R127, R128). -/
def doStrSite (c : Cmd) (s : State) : State :=
  let x := c.index.toNat
  runCmd { op := 0x300, scopes := 16 } c (fun _ _ => lenCheck c 280 :: siteMapChecks c)
    (fun s _ =>
      let t := siteOfMap c
      siteFree s x t ++ [fenceCheck s (t.home :: t.pinNos.map (· / 2)) t.bayNos, siteRunningCheck s x])
    (fun _ s => completeOk c.key 0 { (useBays c.key (siteOfMap c).bayNos s) with sites := Tab.set s.sites x (siteOfMap c) }) s

/-- STR.SITE. -/
def execStrSite (c : Cmd) (s : State) : Host.Outcome State Fault Refusal := .next (doStrSite c s)

/-- STR.SITE_RELEASE (R128): a site without a map completes OK. -/
def doStrSiteRelease (c : Cmd) (s : State) : State :=
  let x := c.index.toNat
  runCmd { op := 0x301, scopes := 16 } c (fun _ _ => [lenCheck c 0]) (fun s _ => [siteRunningCheck s x])
    (fun _ s => completeOk c.key 0 { s with sites := Tab.erase s.sites x }) s

/-- STR.SITE_RELEASE. -/
def execStrSiteRelease (c : Cmd) (s : State) : Host.Outcome State Fault Refusal := .next (doStrSiteRelease c s)

/-- The Sheaf of a command at Sheaf scope. -/
def Target.sheafNo : Target → Nat
  | .sheaf h => h
  | _ => 0

/-- STR.SHEAF (R130, R367): an empty bitmap removes the definition. -/
def doStrSheaf (c : Cmd) (s : State) : State :=
  runCmd { op := 0x302, scopes := 2 } c (fun _ _ => [lenCheck c 16])
    (fun s t => (bitsOf 128 (c.u 0 16)).map (fun x => when? (s.site? x).isNone (rState Code.siteUndefined x))
      ++ [when? (s.run? t.sheafNo).isSome (rState Code.sheafRunning)])
    (fun t s => completeOk c.key 0
      { s with sheaves := if c.u 0 16 = 0 then Tab.erase s.sheaves t.sheafNo
                          else Tab.set s.sheaves t.sheafNo (BitVec.ofNat 128 (c.u 0 16)) }) s

/-- STR.SHEAF. -/
def execStrSheaf (c : Cmd) (s : State) : Host.Outcome State Fault Refusal := .next (doStrSheaf c s)

/-! ## STR.START and the grant (R137, R143, R473) -/

/-- The caps of R473 allow the run's sequences and every wake it needs. -/
def startGranted (s : State) (q : StartReq) : Bool :=
  let ms := s.members q.sheaf
  seqFits s (ms.map (fun x => ((s.site? x).map Site.bayNos).getD [])) && wakeFits s (sleepingBays s ms)

/-- The run that a start admits (R136, R143). -/
def runOfStart (s : State) (q : StartReq) : Run :=
  let ms := s.members q.sheaf
  let l := parseListing s q.listing
  let div := lrd s q.listing 0x14 2
  let prog := lrd s q.listing 3 1
  let lead := s.now.toNat + wakeAllowance s (sleepingBays s ms) + leadSteps
  { key := q.key, phase := 1, listing := q.listing, width := l.width, symcols := BitVec.ofNat 64 l.symcols
    maxLag := lrd s q.listing 0x10 4, divSites := div
    und := if prog.testBit 0 then some ((List.range 64).map (readVec s q.listing 0x20)) else none
    safe := if prog.testBit 1 then some ((List.range 64).map (readVec s q.listing 0x40)) else none
    loops := l.loops, poss := l.poss, first := q.first, count := q.count
    startAt := s.monoOf (if q.time = 0 then cdiv lead 256 * 256 else q.time)
    members := ms
    lanes := ((List.range 16).filter (fun k => lanesIn s ms k != 0)).map (fun k => (k, lanesIn s ms k))
    class1 := class1Units s ms l.width div l.poss, class2 := class2Units s ms, stks := posStacks s l.poss
    sites := ms.map (fun x =>
      let b := BitVec.ofNat 16 (bitsToNat (((s.site? x).map Site.bayNos).getD []))
      (x, { sl := s.boot.sl, tq := s.tim.tq, th := s.throttled b (posStacks s l.poss), ce := s.ce, bays := b })) }

/-- Admission (R143 step 1): lanes and reservations taken, the buffer allocated, the listing, position 0 and pinned segments
ACTIVE, sleeping member bays woken. -/
def admitRun (q : StartReq) (s : State) : State :=
  let r := runOfStart s q
  let sleepers := sleepingBays s r.members
  let pinned := (List.range r.poss.length).filter (fun p => p == 0 || pinnedPos r.loops r.poss p)
  let s := { s with runs := Tab.set s.runs q.sheaf r }
  let s := forAll [0, 1] (fun j s => if bit r.stks j then reserve1 j r.class1 s else s) s
  let s := allocBuf q.buf (reserve2 (stackOf s q.first) r.class2 s)
  let s := forAll (r.listing :: pinned.map (fun p => (posAt r.poss p).slot)) (fun n s => s.updSlot n (fun y => { y with st := 3 })) s
  let s := forAll r.members (fun x s => updWin (homeOf s x) Winnow.clearForRun s) s
  let s := forAll sleepers (wakeBay 1) s
  let s := forAll (r.listing :: r.poss.map (·.slot)) (useStack q.key) (useStack q.key q.first s)
  traceStream 0 q.sheaf 0 0 0 (releaseWork q.key s)

/-- The start's checks, then admission or refusal (R137). -/
def tryStart (q : StartReq) (s : State) : State :=
  match startCheck s q with
  | some r => refuse q.key r s
  | none => admitRun q s

/-- The operands of STR.START. -/
def startReqOf (c : Cmd) (h : Nat) : StartReq :=
  { key := c.key, sheaf := h, listing := c.u 0 4, first := c.u 8 4, count := c.u 12 2, time := c.time 16, obs := c.obs }

/-- STR.START (R137, R142): its checks in order; admission when the throttle caps grant it, else it waits, not started. -/
def doStrStart (c : Cmd) (s : State) : State :=
  runCmd { op := 0x303, scopes := 2 } c (fun _ _ => [lenCheck c 32, rsv c 4 4, bufField c 8 1 1024, timeRsv c 16])
    (fun s t => [startCheck s (startReqOf c t.sheafNo)])
    (fun t s =>
      let q := startReqOf c t.sheafNo
      let s := useBays q.key (t.bays s) s
      if startGranted s q then admitRun q s
      else { (s.updWork q.key (fun w => { w with started := false, th := true })) with starts := s.starts ++ [q] }) s

/-- STR.START. -/
def execStrStart (c : Cmd) (s : State) : Host.Outcome State Fault Refusal := .next (doStrStart c s)

/-- SEQUENCE_GRANT (R473): the caps allow the oldest waiting start of a Sheaf, and its checks are made at that moment. -/
def doSequenceGrant (h : Nat) (s : State) : State :=
  match s.starts.find? (fun q => q.sheaf == h) with
  | none => s
  | some q =>
    if startGranted s q then
      tryStart q ({ s with starts := s.starts.erase q }.updWork q.key (fun w =>
        { w with started := true, sl := s.boot.sl, tq := s.tim.tq, ce := s.ce }))
    else s

/-- SEQUENCE_GRANT. -/
def execSequenceGrant (h : Fin 128) (s : State) : Host.Outcome State Fault Refusal := .next (doSequenceGrant h.val s)

/-! ## STR.STOP, STR.JUMP, STR.STATUS -/

/-- STR.STOP on a Sheaf or a site (R144): at the next vector boundary, or at once before the first vector. -/
def stopSites (k : Key) (h : Nat) (x : Option Nat) (s : State) : State :=
  match s.run? h with
  | none => s
  | some r =>
    let l := match x with
      | none => r.live
      | some x => [x]
    let s := s.updRun h (fun r => { r with stopKeys := r.stopKeys ++ [(x, k)], stopped := r.stopped || x.isNone })
    let s := if x.isSome then runQual h 1 Code.siteStopped s else s
    if r.phase = 1 then forAll l (fun y s => endSite h y 3 0 0xFF s) s else forAll l (fun y s => endSiteSoon h y 3 0 0xFF s) s

/-- The run that STR.STOP names, and whether it is at site scope. -/
def stopTarget (s : State) (t : Target) : Option (Nat × Option Nat) :=
  match t with
  | .sheaf h => if ((s.run? h).map (·.admitted)).getD false then some (h, none) else none
  | .site x =>
    match runOfSite s x with
    | none => none
    | some (h, r) => if r.admitted && (r.site x).live then some (h, some x) else none
  | _ => none

/-- STR.STOP (R144, R367). -/
def doStrStop (c : Cmd) (s : State) : State :=
  runCmd { op := 0x304, scopes := 18 } c (fun _ _ => [lenCheck c 0])
    (fun s t => [when? (stopTarget s t).isNone (rState Code.notRunning)])
    (fun t s => match stopTarget s t with
      | none => s
      | some (h, x) => stopSites c.key h x s) s

/-- STR.STOP. -/
def execStrStop (c : Cmd) (s : State) : Host.Outcome State Fault Refusal := .next (doStrStop c s)

/-- The present ECLK cycle. -/
def State.cycle (s : State) : Nat := s.now.toNat / eclkSteps

/-- A jump request is pending (R141). -/
def Run.jumpPending (r : Run) : Bool := r.jump.isSome || !r.taken.isEmpty

/-- The refusals of a jump request (R138, R141). -/
def jumpChecks (s : State) (h target : Nat) : List (Option Reason) :=
  match (s.run? h).filter (·.admitted) with
  | none => [some (rState Code.notRunning)]
  | some r => [when? (!(posAt r.poss target).jtgt || decide (r.poss.length ≤ target)) (rFormat Code.notJumpTarget),
      when? r.jumpPending (rState Code.jumpPending)]

/-- A jump request arrives (R139). -/
def requestJump (k : Option Key) (h target : Nat) (s : State) : State :=
  s.updRun h (fun r => { r with jump := some { key := k, target := target, cycle := s.cycle, onTime := r.sel.isNone && r.com.isNone } })

/-- STR.JUMP (R138 to R141). It completes when the lead plays the first target row. -/
def doStrJump (c : Cmd) (s : State) : State :=
  runCmd { op := 0x305, scopes := 2 } c (fun _ _ => [lenCheck c 8])
    (fun s t => jumpChecks s t.sheafNo (c.u 0 4))
    (fun t s => requestJump (some c.key) t.sheafNo (c.u 0 4) s) (takeCommits s)

/-- STR.JUMP. -/
def execStrJump (c : Cmd) (s : State) : Host.Outcome State Fault Refusal := .next (doStrJump c s)

/-- STR.STATUS (R367): the front F or the site's progress; DETAIL 1 while admitted. -/
def doStrStatus (c : Cmd) (s : State) : State :=
  runCmd { op := 0x306, scopes := 18 } c (fun _ _ => [lenCheck c 0]) (fun _ _ => [])
    (fun t s =>
      let v : Option Nat := match t with
        | .sheaf h => (s.run? h).bind (fun r => if r.admitted then some r.front else none)
        | .site x => (runOfSite s x).bind (fun e => if e.2.admitted then some (e.2.site x).idx else none)
        | _ => none
      complete c.key 0 0 v.isSome.toNat (BitVec.ofNat 32 (v.getD 0)) (BitVec.ofNat 32 (v.getD 0 / 2 ^ 32)) [] s) s

/-- STR.STATUS. -/
def execStrStatus (c : Cmd) (s : State) : Host.Outcome State Fault Refusal := .next (doStrStatus c s)

/-! ## RUN_FIRST_VECTOR (R143 step 4) -/

/-- A site enters row 0 of position 0 at the start of its run. -/
def beginSite (h x t : Nat) (s : State) : State :=
  match s.run? h with
  | none => s
  | some r =>
    let n := homeOf s x
    match r.enter (s.slice n).win.matchAll 0 0 0 [] false [] with
    | .go _ _ _ l _ steps =>
      let s := forSitePins x (fun _ p s => s.updPin p.pin Pin.beginRun) s
      updSiteRun h x (fun q => { q with loops := l, vstart := t, ep := s.ep }) (updWin n (winSteps steps) s)
    | .finish .. => s

/-- The start time arrives and every member site begins its first vector (R143). -/
def doRunFirstVector (h : Nat) (s : State) : State :=
  match s.run? h with
  | none => s
  | some r =>
    if r.phase = 1 then
      let s := advanceMono r.startAt s
      let s := s.updRun h (fun r => { r with phase := 2, start := s.now })
      traceStream 1 h r.lead 0 0 (forAll r.live (fun x s => beginSite h x s.mono s) s)
    else s

/-- RUN_FIRST_VECTOR. -/
def execRunFirstVector (h : Fin 128) (s : State) : Host.Outcome State Fault Refusal := .next (doRunFirstVector h.val s)

/-! ## VECTOR (R73) -/

/-- The nibbles of a row, Li at bits [4i + 3 : 4i] (R121). -/
def rowWord (s : State) (r : Run) (pos row : Nat) : Nat :=
  fromLe (memReads s.grn.mem ((posAt r.poss pos).slot * slotSize + row * (8 * r.width)) (8 * r.width))

/-- The 32-byte units of a row that hold an uncorrectable error (R109). -/
def rowUe (s : State) (r : Run) (pos row : Nat) : Option Nat :=
  let a := (posAt r.poss pos).slot * slotSize + row * (8 * r.width)
  s.grn.ues.find? (fun u => decide (a / 32 ≤ u) && decide (u ≤ (a + 8 * r.width - 1) / 32))

/-- F at moment `t`, the sites counted that start a vector by then (R132). -/
def Run.frontAt (r : Run) (t : Nat) : Nat :=
  (r.live.filter (fun x => decide ((r.site x).vstart ≤ t))).foldl (fun a x => max a (r.site x).nidx) r.front

/-- Sites in private fetch. -/
def Run.privCount (r : Run) : Nat := (r.live.filter (fun x => (r.site x).priv)).length

/-- What the lag of a site asks for at a vector boundary (R133 to R135): its end with a cause, a change of fetch, and a
higher-numbered site whose private fetch of this ECLK cycle gives way. -/
inductive LagOut where
  | keep
  | toPrivate (gives : Option Nat)
  | toLanes
  | timeout (cause : Nat)

def Run.lagOut (r : Run) (x lag cycle : Nat) : LagOut :=
  let q := r.site x
  if r.maxLag < lag then .timeout 2
  else if 16384 < lag then
    if q.priv then .keep
    else if r.privCount < r.divSites then .toPrivate none
    else
      match (r.live.reverse.find? (fun y => decide (x < y) && (r.site y).priv && (r.site y).privAt == cycle)) with
      | some y => .toPrivate (some y)
      | none => .timeout 3
  else if q.priv then .toLanes
  else .keep

/-- The front reaches a new row of the path (R102, R132): F moves, the fetch is counted, a commit row makes its commit point
wait, an uncorrectable unit ends the stream (R109). -/
def reachRow (h x : Nat) (s : State) : State :=
  match s.run? h with
  | none => s
  | some r =>
    let q := r.site x
    if r.begun ∧ q.nidx ≤ r.front then s
    else
      let c := (s.fullAt q.vstart).toNat / eclkSteps
      let b := 8 * r.width
      let s := count (690 + min 1 (stackOf s (posAt r.poss q.pos).slot)) (cdiv ((q.row + 1) * b) 64 - cdiv (q.row * b) 64) s
      let s := s.updRun h (fun r => { r with front := q.nidx, begun := true, com := (r.commitAt c q.pos q.row q.nidx q.loops).or r.com })
      match rowUe s r q.pos q.row, r.memUe with
      | some u, none =>
        let j := min 1 (stackOf s (posAt r.poss q.pos).slot)
        let s := raise (srcUe j) 0 u (s.updGrn (fun g => if j = 0 then { g with ue0 := satInc g.ue0 } else { g with ue1 := satInc g.ue1 }))
        runQual h 8 Code.memUe (s.updRun h (fun r => { r.stopAll with memUe := some (32 * u) }))
      | _, _ => s

/-- A committed jump request whose first target row the front plays completes (R139). -/
def endJumps (h : Nat) (s : State) : State :=
  match s.run? h with
  | none => s
  | some r =>
    let done := r.taken.filter (fun t => match t.idx with
      | none => false
      | some i => decide (i ≤ r.front))
    let s := s.updRun h (fun r => { r with taken := r.taken.filter (fun t => !done.contains t) })
    done.foldl (fun s t =>
      let s := if t.late then runQual h 2 Code.jumpLate s else s
      match t.key with
      | none => s
      | some k => completeQual k (if t.late then some Code.jumpLate else none) 0 (t.idx.getD 0) s) s

/-- A site holds the position it plays; the segment it left may leave ACTIVE (R96). -/
def holdPosition (h x : Nat) (s : State) : State :=
  match s.run? h with
  | none => s
  | some r =>
    let q := r.site x
    let slot := (posAt r.poss q.pos).slot
    let s := s.updRun h (fun r => { (r.updSite x (fun q => { q with hpos := q.pos })) with held := r.held.erase slot })
    if q.hpos = q.pos then s else settleSlots [(posAt r.poss q.hpos).slot] s

/-- The pins of a site play one row: their inputs for the Winnow unit (R210). -/
def playPins (h x : Nat) (r : Run) (q : SiteRun) (obs : List StrobeObs) (s : State) : List StrobeIn × State :=
  let w := rowWord s r q.pos q.row
  let nib (i : Nat) : Nat := w / 16 ^ i % 16
  let pins := ((s.site? x).map (·.pins)).getD []
  (List.range pins.length).foldl (fun (a : List StrobeIn × State) j =>
    let e := pins.getD j {}
    let z := playPin (bit r.symcols e.col) (nib e.col) (if e.paired then some (nib e.pair) else none) (posAt r.poss q.pos).tset
      q.vstart (obs.getD j { zone := 0, exc := false }) (a.2.pin e.pin)
    let s := a.2.updPin e.pin (fun _ => z.pin)
    let s := if z.turn then runQual h 3 Code.turnaround s else s
    let s := if z.drop then runQual h 4 Code.edgeDrop s else s
    let s := if z.unpaired then runQual h 5 Code.symUnpaired s else s
    match z.strobe with
    | none => (a.1, s)
    | some (v, f, cap) => (a.1 ++ [{ j := j, val := v, fail := f, cap := cap }], count e.pin 1 s)) ([], s)

/-- A site moves on after its row (R122 to R126, R138). -/
def moveSite (h x : Nat) (s : State) : State :=
  match s.run? h with
  | none => s
  | some r =>
    let q := r.site x
    let n := homeOf s x
    let p := r.period s q.pos
    let crossed := match r.sel with
      | none => false
      | some v => v.pos == q.pos && v.row == q.row && decide (v.idx < q.idx)
    match r.moveAfter (s.slice n).win.matchAll q with
    | .go pos row nidx l jumped steps =>
      let s := updWin n (winSteps steps) s
      let first := jumped && !r.jumps.any (fun j => j.1 == q.idx)
      let s := s.updRun h (fun r =>
        { (r.updSite x (fun q => { q with pos := pos, row := row, nidx := nidx, loops := l, vstart := q.vstart + p })) with
          jumps := if first then r.jumps ++ [(q.idx, pos)] else r.jumps
          taken := if first then r.taken.map (fun t => { t with idx := t.idx.or (some nidx) }) else r.taken
          sel := if crossed then none else r.sel })
      if first then traceStream 3 h x pos nidx s else s
    | .finish status cause loopNo l steps =>
      let s := updWin n (winSteps steps) s
      let s := s.updRun h (fun r =>
        { (r.updSite x (fun q => { q with loops := l })) with sel := if crossed then none else r.sel })
      endSite h x status cause loopNo (advanceMono (q.vstart + p) s)

/-- One vector of a site (R71 to R75, R126, R210). ITER becomes true with a loop body's last row (R154). -/
def playVector (h x : Nat) (obs : List StrobeObs) (s : State) : State :=
  let s := holdPosition h x (reachRow h x s)
  let s := endJumps h s
  match s.run? h with
  | none => s
  | some r =>
    let q := r.site x
    let n := homeOf s x
    let (ins, s) := playPins h x r q obs s
    let win := (s.slice n).win
    let fail := !(win.fails q.nidx ins).isEmpty
    let v : VecAt := { idx := q.nidx, stamp := s.fullAt q.vstart, iter := ((q.loops.head?).map (·.iter)).getD 0, pos := q.pos
                       row := q.row, priv := q.priv }
    let last := r.loops.any (fun l => l.ep == q.pos && l.er == q.row)
    let s := updWin n (fun w => { w.vector v ins with iter := w.iter || last }) s
    let s := forAll (((s.site? x).map (fun t => (t.pinNos.map (· / 16)).eraseDups)).getD []) (fun k s => count (656 + k) 1 s) s
    let lag := r.frontAt q.vstart - q.nidx
    let s := updSiteRun h x (fun q =>
      { q with idx := q.nidx, begun := true, maxLag := max q.maxLag lag
               loops := q.loops.map (fun l => l.addRow fail (bit s.match? x) r q.pos q.row) }) s
    moveSite h x s

/-- VECTOR (R73): a site plays one vector at its next vector boundary, unless it ends there. -/
def doVector (x : Nat) (obs : List StrobeObs) (s : State) : State :=
  match runOfSite s x with
  | none => s
  | some (h, r0) =>
    if r0.phase = 2 ∧ (r0.site x).live then
      let s := takeCommit h (advanceMono (r0.site x).vstart s)
      match s.run? h with
      | none => s
      | some r =>
        let q := r.site x
        match q.ending with
        | some (st, ca, lp) => endSite h x st.toNat ca.toNat lp.toNat s
        | none =>
          let cycle := (s.fullAt q.vstart).toNat / eclkSteps
          match r.lagOut x (r.frontAt q.vstart - q.nidx) cycle with
          | .timeout cause => endSite h x 1 cause 0xFF s
          | .keep => playVector h x obs s
          | .toLanes => playVector h x obs (updSiteRun h x (fun q => { q with priv := false }) s)
          | .toPrivate y =>
            let s := match y with
              | none => s
              | some y => endSiteSoon h y 1 3 0xFF (updSiteRun h y (fun q => { q with priv := false }) s)
            playVector h x obs (updSiteRun h x (fun q => { q with priv := true, privAt := cycle }) s)
    else s

/-- VECTOR. -/
def execVector (x : Fin 128) (obs : List StrobeObs) (s : State) : Host.Outcome State Fault Refusal := .next (doVector x.val obs s)

/-- COMMIT_POINT (R102): the commit point that waits is taken. -/
def doCommitPoint (h : Nat) (s : State) : State := takeCommit h s

/-- COMMIT_POINT. -/
def execCommitPoint (h : Fin 128) (s : State) : Host.Outcome State Fault Refusal := .next (doCommitPoint h.val s)

/-- REFILL_WARN (R104): WARN µs before its deadline a streamed position's segment is not READY; once per position and
stream. -/
def doRefillWarn (h pos : Nat) (s : State) : State :=
  match s.run? h with
  | none => s
  | some r =>
    match deadlineOf s r pos with
    | none => s
    | some d =>
      let w := fld s.grn.warn 0 20
      let s := if w = 0 then s else advanceMono (d - w * usSteps) s
      if w ≠ 0 ∧ !r.warned.contains pos ∧ segState s (posAt r.poss pos).slot ≠ 2 then
        raise srcRefillWarn 0 0 (s.updRun h (fun r => { r with warned := r.warned ++ [pos] }))
      else s

/-- REFILL_WARN. -/
def execRefillWarn (h : Fin 128) (pos : BitVec 32) (s : State) : Host.Outcome State Fault Refusal :=
  .next (doRefillWarn h.val pos.toNat s)

/-! ## Logs, verdicts and the completion (R219, R225, R145, R146) -/

/-- LOG_FIFO_DRAIN (R219, R220). -/
def doLogFifoDrain (x : Nat) (s : State) : State :=
  match runOfSite s x with
  | none => s
  | some (_, r) => if (r.site x).drained then s else drainRecord r x (homeOf s x) (r.site x).idx (r.site x).priv s

/-- LOG_FIFO_DRAIN. -/
def execLogFifoDrain (x : Fin 128) (s : State) : Host.Outcome State Fault Refusal := .next (doLogFifoDrain x.val s)

/-- How a run completes (R145): class, code and detail. -/
def Run.result (r : Run) : Nat × Nat × Nat :=
  match r.fault with
  | some (code, detail) => (8, code.toNat, detail.toNat)
  | none =>
    if r.memUe.isSome then (8, Code.memUe, 0)
    else if r.under then (6, Code.streamUnderrun, 0)
    else if r.stopped then (6, Code.stopped, 0)
    else match r.firstQual with
      | some q => (1, q.toNat, 0)
      | none => (0, 0, 0)

/-- The device-level qualifiers of QUAL (R146): STACK_HOT, SINGLE_JOURNAL, JOURNAL_LOST. -/
def deviceQuals (s : State) (w : Work) : Nat :=
  ((bit w.stks 0 && fld s.grn.stat 8 4 == 6) || (bit w.stks 1 && fld s.grn.stat 12 4 == 6)).toNat * 2 ^ 7
    + (bit s.grn.stat 17).toNat * 2 ^ 10 + (s.journalLost && w.key.qid == 0).toNat * 2 ^ 11

/-- UNDER_IDX: the run index of the first vector not played. -/
def Run.underIdx (r : Run) : Nat :=
  if r.under ∨ r.memUe.isSome then
    (r.members.filter (fun x => (r.site x).status == 2)).foldl (fun a x => max a ((r.site x).idx + 1)) 0
  else 2 ^ 64 - 1

/-- An entry of SITES (R146). -/
def siteEntry (r : Run) (x : Nat) : List Byte :=
  if r.members.contains x then
    let q := r.site x
    leBytes 1 x ++ leBytes 1 q.status.toNat ++ leBytes 1 q.cause.toNat ++ leBytes 1 q.loopNo.toNat ++ leBytes 4 q.maxLag
      ++ leBytes 8 q.idx
  else leBytes 16 0

/-- The run record (R146). The address of an uncorrectable unit (R109) stands at 0x840. -/
def runRecord (start : Nat) (r : Run) (status : Word) (quals : Nat) : List Byte :=
  padTo 4096 (leBytes 10 start ++ leBytes 6 0 ++ leBytes 8 r.endStamp.toNat ++ leBytes 8 r.front ++ leBytes 4 status.toNat
    ++ leBytes 4 quals ++ leBytes 8 r.underIdx
    ++ padTo 16 (((r.site r.lead).loops.reverse).flatMap (fun q => leBytes 4 q.iter))
    ++ (List.range 128).flatMap (siteEntry r) ++ leBytes 8 (r.memUe.getD 0))

/-- The run record is written and STR.START completes (R145, R146). START of a run without a vector is not stated: a free value. -/
def finishRun (h : Nat) (s : State) : State :=
  match s.run? h with
  | none => s
  | some r =>
    let w := s.workOf r.key
    let (cls, code, detail) := r.result
    let a := r.first * slotSize
    let c := mkCpl s w cls code detail 0 0 []
    let (t0, s) := if r.begun then (r.start.toNat, s) else measure s
    let s := if stackFenced s (stackOf s r.first) then s else grnStore a (runRecord t0 r c.w2 (r.quals.toNat ||| deviceQuals s w)) s
    let s := bufDone r.first { s with runs := Tab.erase s.runs h }
    complete r.key cls code detail (BitVec.ofNat 32 a) (BitVec.ofNat 32 (a / 2 ^ 32)) [] s

/-- VERDICT_WRITE (R225, R226): an ended site's FIFO is drained and its verdict written; after the last one STR.START
completes. -/
def doVerdictWrite (x : Nat) (s : State) : State :=
  match runOfSite s x with
  | none => s
  | some (h, r) =>
    let q := r.site x
    if q.live ∨ q.drained then s
    else
      let n := homeOf s x
      let lost := stackFenced s (stackOf s r.first)
      let s := if lost then s else drainAll r x n q.idx q.priv s
      let s := if lost then s else updWin n (fun w => { w with verdict := true })
        (grnStore (r.areaAddr x) (verdictRecord x q (s.slice n).win) s)
      let s := updSiteRun h x (fun q => { q with drained := true }) s
      match s.run? h with
      | none => s
      | some r => if r.phase = 3 ∧ r.members.all (fun y => (r.site y).drained) then finishRun h s else s

/-- VERDICT_WRITE. -/
def execVerdictWrite (x : Fin 128) (s : State) : Host.Outcome State Fault Refusal := .next (doVerdictWrite x.val s)

end Sys2Proof.Machine
end

