-- ==== Sys2Proof/Machine/Fence.lean ====
section
/-!
DEFINITION. Ends of a unit's work, shared by fences (R33, R112, R113, R179), slice and bay resets (R490) and the loss of VPE: the
work of slices and bays, the sites that use them, fenced units and stacks.
-/
namespace Sys2Proof.Machine

/-! ## The work of slices and bays -/

/-- Commands that wait for a pin's DACs end (R352). -/
def endSettling (e : EndWith) (p : Nat) (s : State) : State :=
  let ks := (s.pin p).settling
  endKeys ks e { s with pins := Tab.mapVals s.pins (fun _ x => { x with settling := x.settling.filter (fun k => !ks.contains k) }) }

/-- The pins of a slice. -/
def slicePins (n : Nat) : List Nat := [2 * n, 2 * n + 1]

/-- The interval unit of a slice ends its measurement, whatever pins it taps. -/
def endTivOf (e : EndWith) (n : Nat) (s : State) : State :=
  match (s.slice n).tiv with
  | none => s
  | some t => completeBad t.key e.cls e.code e.detail (dropInterval n t s)

/-- The work of a slice's pins and units ends and its pins go SAFE (R63, R208, R253). `inRun` as in `safePin`;
a site homed on the slice ends by the cause itself. -/
def endSliceWork (inRun : Bool) (e : EndWith) (n : Nat) (s : State) : State :=
  let s := endTivOf e n (endTdcWork (slicePins n) e s)
  forAll (slicePins n) (fun p s => endSettling e p (safePin true (inRun && (siteOfPin s p).map (homeOf s) != some n) e p s)) s

/-- An engine's calls end and its routine with them; a STOPPED engine stays STOPPED (R161, R180). -/
def endEngine (e : EndWith) (i : Nat) (s : State) : State :=
  let s := endCalls i e s
  if (s.eng i).state = 3 then s else engIdle i s

/-- A sequence over a controller ends; what else it has turned on turns off (R268). -/
def endSeqOf (e : EndWith) (d : Nat) (s : State) : State :=
  match seqOfDps s d with
  | none => s
  | some x =>
    match Tab.find s.seqs x with
    | none => s
    | some q =>
      let s := { s with seqs := Tab.erase s.seqs x }
      completeBad q.key e.cls e.code e.detail (q.turnedOn.foldl (fun s d => dpsDisable d s) s)

/-- A monitor is disabled, its configuration kept (R272, R279). -/
def disableMon (m : Nat) (s : State) : State := s.updMon m (fun x => monOff { x with cfg := setBit x.cfg 31 false })

/-- The controllers, monitors, analogue and triggers of a bay (R279, R293, R299, R323, R324). -/
def endBayUnits (e : EndWith) (k : Nat) (s : State) : State :=
  let s := forAll [2 * k, 2 * k + 1] (fun d s => lossOff 0 false e d (endSeqOf e d s)) s
  let s := forAll [4 * k, 4 * k + 1, 4 * k + 2, 4 * k + 3] disableMon s
  seqOff k true (endAcq k (some e) (endDigCap k e (awgOff k e s)))

/-- The slices of a bay. -/
def baySlices (k : Nat) : List Nat := (List.range 8).map (fun i => 8 * k + i)

/-- All work of a bay ends. -/
def endBayWork (inRun : Bool) (e : EndWith) (k : Nat) (s : State) : State :=
  let s := forAll (baySlices k) (fun n s => endEngine e n (endSliceWork inRun e n s)) s
  endBayUnits e k (endEngine e (128 + k) s)

/-! ## Sites of a unit -/

/-- Sites in runs that `p` picks, with their Sheaves. -/
def runSites (s : State) (p : Nat → Bool) : List (Nat × Nat) :=
  s.runs.flatMap (fun e => if e.2.admitted then (e.2.live.filter p).map (fun x => (e.1, x)) else [])

/-- A site uses a bay. -/
def siteInBay (s : State) (k x : Nat) : Bool := (((s.site? x).map Site.bayNos).getD []).contains k

/-- A site holds a pin of a slice, or is homed in it. -/
def siteInSlice (s : State) (n x : Nat) : Bool :=
  ((s.site? x).map (fun t => t.home == n || t.pinNos.any (fun p => p / 2 == n))).getD false

/-- Sites end with end status FAULT (R33, R146). -/
def faultSites (l : List (Nat × Nat)) (code detail : Nat) (s : State) : State :=
  l.foldl (fun s e => faultSite e.1 e.2 code detail s) s

/-- Sites end at their next vector boundary as if stopped (R490). -/
def stopSitesSoon (l : List (Nat × Nat)) (s : State) : State :=
  l.foldl (fun s e => match s.run? e.1 with
    | none => s
    | some r =>
      let s := runQual e.1 1 Code.siteStopped s
      if r.phase = 2 then endSiteSoon e.1 e.2 3 0 0xFF s else endSite e.1 e.2 3 0 0xFF s) s

/-! ## Fences (R33) -/

/-- What the work of a fenced unit ends with. -/
def fencedEnd (unit : Nat) : EndWith := { cls := 8, code := Code.fenced, detail := unit }

/-- A slice is fenced (R33): its work fails, its pins go SAFE, a site homed there ends. -/
def fenceSlice (n : Nat) (s : State) : State :=
  let e := fencedEnd n
  let home := (runSites s (fun x => homeOf s x == n))
  let s := { s with fenced := (FenceUnit.slice (Fin.ofNat 128 n) :: s.fenced).eraseDups }
  faultSites home Code.fenced n (endSliceWork true e n s)

/-- A bay is fenced (R33): work that uses it fails. -/
def fenceBay (k : Nat) (s : State) : State :=
  let sites := runSites s (siteInBay s k)
  let s := { s with fenced := (FenceUnit.bay (Fin.ofNat 16 k) :: s.fenced).eraseDups }
  endBayWork false (fencedEnd k) k (faultSites sites Code.fenced k s)

/-- A PE die is fenced (R33): work that uses its eight bays fails. -/
def fenceDie (j : Nat) (s : State) : State :=
  let ks := (List.range 8).map (fun i => 8 * j + i)
  let sites := runSites s (fun x => ks.any (fun k => siteInBay s k x))
  let s := { s with fenced := (FenceUnit.peDie (Fin.ofNat 2 j) :: s.fenced).eraseDups }
  forAll ks (fun k s => endBayWork false (fencedEnd j) k s) (faultSites sites Code.fenced j s)

/-- UNIT_FENCE: a unit fails and is fenced (R33); a bay raises BAY_FAULT, a PE die PE_DIE (R437). -/
def doUnitFence (u : FenceUnit) (s : State) : State :=
  match u with
  | .slice n => endEngine (fencedEnd n.val) n.val (fenceSlice n.val s)
  | .bay k => raise (srcBay k.val) 0 0 (fenceBay k.val s)
  | .peDie j => raise (srcPeDie j.val) 0 0 (fenceDie j.val s)

/-- UNIT_FENCE. -/
def execUnitFence (u : FenceUnit) (s : State) : Host.Outcome State Fault Refusal := .next (doUnitFence u s)

/-! ## Machine checks (R179, R188) -/

/-- The engine stops on the failed word; ENG_MC is captured. -/
def captureMc (e : Nat) (s : State) : State :=
  s.updEng e (fun x =>
    let w := x.entry x.pc
    { x with
      state := 3, cur := none, waiting := false, waitEnd := 0, latched := 0, mustRun := false, idleOrigin := false
      group := false, groupEnd := false, mcFence := true
      mcInfo := BitVec.ofNat 32 (2 ^ 31 + x.group.toNat * 2 ^ 30 + (x.state == 2).toNat * 2 ^ 29 + syndrome w * 2 ^ 14 + x.pc.toNat)
      mcWord := (List.range 5).map (fun i => (i, BitVec.ofNat 32 (fld w (32 * i) 32)))
      mcStamp := s.stamp, mcCount := satInc x.mcCount })

/-- A machine check: capture, fence, CS_PARITY with the failed address, and the end of the calls. -/
def machineCheck (e : Nat) (s : State) : State :=
  let a := (s.eng e).pc.toNat
  let s := traceEngine 4 e 0 (captureMc e s)
  let s := endCalls e { cls := 8, code := Code.csParity } s
  let s := if e < 128 then fenceSlice e s else raise (srcBay (e - 128)) 0 0 (fenceBay (e - 128) s)
  raise (srcCsParity (engBay e)) 0 a s

/-- A load failed in both attempts (R175): the engine stays STOPPED, its unit is fenced, CS_VERIFY is raised. -/
def loadFailed (e : Nat) (s : State) : State :=
  let s := s.updEng e (fun x => { x with loading := false, state := 3, mcFence := true, reload := none })
  let s := endCalls e { cls := 8, code := Code.csVerify } s
  let s := if e < 128 then fenceSlice e s else raise (srcBay (e - 128)) 0 0 (fenceBay (e - 128) s)
  raise srcCsVerify 0 0 s

/-! ## Memory stacks (R35, R112, R113) -/

/-- FREE slots of the STACK_1 pattern region, the highest first, up to 32 (R113). -/
def spillPlaces (s : State) : List Nat :=
  let n := slotsPerStack s
  (((List.range (patternSlots s 1)).map (fun i => n + (patternSlots s 1 - 1 - i))).filter (fun x => (s.slot x).st == 0)).take 32

/-- The spill ring is rebuilt empty in STACK_1; what was unread is lost (R35, R446). -/
def rebuildSpill (s : State) : State :=
  let l := spillPlaces s
  let s := s.updGrn (fun g => { g with spillOut := l, stat := setFld (setBit g.stat 19 true) 20 6 l.length })
  s.updFlt (fun f => { f with
    lost := satAdd f.lost f.unread, head := 0, tail := 0, unread := 0, size := 32768 * l.length
    slots := (List.range 32).map (fun j =>
      (j, if j < l.length then BitVec.ofNat 32 (2 ^ 31 + l.getD j 0) else 0)) })

/-- A buffer lies in a stack. -/
def inStack (s : State) (j first count : Nat) : Bool := count != 0 && stackOf s first == j

/-- The work whose segments or buffers lie in a stack fails (R33, R113). -/
def endStackWork (j : Nat) (s : State) : State :=
  let e : EndWith := { cls := 8, code := Code.stackFenced, detail := j }
  let s := faultSites (s.runs.flatMap (fun r =>
    if r.2.admitted && (bit r.2.stks j || inStack s j r.2.listing 1 || inStack s j r.2.first r.2.count) then
      r.2.live.map (fun x => (r.1, x)) else [])) Code.stackFenced j s
  let s := (s.caps.filter (fun c => inStack s j c.first c.count)).foldl
    (fun s c => completeBad c.key e.cls e.code e.detail (dropCapture c s)) s
  let s := s.slices.foldl (fun s sl => match sl.2.tiv with
    | none => s
    | some t => if inStack s j t.first t.count then endTivOf e sl.1 s else s) s
  let s := forAll (List.range 16) (fun k s =>
    let d := s.dig k
    let s := if (d.cap.map (fun c => inStack s j c.first c.count)).getD false then endDigCap k e s else s
    if (d.acq.map (fun a => inStack s j a.first a.count)).getD false then endAcq k (some e) s else s) s
  let s := s.engines.foldl (fun s x =>
    let bad (c : Call) : Bool := inStack s j c.first c.count
    let dead := ((x.2.open?.map (·.call)).toList ++ x.2.calls).filter bad
    let s := s.updEng x.1 (fun y => { y with
      open? := y.open?.filter (fun o => !bad o.call), calls := y.calls.filter (fun c => !bad c) })
    dead.foldl (fun s c => completeBad c.key e.cls e.code e.detail s) s) s
  let dead := s.grn.seals.filter (fun x => stackOf s x.slot == j)
  let s := s.updGrn (fun g => { g with seals := g.seals.filter (fun x => !dead.contains x) })
  dead.foldl (fun s x => completeBad x.key e.cls e.code e.detail s) s

/-- STACK_FENCE (R112, R113): FENCED, single-journal mode, STACK_FENCED raised; every slot of the stack reads FREE, the work in
it fails and its reservations are released. -/
def doStackFence (j : Nat) (s : State) : State :=
  if stackFenced s j then s
  else
    let s := s.updGrn (fun g => { g with stat := setBit (setBit (setFld g.stat (2 * j) 2 2) 17 true) 18 false })
    let s := endStackWork j (raise (srcStackFenced j) 0 0 s)
    let n := slotsPerStack s
    let s := s.updGrn (fun g => { g with
      slots := g.slots.filter (fun x => x.1 / n != j), caps := g.caps.filter (fun b => b.first / n != j) })
    let s := updRsv j (fun _ => 0) s
    if j = 0 ∧ bit s.grn.stat 19 = false then rebuildSpill s else s

/-- STACK_FENCE. -/
def execStackFence (j : Fin 2) (s : State) : Host.Outcome State Fault Refusal := .next (doStackFence j.val s)

/-! ## Slice and bay resets (R490, R149) -/

/-- SR, LC, timer and call FIFO of an engine clear; the engine is IDLE unless it is STOPPED (R149, R180, R489). -/
def resetEngine (e : EndWith) (i : Nat) (s : State) : State :=
  (endEngine e i s).updEng i (fun x => { x with sr := [], lc := [], timerEnd := 0, timerZero := false, latched := 0 })

/-- A slice reset. -/
def resetSlice (n : Nat) (s : State) : State :=
  let e : EndWith := { cls := 7, code := Code.resetSlice }
  let s := stopSitesSoon (runSites s (siteInSlice s n)) s
  resetEngine e n (endSliceWork false e n s)

/-- A bay reset. -/
def resetBay (k : Nat) (s : State) : State :=
  let e : EndWith := { cls := 7, code := Code.resetBay }
  let s := stopSitesSoon (runSites s (siteInBay s k)) s
  forAll (baySlices k ++ [128 + k]) (resetEngine e) (endBayWork false e k s)

end Sys2Proof.Machine
end

