-- ==== Sys2Proof/Machine/FltOps.lean ====
section
/-!
DEFINITION. Shared operations of the fault system (R442 to R450): the record queue, records, the Gleaner, the snapshot, FAULT_N.
-/
namespace Sys2Proof.Machine

/-- HOLDOFF in AOCLK ticks (R443). -/
def Faults.holdoff (f : Faults) : Nat := fld f.cfg 16 16
/-- FLT_PIN.MINSEV (R450). -/
def Faults.minSev (f : Faults) : Nat := fld f.pin 27 2

/-- A queued entry may be written: no hold-off holds it, or its severity is above that of the last record, or it is FATAL
(R443). -/
def eligible (x : Source) (e : FEntry) : Bool := !x.hold || decide (x.lastSev < e.sev) || e.sev == 3

/-- Order of the recorder: earliest stamp, higher severity, lower source ID (R442). -/
def recordBefore (a b : Nat × FEntry) : Bool :=
  decide (a.2.stamp < b.2.stamp)
    || (a.2.stamp == b.2.stamp && (decide (b.2.sev < a.2.sev) || (a.2.sev == b.2.sev && decide (a.1 ≤ b.1))))

/-- The first of a list in the recorder's order. -/
def firstOf : List (Nat × FEntry) → Option (Nat × FEntry)
  | [] => none
  | a :: l =>
    match firstOf l with
    | none => some a
    | some b => some (if recordBefore a b then a else b)

/-- Queued entries that may be written. -/
def eligibles (s : State) : List (Nat × FEntry) :=
  s.flt.sources.filterMap (fun x => x.2.entry.bind (fun e => if eligible x.2 e then some (x.1, e) else none))

/-- A fault record (R444) of an entry. -/
def recordOf (f : Faults) (i : Nat) (x : Source) (e : FEntry) (first : Bool) : FRecord :=
  { stamp := e.stamp, src := BitVec.ofNat 12 i, sev := e.sev
    flags := BitVec.ofNat 8 (e.same.toNat + (decide (x.base < e.sev)).toNat * 2 + e.coalesced.toNat * 4 + e.coarse.toNat * 8
      + first.toNat * 16 + f.resetFlag.toNat * 32)
    cause := e.cause, count := BitVec.ofNat 16 e.count, seq := f.seq, detail := e.detail
    span := if e.coalesced then BitVec.ofNat 32 (min ((e.lastStamp.toNat - e.stamp.toNat) / eclkSteps) 0xFFFFFFFF) else 0 }

/-- SRC of a record with its severity. -/
def FRecord.srcWord (r : FRecord) : Nat := r.src.toNat + r.sev.toNat * 4096

/-- The 32 bytes of a record (R444). -/
def FRecord.bytes (r : FRecord) : List Byte :=
  let b := leBytes 8 (r.stamp.toNat % 2 ^ 64) ++ leBytes 2 (r.stamp.toNat / 2 ^ 64) ++ leBytes 2 r.srcWord
    ++ leBytes 1 r.flags.toNat ++ leBytes 1 r.cause.toNat ++ leBytes 2 r.count.toNat ++ leBytes 4 r.seq.toNat
    ++ leBytes 4 r.detail.toNat ++ leBytes 4 r.span.toNat
  b ++ leBytes 4 (crc32c b).toNat

/-- The snapshot takes a record (R447): the first MAJOR or FATAL one freezes it with the records before it, later records of its
cycle join it in place of the oldest. -/
def snapshotTake (f : Faults) (r : FRecord) (first : Bool) : Faults :=
  if first then
    { f with snap := some (f.gleaner.drop (f.gleaner.length - 31) ++ [r]), snapStamp := r.stamp }
  else
    match f.snap with
    | none => f
    | some l =>
      if r.stamp = f.snapStamp ∧ bit r.flags 0 then
        let older := l.takeWhile (fun x => !bit x.flags 4)
        if l.length < 32 then { f with snap := some (l ++ [r]) }
        else if older.isEmpty then f
        else { f with snap := some (l.drop 1 ++ [r]) }
      else f

/-- The Gleaner takes a record (R445, R446): the oldest of 256 drops, lost if it had not been copied. -/
def gleanerTake (f : Faults) (r : FRecord) : Faults :=
  let l := f.gleaner ++ [r]
  if l.length ≤ 256 then { f with gleaner := l }
  else { f with gleaner := l.drop 1, lost := if (l.head?.map (·.copied)).getD true then f.lost else satInc f.lost }

/-- FAULT_N on a record (R450). -/
def faultPin (mono : Nat) (sev : BitVec 2) (f : Faults) : Faults :=
  if f.minSev ≤ sev.toNat ∨ sev = 3 then
    { f with
      asserted := true, pulse := true, pulseEnd := mono + fld f.pin 0 14 * usSteps
      pin := if bit f.pin 29 || sev == 3 then setBit f.pin 30 true else f.pin }
  else f

/-- The recorder writes an entry (R442 to R447, R450, R508, R512). -/
def writeEntry (i : Nat) (e : FEntry) (s : State) : State :=
  let x := s.source i
  let f := s.flt
  let first := decide (2 ≤ e.sev.toNat) && f.snap.isNone
  let r := recordOf f i x e first
  let g := faultPin s.mono e.sev (gleanerTake (snapshotTake f r first) r)
  let s := s.updFlt (fun _ => { g with
    seq := g.seq + 1, maxsev := if g.maxsev < e.sev then e.sev else g.maxsev, resetFlag := false })
  let s := s.updSource i (fun x => { x with
    entry := none, lastSev := e.sev, hold := f.holdoff != 0, holdEnd := s.mono + f.holdoff * aoclkSteps })
  let s := count 698 1 s
  trace 1 e.sev.toNat 0
    (leBytes 2 r.srcWord ++ leBytes 1 r.cause.toNat ++ leBytes 1 r.flags.toNat ++ leBytes 2 r.count.toNat
      ++ leBytes 4 r.detail.toNat ++ leBytes 4 r.seq.toNat) s

/-- A record that starts the FATAL sequence: FATAL, but not SHUTDOWN's (R453). -/
def startsFatal (i : Nat) (e : FEntry) : Bool := e.sev == 3 && i != srcShutdown

/-- Writes the eligible entries in order, at most `n`; answers whether one of them starts a FATAL sequence. -/
def writeAll : Nat → State → Bool × State
  | 0, s => (false, s)
  | n + 1, s =>
    match firstOf (eligibles s) with
    | none => (false, s)
    | some (i, e) =>
      let r := writeAll n (writeEntry i e s)
      (r.1 || startsFatal i e, r.2)

/-- At the start of a reset every hold-off ends and the queued entries are written (R457). -/
def flushEntries (s : State) : Bool × State :=
  let s := s.updFlt (fun f => { f with sources := Tab.mapVals f.sources (fun _ x => { x with hold := false }) })
  writeAll 512 s

/-- A FATAL warm reset counts towards STORM: three within 60 s (R456). -/
def countFatal (s : State) : State :=
  s.updFlt (fun f =>
    let l := s.mono :: f.fatalTimes.filter (fun t => decide (s.mono < t + 60000000 * usSteps))
    { f with fatalTimes := l, dump := if 3 ≤ l.length then setBit f.dump 13 true else f.dump })

/-- The slot that holds positions 32,768 × j onward of the spill ring, with its VALID bit (R445, R458). -/
def spillSlot (s : State) (j : Nat) : Word :=
  Tab.get (BitVec.ofNat 32 (2 ^ 31 + (slotsPerStack s - 32 + j))) s.flt.slots j

/-- The address of a position of the spill ring (R445). -/
def spillAddr (s : State) (i : Nat) : Nat := fld (spillSlot s (i / 32768)) 0 16 * slotSize + i % 32768 * 32

/-- The spill ring can be written: it has positions, and its stack serves (R451). -/
def spillReady (s : State) : Bool :=
  let j := (bit s.grn.stat 19).toNat
  decide (0 < s.flt.size) && fld s.grn.stat (2 * j) 2 == 0 && s.serving

/-- The alarm bitmap (R448). -/
def alarmMap (s : State) : Nat := bitsToNat ((s.flt.sources.filter (fun x => x.2.alarm)).map (·.1))

end Sys2Proof.Machine
end

