-- ==== Sys2Proof/Machine/Pwr.lean ====
section
/-!
DEFINITION. The PWR commands (R263 to R268, R372), the registers and events of the DUT power controllers, the window monitors
and the blanking channels (R261 to R283).
-/
namespace Sys2Proof.Machine

/-- Scopes device, bay and site (R372). -/
def scopesDBX : Nat := 21

/-! ## Commands -/

/-- PWR.ON (R263, R264): completes at power good. -/
def doPwrOn (c : Cmd) (s : State) : State :=
  let d := c.u 0 1
  runCmd { op := 0x800, scopes := scopesDBX } c
    (fun s t => [lenCheck c 8, dpsField c s t 0, rsv c 1 7])
    (fun s t => dpsReach s t d :: enableChecks s d ++ [seqCheck s d])
    (fun _ s =>
      let s := dpsEnable d (useBays c.key [d / 2] s)
      if bit (s.dpsOf d).stat 3 then completeOk c.key 0 s else waitDps c.key d s) s

/-- PWR.ON. -/
def execPwrOn (c : Cmd) (s : State) : Host.Outcome State Fault Refusal := .next (doPwrOn c s)

/-- PWR.OFF (R263): completes when STATE is OFF. -/
def doPwrOff (c : Cmd) (s : State) : State :=
  let d := c.u 0 1
  runCmd { op := 0x801, scopes := scopesDBX } c
    (fun s t => [lenCheck c 8, dpsField c s t 0, rsv c 1 7])
    (fun s t => [dpsReach s t d, gangCheck s d, seqCheck s d])
    (fun _ s =>
      let s := dpsDisable d (useBays c.key [d / 2] s)
      if (s.dpsOf d).isOff then completeOk c.key 0 s else waitDps c.key d s) s

/-- PWR.OFF. -/
def execPwrOff (c : Cmd) (s : State) : Host.Outcome State Fault Refusal := .next (doPwrOff c s)

/-- PWR.SET (R263, R372): rounded to 100 µV with halves up; on an output that is on, completes at PG. -/
def doPwrSet (c : Cmd) (s : State) : State :=
  let d := c.u 0 1
  runCmd { op := 0x802, scopes := scopesDBX } c
    (fun s t => [lenCheck c 8, dpsField c s t 0, rsv c 1 3, rng c 4 4 0 6000000])
    (fun s t => [dpsReach s t d, gangCheck s d, seqCheck s d])
    (fun _ s =>
      let s := dpsSetV d ((c.u 4 4 + 50) / 100) (useBays c.key [d / 2] s)
      let x := s.dpsOf d
      if x.en && !x.down && !bit x.stat 3 then waitDps c.key d s else completeOk c.key 0 s) s

/-- PWR.SET. -/
def execPwrSet (c : Cmd) (s : State) : Host.Outcome State Fault Refusal := .next (doPwrSet c s)

/-- The steps of a PWR.SEQ (R267, R372). -/
def seqSteps (c : Cmd) : List (Nat × Bool × Nat) :=
  (List.range (c.u 0 1)).map (fun i => (c.u (8 + 8 * i) 1, c.u (9 + 8 * i) 1 == 1, c.u (12 + 8 * i) 4))

/-- PWR.SEQ (R267, R372): the checks of every step come before any runs. -/
def doPwrSeq (c : Cmd) (s : State) : State :=
  let l := seqSteps c
  runCmd { op := 0x803, scopes := 16 } c
    (fun s t => [rng c 0 1 1 8, lenCheck c (8 + 8 * c.u 0 1), rsv c 1 7] ++
      (List.range l.length).flatMap (fun i =>
        [dpsField c s t (8 + 8 * i), rng c (9 + 8 * i) 1 0 1, rsv c (10 + 8 * i) 2, rng c (12 + 8 * i) 4 0 10000000]))
    (fun s t => l.map (fun q => seqCheck s q.1) ++
      l.flatMap (fun q => dpsReach s t q.1 :: (if q.2.1 then enableChecks s q.1 else [gangCheck s q.1])))
    (fun _ s =>
      let q := l.headD (0, false, 0)
      { useBays c.key (l.map (fun q => q.1 / 2)) s with
        seqs := Tab.set s.seqs q.1 { key := c.key, steps := l, stepAt := s.mono + q.2.2 * usSteps } }) s

/-- PWR.SEQ. -/
def execPwrSeq (c : Cmd) (s : State) : Host.Outcome State Fault Refusal := .next (doPwrSeq c s)

/-- PWR_SEQ_STEP (R267, R268): the step acts as PWR.ON or PWR.OFF would; an ON step that R264 no longer allows stops the
sequence. -/
def doPwrSeqStep (x : Nat) (s : State) : State :=
  match Tab.find s.seqs x with
  | none => s
  | some q =>
    if q.acting ∨ q.unwind.isSome then s
    else
      let s := advanceMono q.stepAt s
      let d := q.step.1
      let s := blkByDps d s
      if q.step.2.1 then
        if (firstFail (enableChecks s d)).isSome then seqAbort x q.cur Code.seqTrip s
        else
          let s := s.updSeq x (fun q => { q with acting := true, turnedOn := d :: q.turnedOn.filter (· != d) })
          let s := dpsEnable d s
          if bit (s.dpsOf d).stat 3 then seqStepDone x s else s
      else
        let s := s.updSeq x (fun q => { q with acting := true, turnedOn := q.turnedOn.filter (· != d) })
        let s := dpsDisable d s
        if (s.dpsOf d).isOff then seqStepDone x s else s

/-- PWR_SEQ_STEP. -/
def execPwrSeqStep (x : Fin 32) (s : State) : Host.Outcome State Fault Refusal := .next (doPwrSeqStep x.val s)

/-- PWR.MEAS (R372): the measured voltage and current, signed; on a gang master the current is the gang's total (R266). -/
def doPwrMeas (c : Cmd) (uv ua : Int) (s : State) : State :=
  let d := c.u 0 1
  runCmd { op := 0x804, scopes := scopesDBX } c
    (fun s t => [lenCheck c 8, dpsField c s t 0, rsv c 1 7])
    (fun s t => [dpsReach s t d])
    (fun _ s =>
      let s := (useBays c.key [d / 2] s).updDps d (fun x => { x with vmeas := uv, imeas := ua })
      complete c.key 0 0 0 (BitVec.ofNat 32 (ofSigned 32 uv)) (BitVec.ofNat 32 (ofSigned 32 ua)) [] s) s

/-- PWR.MEAS. -/
def execPwrMeas (c : Cmd) (uv ua : Int) (s : State) : Host.Outcome State Fault Refusal := .next (doPwrMeas c uv ua s)

/-- The members that PWR.GANG names after the master. -/
def gangList (c : Cmd) : List Nat := (List.range (c.u 1 1)).map (fun j => c.u (8 + j) 1)

/-- GANG_RULE (R265): the first member that breaks a rule. -/
def gangRule (s : State) (m : Nat) (l : List Nat) : Option Nat :=
  (List.range (l.length + 1)).findSome? (fun i =>
    let d := (m :: l).getD i 0
    let x := s.dpsOf d
    if ((m :: l).take i).contains d || x.ganged || !x.isOff || d / 16 != m / 16 || siteOfDps s d != siteOfDps s m then some d
    else none)

/-- PWR.GANG (R265, R266, R372): forms a gang, whose members take the master's VSET, RAMP and PG window, or dissolves one. -/
def doPwrGang (c : Cmd) (s : State) : State :=
  let m := c.u 0 1
  let l := gangList c
  runCmd { op := 0x805, scopes := scopesDBX } c
    (fun s t => [lenCheck c 16, dpsField c s t 0, rng c 1 1 0 7, rsv c 2 6] ++
      (List.range 8).map (fun j =>
        if j < c.u 1 1 then dpsField c s t (8 + j) else rngIf (c.u (8 + j) 1 != 0xFF) (8 + j)))
    (fun s t => (m :: l).map (fun d => dpsReach s t d) ++
      [if l.isEmpty then
          when? ((s.dpsOf m).isFollower || ((s.dpsOf m).ganged && (gangOf s m).any (fun d => !(s.dpsOf d).isOff)))
            (rState Code.gangRule m)
        else (gangRule s m l).map (fun d => rState Code.gangRule d)])
    (fun _ s =>
      let s := useBays c.key ((m :: l).map (· / 2)) s
      let x := s.dpsOf m
      completeOk c.key 0
        (if l.isEmpty then
          forAll (gangOf s m) (fun d s => s.updDps d (fun y => { y with gang := 0, stat := setBit y.stat 2 false })) s
        else
          forAll (m :: l) (fun d s => s.updDps d (fun y =>
            { y with gang := BitVec.ofNat 32 ((if d = m then 0x8000 else 0) + m), stat := setBit y.stat 2 true
                     ctrl := setFld y.ctrl 0 16 (fld x.ctrl 0 16), vset := x.vset, pg := x.pg })) s)) s

/-- PWR.GANG. -/
def execPwrGang (c : Cmd) (s : State) : Host.Outcome State Fault Refusal := .next (doPwrGang c s)

/-! ## Registers of a controller (R283) -/

/-- Reach of a controller's registers by a host write (R20, R361). -/
def dpsRegReach (a : Agent) (s : State) (d : Nat) : Option Reason :=
  match a with
  | .host c => dpsReach s (c.target.getD .device) d
  | .engine _ => fenceCheck s [] [d / 2]

/-- A write of DPS_CTRL (R263, R264, R268, R283): the fields are stored, and EN turns the output on or off. -/
def writeDpsCtrl (a : Agent) (d : Nat) (v : Word) (s : State) : WRes :=
  let x := s.dpsOf d
  let on := bit v 16
  let was := x.en
  guarded ([when? (fld v 18 2 == 3) (badField 18), when? (fld v 0 16 == 0) (badField 0), dpsRegReach a s d, gangCheck s d]
      ++ (if on && !was then enableChecks s d else []) ++ [if on != was then seqCheck s d else none])
    (.done
      (let s := updGang d (fun y => { y with ctrl := setFld y.ctrl 0 16 (fld v 0 16) }) s
       let s := s.updDps d (fun y => { y with
         ctrl := setFld (setFld y.ctrl 20 2 (fld v 20 2)) 18 2 (fld v 18 2) })
       if on && !was then dpsEnable d s else if was && !on then dpsDisable d s else s))

/-- DPS_CTRL_WRITE. -/
def execDpsCtrlWrite (a : Agent) (d : Fin 32) (v : BitVec 32) (s : State) : Host.Outcome State Fault Refusal :=
  .next (regRow (.dps d.val 0x00) v a (fun e s => engDps s e d.val) (writeDpsCtrl a d.val v) s)

/-- The tripping monitor's zone is still an alarm zone for the trip (R276). -/
def tripActive (s : State) (x : Dps) : Bool :=
  bit x.tripsrc 1 && (let m := s.mon (fld x.tripsrc 8 8); m.en && m.valid && m.alarmZone m.zone)

/-- A write of DPS_STAT (R276, R283): 1 to TRIPPED, LIM_OFF or LIM_SEEN. Once neither flag is left, STATE becomes OFF and
VPE_OFF clears. -/
def writeDpsStat (a : Agent) (d : Nat) (v : Word) (s : State) : WRes :=
  let x := s.dpsOf d
  let w := x.stat &&& v &&& 0xD0#32
  let y := x.stat &&& ~~~w
  guarded [dpsRegReach a s d, when? (decide (w &&& 0xC0#32 ≠ 0) && tripActive s x) (rState Code.tripActive d)]
    (.done (s.updDps d (fun x => { x with
      stat := if decide (w &&& 0xC0#32 ≠ 0) && decide (y &&& 0xC0#32 = 0) then setBit (setFld y 0 2 0) 8 false else y })))

/-- DPS_TRIP_CLEAR. -/
def execDpsTripClear (a : Agent) (d : Fin 32) (v : BitVec 32) (s : State) : Host.Outcome State Fault Refusal :=
  .next (regRow (.dps d.val 0x14) v a (fun e s => engDps s e d.val) (writeDpsStat a d.val v) s)

/-- A write of a controller register at an offset of its block (R283). -/
def writeDpsReg (a : Agent) (d off : Nat) (v : Word) (s : State) : WRes :=
  match off with
  | 0x00 => writeDpsCtrl a d v s
  | 0x04 =>
    guarded [when? (decide (60000 < fld v 0 16)) (badField 0), dpsRegReach a s d, gangCheck s d, seqCheck s d]
      (.done (dpsSetV d (fld v 0 16) s))
  | 0x08 =>
    guarded [when? (decide (fld v 0 16 < 328) || decide (32767 < fld v 0 16)) (badField 0), dpsRegReach a s d]
      (.done (s.updDps d (fun x => { x with ilim := v })))
  | 0x0C =>
    guarded [when? (decide (v.toNat < 500) || decide (1000000 < v.toNat)) (badField 0), dpsRegReach a s d,
        when? (s.dpsOf d).en (rState 0 d)]
      (.done (s.updDps d (fun x => { x with shunt := v })))
  | 0x10 =>
    guarded [when? (decide (fld v 16 16 < fld v 0 16)) (badField 0), dpsRegReach a s d, gangCheck s d]
      (.done (updGang d (fun x => { x with pg := v }) s))
  | 0x14 => writeDpsStat a d v s
  | _ => guarded [dpsRegReach a s d] (.done s)

/-! ## Events of a controller -/

/-- DPS_RAMP_END (R263 step 4): the set point reaches VSET, STATE = REG. -/
def doDpsRampEnd (d : Nat) (s : State) : State :=
  let x := s.dpsOf d
  if x.en ∧ !x.down ∧ !x.rampDone then
    updGang d (fun y => { y with stat := setFld y.stat 0 2 2, rampDone := true, rampEndAt := s.mono }) s
  else s

/-- DPS_RAMP_END. -/
def execDpsRampEnd (d : Fin 32) (s : State) : Host.Outcome State Fault Refusal := .next (doDpsRampEnd d.val s)

/-- DPS_POWER_GOOD (R263 step 5): four loop periods in the PG window after the ramp's end. -/
def doDpsPowerGood (d : Nat) (s : State) : State :=
  let x := s.dpsOf d
  if x.en ∧ x.rampDone ∧ !bit x.stat 3 then
    let s := advanceMono (x.rampEndAt + 4 * loopSteps) s
    forAll (gangOf s d) (fun e s => seqReached e true
      (endDpsWaits e 0 0 (s.updDps e (fun y => { y with stat := setBit y.stat 3 true })))) s
  else s

/-- DPS_POWER_GOOD. -/
def execDpsPowerGood (d : Fin 32) (s : State) : Host.Outcome State Fault Refusal := .next (doDpsPowerGood d.val s)

/-- A sequence whose ON step on a controller meets PG_TIMEOUT stops (R268). -/
def seqPgTimeout (d : Nat) (s : State) : State :=
  match seqOfDps s d with
  | none => s
  | some x =>
    match Tab.find s.seqs x with
    | none => s
    | some q => if q.acting ∧ q.step.1 = d ∧ q.step.2.1 then seqAbort x q.cur Code.seqPgTimeout s else s

/-- DPS_PG_TIMEOUT (R263): 10 ms after the ramp's end; the output stays on and waiting commands complete OK_QUALIFIED. -/
def doDpsPgTimeout (d : Nat) (s : State) : State :=
  let x := s.dpsOf d
  if x.en ∧ x.rampDone ∧ !bit x.stat 3 then
    let s := advanceMono (x.rampEndAt + 10000 * usSteps) s
    forAll (gangOf s d) (fun e s => seqPgTimeout e (endDpsWaits e 1 Code.pgTimeout s)) s
  else s

/-- DPS_PG_TIMEOUT. -/
def execDpsPgTimeout (d : Fin 32) (s : State) : Host.Outcome State Fault Refusal := .next (doDpsPgTimeout d.val s)

/-- DPS_OFF_DONE (R263): the set point reaches 0 V, the gate turns off, STATE = OFF. -/
def doDpsOffDone (d : Nat) (s : State) : State :=
  if (s.dpsOf d).down then
    forAll (gangOf s d) (fun e s => seqReached e false
      (endDpsWaits e 0 0 (s.updDps e (fun y => { y with stat := setBit (setFld y.stat 0 2 0) 5 false, down := false })))) s
  else s

/-- DPS_OFF_DONE. -/
def execDpsOffDone (d : Fin 32) (s : State) : Host.Outcome State Fault Refusal := .next (doDpsOffDone d.val s)

/-- DPS_CURRENT_LIMIT (R261): the limiter takes over the gate; AT_LIMIT and LIM_SEEN. -/
def doDpsCurrentLimit (d : Nat) (s : State) : State :=
  let x := s.dpsOf d
  if x.isOff ∨ bit x.stat 5 then s
  else s.updDps d (fun x => { x with stat := setBit (setBit x.stat 5 true) 4 true, limitAt := s.mono })

/-- DPS_CURRENT_LIMIT. -/
def execDpsCurrentLimit (d : Fin 32) (s : State) : Host.Outcome State Fault Refusal := .next (doDpsCurrentLimit d.val s)

/-- DPS_LIM_OFF (R261): the limit has held for TLIM loop periods; the output turns off as for a trip, with LIM_OFF set. -/
def doDpsLimOff (d : Nat) (s : State) : State :=
  let x := s.dpsOf d
  let n := fld x.ilim 16 16
  if bit x.stat 5 ∧ n ≠ 0 then tripDps 6 1 1 d (advanceMono (x.limitAt + n * loopSteps) s) else s

/-- DPS_LIM_OFF. -/
def execDpsLimOff (d : Fin 32) (s : State) : Host.Outcome State Fault Refusal := .next (doDpsLimOff d.val s)

/-- DPS_LIMIT_RELEASE (R261): AT_LIMIT clears and the limit timer breaks; LIM_SEEN stays. -/
def doDpsLimitRelease (d : Nat) (s : State) : State :=
  s.updDps d (fun x => { x with stat := setBit x.stat 5 false, limitAt := 0 })

/-- DPS_LIMIT_RELEASE. -/
def execDpsLimitRelease (d : Fin 32) (s : State) : Host.Outcome State Fault Refusal := .next (doDpsLimitRelease d.val s)

/-! ## Registers of a monitor (R283) -/

/-- Reach of a monitor's registers by a host write (R20, R361). -/
def monRegReach (a : Agent) (s : State) (m : Nat) : Option Reason :=
  match a with
  | .host c => firstFail [siteOwned (c.target.getD .device) (siteOfMon s m) 0, fenceCheck s [] [m / 4]]
  | .engine _ => fenceCheck s [] [m / 4]

/-- Writable bits of MON_CFG: BLANK_TRIP and ROUTE.TRIP only on privileged monitors. -/
def monCfgMask (m : Nat) : Word := if privMon m then 0x9FFCFF3F#32 else 0x9FECFF1F#32

/-- A write of MON_CFG (R269, R272): enabling, or a change of SRC or SPEED, starts the resolve; a change of HYST holds the
zone for 2 µs; disabling reads INSIDE and VALID 0. -/
def writeMonCfg (a : Agent) (m : Nat) (v : Word) (s : State) : WRes :=
  let w := v &&& monCfgMask m
  guarded [when? (decide (4 < fld v 26 3)) (badField 26), monRegReach a s m]
    (.done (s.updMon m (fun x =>
      let y := { x with cfg := w }
      if !bit w 31 then monOff y
      else if !x.en || fld x.cfg 24 5 != fld w 24 5 then monStart s.mono y
      else if fld x.cfg 8 8 != fld w 8 8 && x.valid then { y with holding := true, resolveAt := s.mono + 2 * usSteps }
      else y)))

/-- MON_CFG_WRITE. -/
def execMonCfgWrite (a : Agent) (m : Fin 64) (v : BitVec 32) (s : State) : Host.Outcome State Fault Refusal :=
  .next (regRow (.mon m.val 0x00) v a (fun e s => engMon s e m.val) (writeMonCfg a m.val v) s)

/-- LO does not exceed HI, compared as the input's code type (R269). -/
def monOrder (src lo hi : Nat) : Bool :=
  if src = 2 ∨ src = 3 then decide (toSigned 16 lo ≤ toSigned 16 hi) else decide (lo ≤ hi)

/-- A write of MON_THR (R269, R272). -/
def writeMonThr (a : Agent) (m : Nat) (v : Word) (s : State) : WRes :=
  guarded [when? (!monOrder (fld (s.mon m).cfg 26 3) (fld v 0 16) (fld v 16 16)) (rFormat Code.threshOrder), monRegReach a s m]
    (.done (s.updMon m (fun x =>
      let y := { x with thr := v }
      if x.en && x.valid then { y with holding := true, resolveAt := s.mono + 2 * usSteps } else y)))

/-- MON_THR_WRITE. -/
def execMonThrWrite (a : Agent) (m : Fin 64) (v : BitVec 32) (s : State) : Host.Outcome State Fault Refusal :=
  .next (regRow (.mon m.val 0x04) v a (fun e s => engMon s e m.val) (writeMonThr a m.val v) s)

/-- A write of MON_STAT (R270): 1 to EVT acknowledges the alarm. -/
def writeMonStat (a : Agent) (m : Nat) (v : Word) (s : State) : WRes :=
  guarded [monRegReach a s m]
    (.done (s.updMon m (fun x => { x with stat := x.stat &&& ~~~(v &&& 0x80#32) })))

/-- MON_EVT_ACK. -/
def execMonEvtAck (a : Agent) (m : Fin 64) (v : BitVec 32) (s : State) : Host.Outcome State Fault Refusal :=
  .next (regRow (.mon m.val 0x08) v a (fun e s => engMon s e m.val) (writeMonStat a m.val v) s)

/-- A write of a monitor register at an offset of its block (R283). -/
def writeMonReg (a : Agent) (m off : Nat) (v : Word) (s : State) : WRes :=
  match off with
  | 0x00 => writeMonCfg a m v s
  | 0x04 => writeMonThr a m v s
  | 0x08 => writeMonStat a m v s
  | 0x0C =>
    guarded [monRegReach a s m] (.done (s.updMon m (fun x => { x with trip := if privMon m then v &&& 3#32 else 0 })))
  | _ => guarded [monRegReach a s m] (.done s)

/-! ## Events of a monitor -/

/-- The response time of a speed mode in ns (R271). -/
def respNs (speed : Nat) : Nat :=
  match speed with
  | 0 => 3
  | 1 => 30
  | 2 => 300
  | _ => 6000

/-- Nanoseconds in fine steps, rounded up. -/
def nsSteps (n : Nat) : Nat := (n * 8192 + 9) / 10

/-- MON_ALARM (R270): the zone of an enabled, valid monitor changes. -/
def doMonAlarm (m : Nat) (z : MonZone) (s : State) : State :=
  let x := s.mon m
  if x.en ∧ x.valid ∧ !x.holding then meetZone false m (zoneCode z) s else s

/-- MON_ALARM. -/
def execMonAlarm (m : Fin 64) (z : MonZone) (s : State) : Host.Outcome State Fault Refusal := .next (doMonAlarm m.val z s)

/-- MON_RESOLVE (R272): the resolve compare sets the zone and VALID, and an alarm zone raises one alarm; after a threshold write
the monitor resumes comparing. -/
def doMonResolve (m : Nat) (z : MonZone) (s : State) : State :=
  let x := s.mon m
  if !x.en then s
  else if !x.valid then
    let s := advanceMono (x.resolveAt + nsSteps (respNs (fld x.cfg 24 2))) s
    meetZone true m (zoneCode z) (s.updMon m (fun x => { x with stat := setBit x.stat 4 true }))
  else if x.holding then
    meetZone false m (zoneCode z) ((advanceMono x.resolveAt s).updMon m (fun x => { x with holding := false }))
  else s

/-- MON_RESOLVE. -/
def execMonResolve (m : Fin 64) (z : MonZone) (s : State) : Host.Outcome State Fault Refusal := .next (doMonResolve m.val z s)

/-! ## Blanking channels (R273, R283) -/

/-- A write of BLK_GO: 1 starts the channel. -/
def writeBlkGo (i : Nat) (v : Word) (s : State) : WRes :=
  guarded [bayRegReach s (i / 4)] (.done (if bit v 0 then startBlk i s else s))

/-- BLK_GO. -/
def execBlkGo (a : Agent) (i : Fin 64) (v : BitVec 32) (s : State) : Host.Outcome State Fault Refusal :=
  .next (regRow (.blk i.val 0x04) v a (fun e _ => engBayUnit e (i.val / 4)) (writeBlkGo i.val v) s)

/-- A write of BLK_CFG or BLK_GO (R283). -/
def writeBlkReg (i off : Nat) (v : Word) (s : State) : WRes :=
  match off with
  | 0x00 =>
    guarded [when? (decide (4 < fld v 20 4)) (badField 20), when? (decide (400000 < fld v 0 19)) (badField 0),
        bayRegReach s (i / 4)]
      (.done (s.updBlk i (fun b => { b with cfg := setBit (v &&& 0x00F7FFFF#32) 31 (bit b.cfg 31) })))
  | _ => writeBlkGo i v s

/-- A channel ends: each monitor that uses it evaluates its zone again, and an alarm zone raises one alarm (R273). -/
def endBlk (i : Nat) (s : State) : State :=
  let s := s.updBlk i (fun b => { b with cfg := setBit b.cfg 31 false })
  forAll (List.range 4) (fun j s =>
    let m := i / 4 * 4 + j
    let x := s.mon m
    if x.en && x.valid && bit x.cfg 21 && fld x.cfg 22 2 == i % 4 && x.alarmZone x.zone then alarm m s else s) s

/-- BLANK_END (R273). -/
def doBlankEnd (i : Nat) (s : State) : State :=
  let b := s.blk i
  if bit b.cfg 31 then endBlk i (advanceMono b.endAt s) else s

/-- BLANK_END. -/
def execBlankEnd (i : Fin 64) (s : State) : Host.Outcome State Fault Refusal := .next (doBlankEnd i.val s)

end Sys2Proof.Machine
end

