-- ==== Sys2Proof/Machine/Que.lean ====
section
/-!
DEFINITION. The QUE commands (R330 to R351, R365), intake and acceptance (R336 to R341), starts (R347), the posting of
completions (R335, R349), and the register writes of R356.
-/
namespace Sys2Proof.Machine

/-! ## QUE commands (R365) -/

/-- QUE_PARAM with the field's offset (R529). -/
def quePar (b : Bool) (o : Nat) : Option Reason := when? b (rFormat Code.queParam o)

/-- QUE.CREATE (R331, R333). -/
def doQueCreate (c : Cmd) (s : State) : State :=
  let q := c.u 0 2
  let need := intakeSize (c.u 6 2) (c.u 8 2)
  runCmd { op := 0x100, scopes := 1 } c
    (fun _ _ => [lenCheck c 16, when? (q == 0) (rFormat Code.queueFixed 0), quePar (decide (4 ≤ c.u 2 1)) 2, rsv c 5 1,
      quePar (c.u 6 2 == 0 || decide (256 < c.u 6 2)) 6, quePar (decide (510 < c.u 8 2)) 8, quePar (decide (128 ≤ c.u 10 2)) 10])
    (fun s _ => [when? (decide ((s.queue q).state ≠ 0)) (rState Code.queueExists), when? (decide ((s.cq (c.u 3 1)).state ≠ 1)) (rState Code.cqClosed),
      when? (!spaceFits s need) (rResource Code.queueSpace), when? (decide (4096 < creditSum s + c.u 6 2)) (rResource Code.creditLimit)])
    (fun _ s =>
      let (o, s) := choosePlace need s
      let first := BitVec.ofNat 32 (c.u 12 4)
      let x : Queue :=
        { state := 1, flags := BitVec.ofNat 8 (c.u 2 1), cq := BitVec.ofNat 8 (c.u 3 1), domain := BitVec.ofNat 8 (c.u 4 1)
          credits := BitVec.ofNat 16 (c.u 6 2), maxlen := BitVec.ofNat 16 (c.u 8 2), sources := BitVec.ofNat 16 (c.u 10 2)
          nextSeq := first, lowSeq := first, firstSeq := first, intakeAt := o }
      let s := { s with queues := Tab.set s.queues q x, journal := s.journal.filter (fun e => e.key.qid.toNat != q)
                        intake := Tab.erase s.intake q }
      completeOk c.key (queueCtxAddr s q) s) s

/-- QUE.CREATE. -/
def execQueCreate (c : Cmd) (s : State) : Host.Outcome State Fault Refusal := .next (doQueCreate c s)

/-- QUE.DELETE (R333, R365): a HALTED queue is flushed first. -/
def doQueDelete (c : Cmd) (s : State) : State :=
  let q := c.u 0 2
  runCmd { op := 0x101, scopes := 1 } c
    (fun _ _ => [lenCheck c 8, when? (q == 0) (rFormat Code.queueFixed 0)])
    (fun s _ => [when? ((s.queue q).state == 0 || (s.queue q).state == 3) (rState Code.queueClosed)])
    (fun _ s =>
      let s := if (s.queue q).state = 2 then flushQueue q s else s
      closeQueue q (completeOk c.key 0 (s.updQueue q (fun x => { x with state := 3 })))) s

/-- QUE.DELETE. -/
def execQueDelete (c : Cmd) (s : State) : Host.Outcome State Fault Refusal := .next (doQueDelete c s)

/-- The entry at HALT_SEQ. -/
def haltEntryOf (s : State) (q : Nat) : Option JEntry := s.entry? { qid := BitVec.ofNat 16 q, seq := (s.queue q).haltSeq }

/-- QUE.RESUME (R351). -/
def doQueResume (c : Cmd) (s : State) : State :=
  let q := c.u 0 2
  runCmd { op := 0x102, scopes := 1 } c (fun _ _ => [lenCheck c 8, rng c 2 1 0 2]) (fun _ _ => [])
    (fun _ s =>
      let open' (s : State) : State := s.updQueue q (fun x => { x with state := 1 })
      if (s.queue q).state ≠ 2 then completeQual c.key (some Code.notHalted) 0 0 s
      else match c.u 2 1 with
        | 0 => completeOk c.key 0 (open' s)
        | 1 =>
          match haltEntryOf s q with
          | none => completeOk c.key 0 (open' s)
          | some e =>
            let b := s.updEntry e.key (fun x => { x with retry := some c.key })
            { b with works := b.works ++ [{ key := e.key, tag := BitVec.ofNat 16 (pkTag e.bytes), op := BitVec.ofNat 12 (pkOp e.bytes)
                                            src := e.src }] }
        | _ =>
          let n := (waitingCmds s q).length
          complete c.key 0 0 (min n 0xFFFF) 0 0 [] (open' (flushQueue q s))) s

/-- QUE.RESUME. -/
def execQueResume (c : Cmd) (s : State) : Host.Outcome State Fault Refusal := .next (doQueResume c s)

/-- QUE.STATUS (R330, R365): the address of a context. -/
def doQueStatus (c : Cmd) (s : State) : State :=
  runCmd { op := 0x103, scopes := 1 } c
    (fun _ _ => [lenCheck c 8, rng c 2 1 0 1, rngIf (c.u 2 1 == 1 && decide (255 < c.u 0 2)) 0]) (fun _ _ => [])
    (fun _ s => completeOk c.key (if c.u 2 1 = 0 then queueCtxAddr s (c.u 0 2) else cqCtxAddr s (c.u 0 2)) s) s

/-- QUE.STATUS. -/
def execQueStatus (c : Cmd) (s : State) : Host.Outcome State Fault Refusal := .next (doQueStatus c s)

/-- DEPTH is a power of 2 from 64 to 65,536 (R334). -/
def depthOk (d : Nat) : Bool := (List.range 11).any (fun i => d == 64 * 2 ^ i)

/-- QUE.CQ_CREATE (R334, R365). -/
def doQueCqCreate (c : Cmd) (s : State) : State :=
  let q := c.u 0 1
  runCmd { op := 0x110, scopes := 1 } c
    (fun _ _ => [lenCheck c 8, when? (q == 0) (rFormat Code.queueFixed 0), quePar (c.u 2 2 / 2 ^ 10 % 32 != 0) 2,
      quePar (!depthOk (c.u 4 4)) 4])
    (fun s _ => [when? ((s.cq q).state == 1) (rState Code.queueExists), when? (!spaceFits s (c.u 4 4 * 32)) (rResource Code.queueSpace)])
    (fun _ s =>
      let (o, s) := choosePlace (c.u 4 4 * 32) s
      completeOk c.key (queueAddr s o)
        { s with cqs := Tab.set s.cqs q { state := 1, dest := BitVec.ofNat 16 (c.u 2 2), depth := BitVec.ofNat 32 (c.u 4 4), ring := o } }) s

/-- QUE.CQ_CREATE. -/
def execQueCqCreate (c : Cmd) (s : State) : Host.Outcome State Fault Refusal := .next (doQueCqCreate c s)

/-- QUE.CQ_DELETE (R365). -/
def doQueCqDelete (c : Cmd) (s : State) : State :=
  let q := c.u 0 1
  runCmd { op := 0x111, scopes := 1 } c (fun _ _ => [lenCheck c 8, when? (q == 0) (rFormat Code.queueFixed 0)])
    (fun s _ => [when? (s.queues.any (fun e => e.2.state != 0 && e.2.cq.toNat == q)) (rState Code.cqInUse)])
    (fun _ s => completeOk c.key 0 (s.updCq q (fun x => { x with state := 0, ring := 0, recs := [] }))) s

/-- QUE.CQ_DELETE. -/
def execQueCqDelete (c : Cmd) (s : State) : Host.Outcome State Fault Refusal := .next (doQueCqDelete c s)

/-! ## Intake (R338 to R343) -/

/-- The ports whose role is OBSERVE (R329); SPI is always CONTROL. -/
def observeSrc (s : State) (src : BitVec 3) : Bool := decide (src.toNat < 6) && !bit s.role src.toNat

/-- A packet or doorbell fails its CRC-32C (R336, R338). -/
def crcDiscard (src : BitVec 3) (s : State) : State :=
  let s := raise srcPktCrc 0 0 { s with crcerr := satInc s.crcerr }
  if src = 6 then { s with spi := { s.spi with busy := false } } else s

/-- Steps 1 to 5 of R338 for an arriving packet; one that passes waits at intake. -/
def intake (src : BitVec 3) (obs : Bool) (b : List Byte) (s : State) : State :=
  if !pkOk b then crcDiscard src s
  else
    let n := pkQid b
    let q := s.queue n
    if q.state ≠ 1 ∧ q.state ≠ 2 then intakeAnswer src b 2 Code.queueClosed 0 s
    else if !bit q.sources src.toNat then intakeAnswer src b 2 Code.source 0 s
    else if q.maxlen.toNat < pkLen b then intakeAnswer src b 3 Code.pktLen 0 s
    else if q.credits.toNat ≤ (atIntake s n).length then intakeAnswer src b 4 Code.noCredit 0 s
    else { s with intake := Tab.set s.intake n (atIntake s n ++ [{ src := src, obs := obs || observeSrc s src, bytes := b }]) }

/-- Packets are taken, or held at intake through a FATAL sequence or a warm reset (R353, R453, R469, R491). -/
def State.takesPackets (s : State) : Bool := s.powered && !s.boot.coldPend

/-- PACKET_INTAKE (R338): a packet arrives. -/
def doPacketIntake (src : BitVec 3) (obs : Bool) (bytes : List Byte) (s : State) : State :=
  if s.takesPackets ∧ src.toNat ≤ 6 then intake src obs bytes s else s

/-- PACKET_INTAKE. -/
def execPacketIntake (src : BitVec 3) (obs : Bool) (bytes : List (BitVec 8)) (s : State) : Host.Outcome State Fault Refusal :=
  .next (doPacketIntake src obs bytes s)

/-- Takes the first packet of a queue from intake. -/
def popIntake (n : Nat) (s : State) : State :=
  { s with intake := (let l := (atIntake s n).drop 1
                      if l = [] then Tab.erase s.intake n else Tab.set s.intake n l) }

/-- The command is journaled and accepted (R339): NEXT_SEQ and JSN advance, the notice returns the credit. -/
def acceptPacket (p : Packet) (s : State) : State :=
  let k := pkKey p.bytes
  let n := pkQid p.bytes
  let e : JEntry := { key := k, state := 1, src := p.src, obs := p.obs, jsn := s.jsn + 1, bytes := p.bytes, accStamp := s.stamp }
  let s := addEntry e { s with jsn := s.jsn + 1, jfull := false }
  let s := s.updQueue n (fun q => { q with nextSeq := q.nextSeq + 1, accepted := q.accepted + 1 })
  let b := BitVec.ofNat 16 (bitsToNat (((pkCmd p.src p.obs p.bytes).target.getD .device).bays s))
  let s := { s with works := s.works ++ [{ key := k, op := BitVec.ofNat 12 (pkOp p.bytes), tag := BitVec.ofNat 16 (pkTag p.bytes), src := p.src
                                           bays := b, th := s.throttled b 0 }] }
  let s := traceCommand 0 k (pkOp p.bytes) s.jsn 0 (count 694 1 s)
  sendNotice p.src (BitVec.ofNat 16 (pkTag p.bytes)) k s

/-- A duplicate is answered and never executed (R341). -/
def duplicate (p : Packet) (s : State) : State :=
  let q := s.queue (pkQid p.bytes)
  let seq : Word := BitVec.ofNat 32 (pkSeq p.bytes)
  let s := { s with dups := satInc s.dups }
  if (q.nextSeq - q.firstSeq).toNat < (q.nextSeq - seq).toNat then intakeAnswer p.src p.bytes 9 Code.staleSeq 0 s
  else match s.entry? (pkKey p.bytes) with
    | some e =>
      match e.record with
      | none => sendNotice p.src (BitVec.ofNat 16 (pkTag e.bytes)) e.key s
      | some c => answerTo p.src c s
    | none => intakeAnswer p.src p.bytes 9 0 (q.lowSeq.toNat % 65536) s

/-- Intake is held (R340, R343, R453): 4,096 commands in flight, no journal room, or a FATAL sequence. -/
def intakeHeld (p : Packet) (s : State) : Bool :=
  decide (4096 ≤ inFlight s) || !journalRoom s (cdiv (64 + p.bytes.length) 64 * 64) || s.flt.dumping

/-- INTAKE_TURN (R338 to R343): the oldest packet of a queue has its turn. -/
def doIntakeTurn (n : Nat) (s : State) : State :=
  match atIntake s n with
  | [] => s
  | p :: _ =>
    let q := s.queue n
    let d := (BitVec.ofNat 32 (pkSeq p.bytes) - q.nextSeq : Word).toNat
    if !s.serving then s
    else if q.state ≠ 1 ∧ q.state ≠ 2 then intakeAnswer p.src p.bytes 2 Code.queueClosed 0 (popIntake n s)
    else if d = 0 then
      if intakeHeld p s then { s with jfull := !journalRoom s (cdiv (64 + p.bytes.length) 64 * 64) }
      else acceptPacket p (popIntake n s)
    else if d < 2 ^ 31 then intakeAnswer p.src p.bytes 3 Code.seqGap (q.nextSeq.toNat % 65536) (popIntake n s)
    else duplicate p (popIntake n s)

/-- INTAKE_TURN. -/
def execIntakeTurn (q : BitVec 16) (s : State) : Host.Outcome State Fault Refusal := .next (doIntakeTurn q.toNat s)

/-! ## Doorbells and SPI (R336, R337) -/

/-- DOORBELL (R336): HEAD moves, and with REPLAY the records from HEAD to TAIL are sent again. -/
def doDoorbell (src : BitVec 3) (b : List Byte) (s : State) : State :=
  if !s.serving then s
  else if b.length ≠ 16 ∨ crc32c (b.take 12) ≠ BitVec.ofNat 32 (rdLe b 12 4) then crcDiscard src s
  else
    let n := pkWord b 0 % 256
    let c := s.cq n
    if n = 0 ∨ c.state ≠ 1 then s
    else
      let h : Word := BitVec.ofNat 32 (pkWord b 1)
      let s := if (h - c.head).toNat ≤ (c.tail - c.head).toNat then s.updCq n (fun c => { c with head := h }) else s
      if (pkWord b 2).testBit 0 then
        let c := s.cq n
        (List.range (c.tail - c.head).toNat).foldl (fun s i =>
          match s.journal.find? (fun e => e.ringAt == some (c.head + BitVec.ofNat 32 i) && (s.queue e.key.qid.toNat).cq.toNat == n) with
          | none => s
          | some e => match e.record with
            | none => s
            | some r => if bit c.dest 15 then answerTo 6 r s else sendRecord c.dest r s) s
      else s

/-- DOORBELL. -/
def execDoorbell (src : BitVec 3) (bytes : List (BitVec 8)) (s : State) : Host.Outcome State Fault Refusal :=
  .next (doDoorbell src bytes s)

/-- SPI_DB_WRITE (R337): the bytes stand in SPI_CMD; writing 1 submits the packet, while BUSY it is ignored and sets
OVERRUN. -/
def doSpiDbWrite (bytes : List Byte) (v : Word) (s : State) : State :=
  if !s.serving then s
  else
    let s := { s with spi := { s.spi with cmd := padTo 4160 bytes } }
    if v ≠ 1 then s
    else if s.spi.busy then { s with spi := { s.spi with overrun := true } }
    else
      let s := { s with spi := { s.spi with busy := true, acc := false } }
      intake 6 false ((padTo 4160 bytes).take (pkSize bytes)) s

/-- SPI_DB_WRITE. -/
def execSpiDbWrite (bytes : List (BitVec 8)) (v : BitVec 32) (s : State) : Host.Outcome State Fault Refusal :=
  .next (doSpiDbWrite bytes v s)

/-- SPI_CPL_READ (R337): the oldest waiting record goes. -/
def doSpiCplRead (s : State) : State := { s with spi := { s.spi with cpl := s.spi.cpl.drop 1 } }

/-- SPI_CPL_READ. -/
def execSpiCplRead (s : State) : Host.Outcome State Fault Refusal := .next (doSpiCplRead s)

/-! ## Register writes (R356) -/

/-- DEV_PORTROLE_WRITE (R356). -/
def doDevPortroleWrite (v : Word) (s : State) : WRes := .done { s with role := v &&& 0x3F#32 }

/-- DEV_PORTROLE_WRITE. -/
def execDevPortroleWrite (a : Agent) (v : BitVec 32) (s : State) : Host.Outcome State Fault Refusal :=
  .next (regRow (.que 0x00) v a noReach (doDevPortroleWrite v) s)

/-- JOURNAL_LOST_CLEAR (R355). -/
def doJournalLostClear (v : Word) (s : State) : WRes := .done { s with journalLost := s.journalLost && !bit v 31 }

/-- JOURNAL_LOST_CLEAR. -/
def execJournalLostClear (a : Agent) (v : BitVec 32) (s : State) : Host.Outcome State Fault Refusal :=
  .next (regRow (.que 0x04) v a noReach (doJournalLostClear v) s)

/-! ## COMMAND_START (R347, R348) -/

/-- A site holds a pin of a slice or is homed on it. -/
def Site.onSlice (t : Site) (n : Nat) : Bool := t.home == n || t.pins.any (fun p => p.pin / 2 == n)

/-- One of two targets overlaps the other (R347); each unordered pair of kinds is listed once. -/
def overlap1 (s : State) : Target → Target → Bool
  | .device, _ => true
  | .sheaf h, .sheaf g => h == g || (s.members h).any (fun x => (s.members g).contains x)
  | .sheaf h, .bay k => (s.members h).any (fun x => ((s.site? x).map (fun t => t.bayNos.contains k)).getD false)
  | .sheaf h, .slice n => (s.members h).any (fun x => ((s.site? x).map (fun t => t.onSlice n)).getD false)
  | .sheaf h, .site x => (s.members h).contains x
  | .bay k, .bay j => k == j
  | .bay k, .slice n => n / 8 == k
  | .bay k, .site x => ((s.site? x).map (fun t => t.bayNos.contains k)).getD false
  | .slice n, .slice m => n == m
  | .slice n, .site x => ((s.site? x).map (fun t => t.onSlice n)).getD false
  | .site x, .site y => x == y
  | _, _ => false

/-- Two targets overlap. -/
def overlap (s : State) (a b : Target) : Bool := overlap1 s a b || overlap1 s b a

/-- The command of a journal entry. -/
def JEntry.cmd (e : JEntry) : Cmd := pkCmd e.src e.obs e.bytes
def JEntry.target (e : JEntry) : Target := e.cmd.target.getD .device

/-- The entry's command has passed its release point (R347). -/
def entryReleased (s : State) (e : JEntry) : Bool :=
  decide (3 ≤ e.state.toNat) || ((s.work? e.key).map (·.released)).getD false

/-- The domain of an entry's queue. -/
def entryDomain (s : State) (e : JEntry) : BitVec 8 := (s.queue e.key.qid.toNat).domain

/-- Rules Target, Barrier, Fence and Halt of R347; LINK waits for the command before. -/
def orderOk (s : State) (e : JEntry) : Bool :=
  let older := s.journal.filter (fun x => decide (x.jsn < e.jsn) && x.state != 0)
  let mine := older.filter (fun x => x.key.qid == e.key.qid)
  let open' := mine.filter (fun x => !entryReleased s x)
  (s.queue e.key.qid.toNat).state != 2 &&
    !open'.any (fun x => overlap s x.target e.target) &&
    (open'.isEmpty || !(pkBarrier e.bytes || mine.any (fun x => decide (x.state.toNat < 3) && pkBarrier x.bytes))) &&
    !older.any (fun x => entryDomain s x == entryDomain s e &&
      ((pkFence e.bytes && !entryReleased s x) || (pkFence x.bytes && decide (x.state.toNat < 3)))) &&
    (!pkLink e.bytes || ((mine.getLast?).map (entryReleased s)).getD true)

/-- The command before X in its queue was refused, aborted or failed (R348). -/
def linkBroken (s : State) (e : JEntry) : Option JEntry :=
  if pkLink e.bytes then
    ((s.journal.filter (fun x => decide (x.jsn < e.jsn) && x.key.qid == e.key.qid && x.state != 0)).getLast?).filter (fun x =>
      match x.record with
      | none => false
      | some c => decide (2 ≤ c.cls.toNat))
  else none

/-- The opcodes of the class tables (R357). -/
def allOpcodes : List Nat :=
  [0x000, 0x001, 0x002, 0x010, 0x011, 0x012, 0x020, 0x021, 0x100, 0x101, 0x102, 0x103, 0x110, 0x111, 0x200, 0x201, 0x202, 0x203,
   0x204, 0x205, 0x206, 0x300, 0x301, 0x302, 0x303, 0x304, 0x305, 0x306, 0x400, 0x401, 0x402, 0x500, 0x501, 0x502, 0x503, 0x504,
   0x505, 0x600, 0x601, 0x602, 0x603, 0x604, 0x700, 0x701, 0x702, 0x703, 0x704, 0x800, 0x801, 0x802, 0x803, 0x804, 0x805, 0x900,
   0x901, 0x902, 0x903, 0x904, 0x905, 0xA00, 0xA01, 0xA02, 0xA03, 0xA04, 0xB00, 0xB01, 0xB02, 0xB03, 0xB04, 0xB05, 0xB06, 0xC00,
   0xC01, 0xC02, 0xC03, 0xC04, 0xD00, 0xD01, 0xD02, 0xD03, 0xD04, 0xD05, 0xE00, 0xE01, 0xE02, 0xE03, 0xE04, 0xE05, 0xF00, 0xF01]

/-- The bay of a register address (R15). -/
def bayOfAddr (a : Nat) : Option Nat :=
  if 0x01000000 ≤ a ∧ a < 0x01800000 then some ((a - 0x01000000) / 0x10000 / 8)
  else if 0x02000000 ≤ a ∧ a < 0x03000000 then some ((a - 0x02000000) / 0x100000)
  else none

/-- Bays of the pins that a PIN field names. -/
def pinFieldBays (s : State) (c : Cmd) : List Nat :=
  let v := c.u 0 2
  if v = 0xFFFF then ((pinsNamed s (c.target.getD .device) v).map (· / 16)).eraseDups else if v ≤ 255 then [v / 16] else []

/-- Bays whose resources a command is aimed at (R357, R466). The commands that put a bay to sleep, wake it or reset it need
no wake. -/
def aimedBays (s : State) (op : Nat) (c : Cmd) : List Nat :=
  let t := (c.target.getD .device).bays s
  match op / 256 with
  | 0 => if op = 1 ∨ op = 2 then (bayOfAddr (c.u 0 4)).toList else []
  | 3 => if op = 0x300 then ((List.range (c.u 2 1)).map (fun j => c.u (0x18 + 4 * j) 1 / 16)).eraseDups else []
  | 5 => t ++ pinFieldBays s c
  | 6 => t ++ pinFieldBays s c
  | 7 => if op = 0x700 then ((bitsOf 256 (c.u 0 32)).map (· / 16)).eraseDups else t ++ pinFieldBays s c
  | 8 => if op = 0x803 then t else if c.u 0 1 < 32 then t ++ [c.u 0 1 / 2] else t
  | 4 => t
  | 9 => t
  | 10 => t
  | _ => []

/-- The new sequence that a command would start (R473); STR.START waits in a list of its own. -/
def newSeq (op : Nat) (bays : List Nat) : List (List Nat) :=
  if op = 0x700 ∨ op = 0x701 ∨ op = 0x904 ∨ op = 0xA03 then [bays] else []

/-- The command starts (R342, R347): STARTED in the journal, quality tags from now on. -/
def startEntry (e : JEntry) (s : State) : State :=
  let s := s.updEntry e.key (fun x => { x with state := 2 })
  traceCommand 1 e.key (pkOp e.bytes) e.jsn 0 (beginWork (pkOp e.bytes) e.cmd (e.target.bays s) s)

/-- A wake is requested for the bays that sleep (R466). -/
def requestWakes (l : List Nat) (s : State) : State :=
  forAll l (fun k s => if bayAwake s k then s else s.updBay k (fun b => { b with wakeReq := if b.wakeReq = 0 then 1 else b.wakeReq })) s

/-- COMMAND_START (R347, R348, R357, R473): an accepted command whose ordering rules hold starts; one that needs a wake or a
grant waits; one with an unknown opcode, a reserved flag or an invalid W3 completes (R345). -/
def doCommandStart (k : Key) (s : State) : State :=
  match s.entry? k with
  | none => s
  | some e =>
    let op := pkOp e.bytes
    let resume := decide (op = 0x102 ∧ (s.queue k.qid.toNat).state = 2)
    if e.state ≠ 1 ∨ !s.serving ∨ !(resume || orderOk s e) then s
    else
      match linkBroken s e with
      | some p => completeBad k 6 Code.linkBroken (p.key.seq.toNat % 65536) s
      | none =>
        if pkRsv e.bytes ∨ !allOpcodes.contains op then refuse k (rFormat Code.opcode) (startEntry e s)
        else if e.cmd.target.isNone then refuse k (rFormat Code.scope) (startEntry e s)
        else
          let bays := (aimedBays s op e.cmd).eraseDups
          if !(bays.all (bayAwake s)) then
            let sleepers := bays.filter (fun b => !bayAwake s b)
            requestWakes sleepers (s.updWork k (fun w => { w with th := w.th || !wakeFits s sleepers }))
          else if !seqFits s (newSeq op bays) then s.updWork k (fun w => { w with th := true })
          else startEntry e s

/-- COMMAND_START. -/
def execCommandStart (q : BitVec 16) (seq : BitVec 32) (s : State) : Host.Outcome State Fault Refusal :=
  .next (doCommandStart { qid := q, seq := seq } s)

/-! ## COMPLETION_POST (R335, R349) -/

/-- The completion may be posted: its CQ's ring has room, and in an ordered queue every earlier command has been posted. -/
def postable (s : State) (c : Cpl) : Bool :=
  let q := s.queue c.key.qid.toNat
  let d := s.cq q.cq.toNat
  let jsn := ((s.entry? c.key).map (·.jsn)).getD 0
  (q.cq == 0 || d.state != 1 || decide ((d.tail - d.head).toNat < d.depth.toNat)) &&
    (!bit q.flags 0 || !s.journal.any (fun e => e.key.qid == c.key.qid && decide (e.jsn < jsn) && e.inFlight))

/-- Writes the record into the ring and sends it (R335, R362, R400). -/
def postRecord (c : Cpl) (s : State) : State :=
  let n := (s.queue c.key.qid.toNat).cq.toNat
  let s := if c.data = [] ∨ c.src = 6 then s else sendArrival c.src 0x12 0 (c.bytes.take 8 ++ c.data) (emit (.data c.src c.data) s)
  if n = 0 then
    let s := s.updEntry c.key (fun e => { e with sent := true })
    if c.src = 6 then { s with spi := { s.spi with cpl := s.spi.cpl ++ [c] } }
    else sendArrival c.src 0x11 0 c.bytes (emit (.record false (c.src.setWidth 16) c) s)
  else
    let d := s.cq n
    let s := s.updEntry c.key (fun e => { e with ringAt := some d.tail })
    let s := s.updCq n (fun d => { d with recs := Tab.set d.recs (d.tail.toNat % max d.depth.toNat 1) c.bytes, tail := d.tail + 1 })
    let s := countUnits 692 (queueBase s 0 + d.ring) 32 (countUnits 692 (queueBase s 1 + d.ring) 32 s)
    if bit d.dest 15 then { s with spi := { s.spi with cpl := s.spi.cpl ++ [c] } } else sendRecord d.dest c s

/-- COMPLETION_POST (R335, R349): the first completion that may be posted is posted. -/
def doCompletionPost (s : State) : State :=
  match s.compl.find? (postable s) with
  | none => s
  | some c =>
    if s.serving then
      let n := c.key.qid.toNat
      let s := postRecord c { s with compl := s.compl.erase c }
      let s := s.updEntry c.key (fun e => { e with state := 4 })
      closeQueue n (count 695 1 (s.updQueue n (fun q => { q with posted := q.posted + 1 })))
    else s

/-- COMPLETION_POST. -/
def execCompletionPost (s : State) : Host.Outcome State Fault Refusal := .next (doCompletionPost s)

end Sys2Proof.Machine
end

