-- ==== Sys2Proof/Machine/Thm.lean ====
section
/-!
DEFINITION. Supplies, sleep and the thermal governor (R459 to R480): the THM commands (R378), sleep and wakes, the supply events,
the sensors, throttle levels and step mode.
-/
namespace Sys2Proof.Machine

/-- Fine steps in a millisecond. -/
def msSteps : Nat := 1000 * usSteps

/-! ## THM.STATUS (R479) -/

/-- Step mode applies to a zone (R475, R471): at SL1, for 10 s after the last thermal event, and with no valid sensor. -/
def inStep (s : State) (z : Nat) : Bool :=
  let x := s.zone z
  s.boot.sl == 1 || x.novalid || (match x.eventAt with
    | none => false
    | some t => decide (s.mono < t + 10000 * msSteps))

/-- The zone's byte of ZSTAT. -/
def zoneByte (s : State) (z : Nat) : Nat :=
  let x := s.zone z
  x.level.toNat + (inStep s z).toNat * 8 + x.warn.toNat * 16 + x.hold.toNat * 32 + x.flaplock.toNat * 64 + x.novalid.toNat * 128

/-- The reply of THM.STATUS; `supply` are the measured supplies. -/
def thmReply (supply : Nat) (s : State) : List Byte :=
  let zs := List.range 8
  zs.flatMap (fun z => leBytes 4 (ofSigned 32 (s.zone z).temp)) ++ zs.flatMap (fun z => leBytes 1 (zoneByte s z))
    ++ zs.flatMap (fun z => leBytes 1 (s.zone z).s.toNat)
    ++ zs.flatMap (fun n => leBytes 2 (ofSigned 16 (Tab.get ({} : Diode) s.thm.diodes n).temp))
    ++ (List.range 6).flatMap (fun z => leBytes 1 (s.zone z).excl.toNat)
    ++ leBytes 2 ((s.zone 6).excl.toNat % 2 + (s.zone 7).excl.toNat % 2 * 2)
    ++ leBytes 8 supply
    ++ leBytes 1 (fld s.thm.supStat 0 3 + (bit s.thm.supCfg 0).toNat * 8 + s.peRail.toNat * 16) ++ leBytes 1 0
    ++ leBytes 2 (bitsToNat ((List.range 16).filter (bayAwake s)))
    ++ leBytes 2 (bitsToNat ((List.range 16).filter (fun k => bit (s.bay k).cfg 30)))
    ++ leBytes 2 s.sclkOn.toNat ++ leBytes 4 s.thm.switchTotal.toNat ++ leBytes 4 s.thm.flapTotal.toNat
    ++ leBytes 8 s.stamp.toNat ++ leBytes 2 s.ep.toNat ++ leBytes 22 0

/-- THM.STATUS (R378, R479). -/
def doThmStatus (c : Cmd) (s : State) : State :=
  runCmd { op := 0xE00, scopes := 1 } c (fun _ _ => [lenCheck c 0]) (fun _ _ => [])
    (fun _ s =>
      let (v, s) := measure s
      complete c.key 0 0 0 0 0 (thmReply v s) s) s

/-- THM.STATUS. -/
def execThmStatus (c : Cmd) (s : State) : Host.Outcome State Fault Refusal := .next (doThmStatus c s)

/-! ## Sleep (R26, R464 to R468) -/

/-- Every condition of R26, R274 and R464 holds for a bay. -/
def maySleep (s : State) (k : Nat) : Bool :=
  let pins := (List.range 16).map (fun i => 16 * k + i)
  !(s.sites.any (fun e => e.2.bayNos.contains k))
    && ([2 * k, 2 * k + 1].all (fun d => (s.dpsOf d).isOff))
    && (s.dig k).acq.isNone && (s.dig k).cap.isNone && (s.awg k).mode == 0
    && !bit (s.bay k).cfg 30
    && ((baySlices k ++ [128 + k]).all (fun e => (s.eng e).state == 0 && (s.eng e).calls.isEmpty))
    && (pins.all (fun p => !tdcBusy s p)) && ((baySlices k).all (fun n => (s.slice n).tiv.isNone))
    && ([0, 1, 2, 3].all (fun m => !(s.mon (4 * k + m)).en || decide (2 ≤ fld (s.mon (4 * k + m)).cfg 24 2)))
    && !bit (s.trg k).ctrl 31

/-- A bay enters sleep (R465): blanking channels end, pins SAFE with SLEPT, STATE = ASLEEP. -/
def sleepBay (k : Nat) (s : State) : State :=
  let s := forAll [0, 1, 2, 3] (fun i s => if bit (s.blk (blkNo k i)).cfg 31 then endBlk (blkNo k i) s else s) s
  let s := forAll ((List.range 16).map (fun i => 16 * k + i)) (fun p s =>
    safePin false false { cls := 6, code := Code.pinDisabled, detail := p } p
      (s.updPin p (fun x => { x with stat := setBit x.stat 11 true }))) s
  traceThermal 3 (zoneOfBay k) k (s.updBay k (fun b => { b with state := 2 }))

/-- THM.BAY_SLEEP (R378, R464, R465): completes once the bay is ASLEEP. -/
def doThmBaySleep (c : Cmd) (s : State) : State :=
  let k := bayArg c
  runCmd { op := 0xE01, scopes := 4 } c (fun _ _ => [lenCheck c 0])
    (fun s _ => [fenceCheck s [] [k], when? (bayAwake s k && !maySleep s k) (rState Code.bayBusy k)])
    (fun _ s => completeOk c.key 0 (if bayAwake s k then sleepBay k (advance (3 * usSteps) s) else s)) s

/-- THM.BAY_SLEEP. -/
def execThmBaySleep (c : Cmd) (s : State) : Host.Outcome State Fault Refusal := .next (doThmBaySleep c s)

/-- BAY_AUTO_SLEEP (R468): with AUTO = 1 and every condition met the bay sleeps. -/
def doBayAutoSleep (k : Nat) (s : State) : State :=
  if bit (s.bay k).cfg 31 ∧ bayAwake s k ∧ maySleep s k then sleepBay k (advance (3 * usSteps) s) else s

/-- BAY_AUTO_SLEEP. -/
def execBayAutoSleep (k : Fin 16) (s : State) : Host.Outcome State Fault Refusal := .next (doBayAutoSleep k.val s)

/-! ## Wakes (R466) -/

/-- A granted wake: its time passes, the bay is AWAKE; a wake for its wake time clears THM_BAY_WAKE; the commands that waited
complete. -/
def grantWake (k : Nat) (s : State) : State :=
  let b := s.bay k
  let d := wakeAllowance s [k]
  let s := wakeBay b.wakeReq.toNat k (advance d s)
  let s := s.updBay k (fun x => { x with wakeKeys := [], wake := if b.wakeReq = 3 then 0 else x.wake })
  b.wakeKeys.foldl (fun s q => completeOk q 0 s) s

/-- A wake waits for its grant (R473). -/
def askWake (cause k : Nat) (s : State) : State :=
  if bayAwake s k then s
  else s.updBay k (fun b => { b with wakeReq := if b.wakeReq = 0 then BitVec.ofNat 4 cause else b.wakeReq })

/-- THM.BAY_WAKE (R378, R466): completes with the bay awake; a wake that the caps hold back waits. -/
def doThmBayWake (c : Cmd) (s : State) : State :=
  let k := bayArg c
  runCmd { op := 0xE02, scopes := 4 } c (fun _ _ => [lenCheck c 0]) (fun s _ => [fenceCheck s [] [k]])
    (fun _ s =>
      if bayAwake s k then completeOk c.key 0 s
      else
        let s := (askWake 4 k s).updBay k (fun b => { b with wakeKeys := b.wakeKeys ++ [c.key] })
        if wakeFits s [k] then grantWake k s else s) s

/-- THM.BAY_WAKE. -/
def execThmBayWake (c : Cmd) (s : State) : Host.Outcome State Fault Refusal := .next (doThmBayWake c s)

/-- BAY_WAKE_GRANT (R466, R473): a waiting wake that the caps allow. -/
def doBayWakeGrant (k : Nat) (s : State) : State :=
  if (s.bay k).wakeReq ≠ 0 ∧ !bayAwake s k ∧ wakeFits s [k] then grantWake k s else s

/-- BAY_WAKE_GRANT. -/
def execBayWakeGrant (k : Fin 16) (s : State) : Host.Outcome State Fault Refusal := .next (doBayWakeGrant k.val s)

/-- BAY_WAKE_TIME (R466): 60 µs before the wake time, a short stamp within the present epoch, a wake is requested. -/
def doBayWakeTime (k : Nat) (s : State) : State :=
  let w := (s.bay k).wake.toNat
  if w = 0 ∨ w < s.stamp.toNat then s
  else
    let s := advanceTo (s.now.toNat / 2 ^ 64 * 2 ^ 64 + (w - 60 * usSteps)) s
    if bayAwake s k then s.updBay k (fun b => { b with wake := 0 }) else askWake 3 k s

/-- BAY_WAKE_TIME. -/
def execBayWakeTime (k : Fin 16) (s : State) : Host.Outcome State Fault Refusal := .next (doBayWakeTime k.val s)

/-- THM.BAY_PIN (R378). -/
def doThmBayPin (c : Cmd) (s : State) : State :=
  let k := bayArg c
  runCmd { op := 0xE03, scopes := 4 } c (fun _ _ => [lenCheck c 8, rng c 0 1 0 1]) (fun s _ => [fenceCheck s [] [k]])
    (fun _ s => completeOk c.key 0 (s.updBay k (fun b => { b with cfg := setBit b.cfg 30 (c.u 0 1 == 1) }))) s

/-- THM.BAY_PIN. -/
def execThmBayPin (c : Cmd) (s : State) : Host.Outcome State Fault Refusal := .next (doThmBayPin c s)

/-- SCLK has a user (R467). -/
def sclkUsed (s : State) : Bool :=
  (List.range 16).any (bayAwake s) || (List.range 6).any (fun n => (s.port n).state == 1 || (s.port n).state == 2)
    || s.tim.tpo.any (fun e => e.2.mode != 0) || s.tim.tci.any (fun e => fld e.2.cfg 0 2 != 0) || fld s.tim.sync 30 2 != 0

/-- SCLK_STOP (R467): after 10 µs with no user. -/
def doSclkStop (s : State) : State :=
  if s.sclkOn ∧ !sclkUsed s then (advance (10 * usSteps) s).updTim (fun t => { t with sclk := false }) else s

/-- SCLK_STOP. -/
def execSclkStop (s : State) : Host.Outcome State Fault Refusal := .next (doSclkStop s)

/-! ## Entry to SL0 (R469) -/

/-- The lowest bay that is not ASLEEP. -/
def lowestAwake (s : State) : Option Nat := (List.range 16).find? (bayAwake s)

/-- Commands in flight other than one. -/
def othersInFlight (s : State) (k : Key) : Bool := s.journal.any (fun e => e.inFlight && e.key != k)

/-- The device enters SL0: ports off, the stacks in self-refresh with RETAIN. -/
def enterSl0 (s : State) : State :=
  let retain := bit s.thm.sl0 1
  let s := forAll (List.range 6) (fun n s => s.updPort n (fun p => { p with state := 0 })) s
  let s := if retain then s.updGrn (fun g => { g with stat := setFld (setFld g.stat 0 2 1) 2 2 1 }) else s
  setSl 0 (s.updThm (fun t => { t with inSl0 := true }))

/-- The completion of a command that has completed is posted at once. -/
def postNow (k : Key) (s : State) : State :=
  match s.compl.find? (fun c => c.key == k) with
  | none => s
  | some c =>
    let n := k.qid.toNat
    let s := (postRecord c { s with compl := s.compl.erase c }).updEntry k (fun e => { e with state := 4 })
    closeQueue n (count 695 1 (s.updQueue n (fun q => { q with posted := q.posted + 1 })))

/-- A write of THM_SL0 (R469): ENTER is accepted with every bay ASLEEP and nothing else in flight; its completion is posted before
entry. -/
def writeSl0 (a : Agent) (v : Word) (s : State) : WRes :=
  let s1 := s.updThm (fun t => { t with sl0 := v &&& 2#32 })
  if bit v 0 then
    match a with
    | .engine _ => .refused (rState Code.bayBusy)
    | .host c =>
      match lowestAwake s with
      | some k => .refused (rState Code.bayBusy k)
      | none =>
        if othersInFlight s c.key then .refused (rState Code.bayBusy 0xFFFF)
        else .later (enterSl0 (postNow c.key (completeOk c.key 0 s1)))
  else .done s1

/-- THM_SL0_ENTER. -/
def execThmSl0Enter (a : Agent) (v : BitVec 32) (s : State) : Host.Outcome State Fault Refusal :=
  .next (regRow (.sup 0x20) v a noReach (writeSl0 a v) s)

/-! ## The 12 V inputs (R459 to R462) -/

/-- THM.VIN_MODE (R378, R461). -/
def doThmVinMode (c : Cmd) (s : State) : State :=
  runCmd { op := 0xE04, scopes := 1 } c (fun _ _ => [lenCheck c 8, rng c 0 1 0 1]) (fun _ _ => [])
    (fun _ s => completeOk c.key 0 (s.updThm (fun t => { t with supCfg := setBit t.supCfg 0 (c.u 0 1 == 1) }))) s

/-- THM.VIN_MODE. -/
def execThmVinMode (c : Cmd) (s : State) : Host.Outcome State Fault Refusal := .next (doThmVinMode c s)

/-- The active input. -/
def activeB (s : State) : Bool := bit s.thm.supStat 2

/-- The load is on an input (R460 step 2): ACTIVE, THM_SWITCHES, SWITCHOVER. -/
def transferTo (b : Bool) (s : State) : State :=
  raise srcSwitchover 0 0 ((advance (5 * usSteps) s).updThm (fun t =>
    { t with supStat := setBit t.supStat 2 b, switches := satInc t.switches, switchTotal := satInc t.switchTotal }))

/-- VIN_SWITCHOVER (R460, R461): the active input fails; the load transfers unless the other has failed too and is not the
higher one. -/
def doVinSwitchover (otherFailed otherHigher : Bool) (s : State) : State :=
  let b := activeB s
  let s := s.updThm (fun t =>
    let x := setBit t.supStat b.toNat false
    { t with supStat := if otherFailed then setBit x (!b).toNat false else x })
  let s := raise (srcVin b) 0 0 s
  if otherFailed && !otherHigher then s else transferTo (!b) s

/-- VIN_SWITCHOVER. -/
def execVinSwitchover (otherFailed otherHigher : Bool) (s : State) : Host.Outcome State Fault Refusal :=
  .next (doVinSwitchover otherFailed otherHigher s)

/-- VIN_REVERT (R461): VIN_A is good while VIN_B is active and REVERT = 1. -/
def doVinRevert (s : State) : State :=
  let s := s.updThm (fun t => { t with supStat := setBit t.supStat 0 true })
  if activeB s ∧ bit s.thm.supCfg 0 then transferTo false s else s

/-- VIN_REVERT. -/
def execVinRevert (s : State) : Host.Outcome State Fault Refusal := .next (doVinRevert s)

/-- VIN_INPUT_FAIL (R459): an input that is not the active one fails. -/
def doVinInputFail (b : Bool) (s : State) : State :=
  if activeB s = b then s else raise (srcVin b) 0 0 (s.updThm (fun t => { t with supStat := setBit t.supStat b.toNat false }))

/-- VIN_INPUT_FAIL. -/
def execVinInputFail (b : Bool) (s : State) : Host.Outcome State Fault Refusal := .next (doVinInputFail b s)

/-- An output turns off at once, its gate held (R279). -/
def gateOff (d : Nat) (s : State) : State :=
  s.updDps d (fun x => { x with ctrl := setBit x.ctrl 16 false, stat := setFld (x.stat &&& 0xFFFFFFD7#32) 0 2 0, down := false
                                rampDone := false, cmds := [] })

/-- A waveform source in its safe state without completions (the device no longer serves commands). -/
def awgSafe (k : Nat) (s : State) : State := s.updAwg k (fun x => (rollAwg s.mono x).toOff)

/-- A pin held in SAFE by the PE die's own logic. -/
def pinHeld (p : Nat) (s : State) : State :=
  s.updPin p (fun x => { x with ctrl := setBit (setBit x.ctrl 16 false) 17 true, stat := setBit x.stat 0 true, stage := .safe, pmu := x.pmu.toOff })

/-- POWER_FAIL (R462): both inputs are gone; outputs trip off, waveform sources and pins are safe, the rails go off. -/
def doPowerFail (s : State) : State :=
  let s := forAll (List.range 32) (fun d s => if (s.dpsOf d).isOff then s else
    s.updDps d (fun x => { turnOff 7 0 s.stamp x with cmds := [] })) s
  let s := forAll (List.range 256) pinHeld (forAll (List.range 16) awgSafe s)
  (advance (20 * usSteps) s).updBoot (fun b => { b with off := true })

/-- POWER_FAIL. -/
def execPowerFail (s : State) : Host.Outcome State Fault Refusal := .next (doPowerFail s)

/-! ## The pin-electronics rails (R36, R463, R504) -/

/-- Which rails read in range while VPE is lost: at most one, which one is not said. -/
def lossRails (s : State) : State :=
  let (v, s) := measure s
  s.updThm (fun t => { t with supStat := setFld t.supStat 4 2 (v % 3) })

/-- VPE_LOSS (R36, R463, R504): PE_RAIL; the pins are unpowered, PIN_EN clears, PMU and TDC work and every run fail; the enabled
outputs trip off. -/
def doVpeLoss (s : State) : State :=
  if s.peRail then s
  else
    let e : EndWith := { cls := 8, code := Code.peRail }
    let s := lossRails (s.updThm (fun t => { t with supStat := setBit t.supStat 6 true }))
    let s := raise srcPeRail 0 0 s
    let s := forAll (List.range 32) (fun d s => lossOff 8 true e d (endSeqOf e d s)) s
    let sites := runSites s (fun x => !(((s.site? x).map Site.pinNos).getD []).isEmpty)
    let s := faultSites sites Code.peRail 0 s
    let s := forAll (List.range 256) (fun p s => s.updPin p (fun x => { x with stat := setBit x.stat 1 true })) s
    forAll (List.range 128) (endSliceWork false e) s

/-- VPE_LOSS. -/
def execVpeLoss (s : State) : Host.Outcome State Fault Refusal := .next (doVpeLoss s)

/-- VPE_RETURN (R463): PE_RAIL clears, pins hold SAFE until PIN_EN, the TDCs serve their last tables. -/
def doVpeReturn (s : State) : State :=
  if s.peRail then
    let s := s.updThm (fun t => { t with supStat := setFld (setBit t.supStat 6 false) 4 2 3 })
    forAll (List.range 256) (fun p s =>
      refreshPin p (s.updPin p (fun x => { x with stat := setBit x.stat 1 false, tdc := { x.tdc with stale := true } }))) s
  else s

/-- VPE_RETURN. -/
def execVpeReturn (s : State) : Host.Outcome State Fault Refusal := .next (doVpeReturn s)

/-! ## Throttle levels (R471, R472, R474) -/

/-- Number of crossed boundaries. -/
def Zone.crossings (x : Zone) : Nat := (bitsOf 7 x.crossed.toNat).length

/-- A level change (R472, R474): THROTTLE, the count, a rise as a thermal event; the eighth change within 1 s locks the zone. -/
def changeLevel (z l : Nat) (s : State) : State :=
  let x := s.zone z
  if x.level.toNat = l then s
  else
    let rise := decide (x.level.toNat < l)
    let recent := s.mono :: x.changes.filter (fun t => decide (s.mono < t + 1000 * msSteps))
    let lock := decide (8 ≤ recent.length) && !x.flaplock
    let s := s.updZone z (fun x =>
      { x with
        level := BitVec.ofNat 3 l, changes := if lock then [] else recent
        eventAt := if rise || lock then some s.mono else x.eventAt
        flaplock := x.flaplock || lock, lockAt := if lock then s.mono else x.lockAt
        flaps := if lock then satInc x.flaps else x.flaps })
    let s := if lock then s.updThm (fun t => { t with flapTotal := satInc t.flapTotal }) else s
    lowerTags (count (717 + z) 1 (raise (srcThrottle z) 0 0 (traceThermal 0 z 0 s)))

/-- L follows the crossed boundaries: 7 with no valid sensor; never lower during a hold or a lock. -/
def setLevel (z : Nat) (s : State) : State :=
  let x := s.zone z
  let l := if x.novalid then 7 else x.crossings
  if 6 ≤ z then s
  else if l < x.level.toNat ∧ (x.hold || x.flaplock) then s
  else changeLevel z l s

/-- Ej in 1/256 °C (R472). -/
def boundaryTemp (b : Nat) : Int := 34560 + 320 * (b : Int)

/-- THROTTLE_BOUNDARY (R472): boundary `b` + 1 has been crossed, or uncrossed, for 10 ms. -/
def doThrottleBoundary (z b : Nat) (up : Bool) (s : State) : State :=
  let x := s.zone z
  let t := boundaryTemp b
  if z < 6 ∧ (if up then !bit x.crossed b && decide (t ≤ x.temp) else bit x.crossed b && decide (x.temp ≤ t - 1024)) then
    setLevel z (s.updZone z (fun x => { x with crossed := setBit x.crossed b up }))
  else s

/-- THROTTLE_BOUNDARY. -/
def execThrottleBoundary (z : Fin 8) (b : Fin 7) (up : Bool) (s : State) : Host.Outcome State Fault Refusal :=
  .next (doThrottleBoundary z.val b.val up s)

/-- FLAPLOCK_END (R474): 1 s after the eighth change. -/
def doFlaplockEnd (z : Nat) (s : State) : State :=
  let x := s.zone z
  if x.flaplock then
    setLevel z ((advanceMono (x.lockAt + 1000 * msSteps) s).updZone z (fun x => { x with flaplock := false }))
  else s

/-- FLAPLOCK_END. -/
def execFlaplockEnd (z : Fin 8) (s : State) : Host.Outcome State Fault Refusal := .next (doFlaplockEnd z.val s)

/-! ## Sensors (R470, R471) -/

/-- Twice the median of a list of samples. -/
def median2 (l : List Int) : Int :=
  let n := l.length
  let q := l.foldl (fun (a : List Int) v => (a.takeWhile (fun w => decide (w < v))) ++ [v] ++ (a.dropWhile (fun w => decide (w < v)))) []
  if n % 2 = 1 then 2 * q.getD (n / 2) 0 else q.getD (n / 2 - 1) 0 + q.getD (n / 2) 0

/-- The checks of one sample (R471): range, rate, agreement with the median of the others. -/
def sampleOk (v : Int) (prev : Option Int) (others : List Int) : Bool :=
  decide (-14080 ≤ v) && decide (v ≤ 44800)
    && (match prev with
      | none => true
      | some p => decide (-512 ≤ v - p) && decide (v - p ≤ 512))
    && (others.isEmpty || (decide (-7680 ≤ 2 * v - median2 others) && decide (2 * v - median2 others ≤ 7680)))

/-- Sensors of a zone: eight, or one with its two neighbours behind it in the sample. -/
def sensorCount (z : Nat) : Nat := if z < 6 then 8 else 1

/-- The other valid sensors of a sample. -/
def otherValid (z : Nat) (excl : BitVec 8) (l : List Int) (i : Nat) : List Int :=
  if z < 6 then ((List.range 8).filter (fun j => j != i && !bit excl j)).map (fun j => l.getD j 0) else l.drop 1

/-- Tz of a sample (R471). -/
def zoneTemp (z : Nat) (excl : BitVec 8) (l : List Int) (old : Int) : Int :=
  let valid := if z < 6 then ((List.range 8).filter (fun j => !bit excl j)).map (fun j => l.getD j 0)
    else if bit excl 0 then l.drop 1 else l.take 1
  match valid with
  | [] => old
  | v :: t => t.foldl max v + (if excl = 0 then 0 else 2048)

/-- The zone's temperature after a sample or a readmission; a stack's also stands in GRN_TEMP. -/
def takeTemp (z : Nat) (l : List Int) (s : State) : State :=
  let s := s.updZone z (fun x =>
    { x with temp := zoneTemp z x.excl l x.temp, novalid := decide (z < 6) && x.excl == 0xFF#8 })
  let t := ofSigned 16 (l.headD 0)
  if z = 6 then s.updGrn (fun g => { g with temp0 := setFld g.temp0 0 16 t })
  else if z = 7 then s.updGrn (fun g => { g with temp1 := setFld g.temp1 0 16 t })
  else s

/-- An exclusion (R471): SENSOR_EXCL, a thermal event, the 1 s hold. -/
def exclude (z i : Nat) (s : State) : State :=
  traceThermal 2 z 0 (raise (srcSensor z) 0 0 (s.updZone z (fun x =>
    { x with excl := setBit x.excl i true, hold := true, holdAt := s.mono, eventAt := some s.mono
             passAt := Tab.set x.passAt i s.mono })))

/-- SENSOR_SAMPLE (R470, R471): the samples of a zone, in 1/256 °C; for THZ_6 and THZ_7 the stack sensor, then its neighbours. -/
def doSensorSample (z : Nat) (l : List Int) (s : State) : State :=
  if l.length ≠ (if z < 6 then 8 else 3) then s
  else
    let x := s.zone z
    let ok (i : Nat) : Bool := sampleOk (l.getD i 0) x.prev[i]? (otherValid z x.excl l i)
    let idx := List.range (sensorCount z)
    let s := forAll (idx.filter (fun i => !bit x.excl i && !ok i)) (exclude z) s
    let s := s.updZone z (fun y => { y with
      prev := l
      passAt := (idx.filter (fun i => bit x.excl i && !ok i)).foldl (fun t i => Tab.set t i s.mono) y.passAt })
    setLevel z (takeTemp z l s)

/-- SENSOR_SAMPLE. -/
def execSensorSample (z : Fin 8) (temps : List Int) (s : State) : Host.Outcome State Fault Refusal :=
  .next (doSensorSample z.val temps s)

/-- SENSOR_READMIT (R471): an excluded sensor that has passed every check for 10 s. -/
def doSensorReadmit (z i : Nat) (s : State) : State :=
  let x := s.zone z
  if bit x.excl i then
    let s := advanceMono (Tab.get 0 x.passAt i + 10000 * msSteps) s
    let s := s.updZone z (fun x => { x with excl := setBit x.excl i false, passAt := Tab.erase x.passAt i })
    setLevel z (takeTemp z x.prev s)
  else s

/-- SENSOR_READMIT. -/
def execSensorReadmit (z i : Fin 8) (s : State) : Host.Outcome State Fault Refusal := .next (doSensorReadmit z.val i.val s)

/-- EXCL_HOLD_END (R471): 1 s after the last exclusion L may fall again. -/
def doExclHoldEnd (z : Nat) (s : State) : State :=
  let x := s.zone z
  if x.hold then
    setLevel z ((advanceMono (x.holdAt + 1000 * msSteps) s).updZone z (fun x => { x with hold := false }))
  else s

/-- EXCL_HOLD_END. -/
def execExclHoldEnd (z : Fin 8) (s : State) : Host.Outcome State Fault Refusal := .next (doExclHoldEnd z.val s)

/-! ## Step mode (R475) -/

/-- STEP_FACTOR_TICK (R475): the end of 100 ms. -/
def doStepFactorTick (z : Nat) (s : State) : State :=
  let x := s.zone z
  let s := if x.stepAt = 0 then s else advanceMono (x.stepAt + 100 * msSteps) s
  let n := x.s.toNat
  let m :=
    if inStep s z then
      if 34560 ≤ x.temp then max 1 (n - 1) else if x.temp ≤ 33536 then min 8 (n + 1) else n
    else min 8 (n + 1)
  let s := s.updZone z (fun x => { x with s := BitVec.ofNat 4 m, stepAt := s.mono })
  if m = n then s else lowerTags (traceThermal 1 z 0 s)

/-- STEP_FACTOR_TICK. -/
def execStepFactorTick (z : Fin 8) (s : State) : Host.Outcome State Fault Refusal := .next (doStepFactorTick z.val s)

/-! ## Warning and shutdown (R476) -/

/-- THERMAL_WARN (R476). -/
def doThermalWarn (z : Nat) (s : State) : State :=
  let x := s.zone z
  if x.warn = false ∧ 37120 ≤ x.temp then
    raise (srcWarn z) 0 0 (thermalEvent z (s.updZone z (fun x => { x with warn := true })))
  else s

/-- THERMAL_WARN. -/
def execThermalWarn (z : Fin 8) (s : State) : Host.Outcome State Fault Refusal := .next (doThermalWarn z.val s)

/-- WARN_CLEAR (R476). -/
def doWarnClear (z : Nat) (s : State) : State :=
  if (s.zone z).temp ≤ 36096 then s.updZone z (fun x => { x with warn := false }) else s

/-- WARN_CLEAR. -/
def execWarnClear (z : Fin 8) (s : State) : Host.Outcome State Fault Refusal := .next (doWarnClear z.val s)

/-- THERMAL_SHUTDOWN (R476): the latch, SHUTDOWN raised, outputs off at once, waveform sources safe, pins SAFE; from then on no
command is served. -/
def doThermalShutdown (z : Nat) (s : State) : State :=
  if 39680 ≤ (s.zone z).temp ∧ s.thm.shutdown = false then
    let s := raise srcShutdown 0 0 s
    let s := forAll (List.range 32) gateOff (forAll (List.range 64) disableMon s)
    let s := forAll (List.range 256) pinHeld (forAll (List.range 16) awgSafe s)
    s.updThm (fun t => { t with shutdown := true })
  else s

/-- THERMAL_SHUTDOWN. -/
def execThermalShutdown (z : Fin 8) (s : State) : Host.Outcome State Fault Refusal := .next (doThermalShutdown z.val s)

/-! ## Remote diodes and compensation (R32, R470, R478) -/

/-- THM.TD_LIMIT (R378). -/
def doThmTdLimit (c : Cmd) (s : State) : State :=
  runCmd { op := 0xE05, scopes := 1 } c
    (fun _ _ => [lenCheck c 8, rng c 0 1 0 7, rngIf (decide (c.i 4 2 < c.i 2 2)) 2])
    (fun _ _ => [])
    (fun _ s => completeOk c.key 0 (s.updThm (fun t =>
      { t with diodes := Tab.upd {} t.diodes (c.u 0 1) (fun d => { d with lim := halves (c.u 4 2) (c.u 2 2) }) }))) s

/-- THM.TD_LIMIT. -/
def execThmTdLimit (c : Cmd) (s : State) : Host.Outcome State Fault Refusal := .next (doThmTdLimit c s)

/-- TD_SAMPLE (R470): a diode's reading; outside its limits it raises TD_LIMIT. -/
def doTdSample (n : Nat) (temp : Int) (s : State) : State :=
  let s := s.updThm (fun t => { t with diodes := Tab.upd {} t.diodes n (fun d => { d with temp := temp }) })
  let lim := (Tab.get ({} : Diode) s.thm.diodes n).lim
  if temp < toSigned 16 (fld lim 0 16) ∨ toSigned 16 (fld lim 16 16) < temp then raise (srcTd n) 0 0 s else s

/-- TD_SAMPLE. -/
def execTdSample (n : Fin 8) (temp : Int) (s : State) : Host.Outcome State Fault Refusal := .next (doTdSample n.val temp s)

/-- COMPENSATION_TICK (R478): the next whole millisecond comes; the references and IOSC are corrected, which no register shows. -/
def doCompensationTick (s : State) : State := advanceMono ((s.mono / msSteps + 1) * msSteps) s

/-- COMPENSATION_TICK. -/
def execCompensationTick (s : State) : Host.Outcome State Fault Refusal := .next (doCompensationTick s)

end Sys2Proof.Machine
end

