-- ==== Sys2Proof/Machine/TimOps.lean ====
section
/-!
DEFINITION. Shared operations of the time block (R411 to R434): steps, TQ, the reference, the servo, path steps and asymmetry,
1588 timestamps.
-/
namespace Sys2Proof.Machine

/-! ## TQ (R416) -/

/-- Fine steps in a second. -/
def secSteps : Nat := 819200000000

/-- REFCLK is selected: it is present and the PLL has moved to it (R24, R415). -/
def State.refSelected (s : State) : Bool := s.tim.refPresent && !s.tim.refIosc

/-- TIM_CFG.GM. -/
def State.isGm (s : State) : Bool := bit s.tim.cfg 0

/-- A TIME trace record (R508): TQ, port, the latest offset. -/
def traceTime (sub port : Nat) (s : State) : State :=
  trace 6 sub 0 (leBytes 1 s.tim.tq.toNat ++ leBytes 1 port ++ leBytes 8 (ofSigned 64 (roundAway (s.tim.theta.getD 0) 256))) s

/-- TQ changes (R416): every result in work carries the lowest. -/
def setTq (q : BitVec 2) (s : State) : State :=
  if s.tim.tq = q then s
  else traceTime 0 0 (lowerTags (s.updTim (fun t => { t with tq := q, lockHist := t.lockHist || q == 3, locks := 0, unlocks := 0 })))

/-- TQ leaves LOCKED for HOLDOVER (R416). -/
def toHoldover (s : State) : State := if s.tim.tq = 3 then setTq 2 s else s

/-- A grandmaster on REFCLK is LOCKED once time is set (R416). -/
def gmLock (s : State) : State := if s.isGm ∧ s.refSelected ∧ s.tim.tq ≠ 0 then setTq 3 s else s

/-! ## Steps (R412) -/

/-- Work that waits for an absolute time: a scheduled start, a TIME start or end, a TRG_TIME condition, a pending pulse. -/
def absoluteWork (s : State) : Bool :=
  s.runs.any (fun e => e.2.phase == 1)
    || s.caps.any (fun c => c.endAt != 0)
    || s.tim.tpo.any (fun e => e.2.mode != 0)
    || s.bays.any (fun e =>
      (match e.2.awg.pend with
        | none => false
        | some p => p.timed && p.startAt.isSome)
      || (match e.2.dig.cap with
        | none => false
        | some c => (c.pending && c.startKind == 1) || c.limit == 0)
      || (bit e.2.trg.ctrl 31 && ((e.2.trg.condA e.2.trg.st).code == 0x18 || (e.2.trg.condB e.2.trg.st).code == 0x18)))

/-- A moment that waits for a system time, after a step by `d`: `next` when the step has passed it. -/
def shiftMoment (d : Int) (mono next m : Nat) : Nat :=
  let t := (m : Int) - d
  if t < mono then next else t.toNat

/-- Work that waits for a time keeps it over a step by `d`; work whose time the step passed begins at the next ECLK boundary. Spans
that arm groups measure go on. -/
def shiftWork (d : Int) (s : State) : State :=
  let f := shiftMoment d s.mono (nextCycle s 1)
  let g (t : Nat) : Nat := if t = 0 then 0 else ((t : Int) + d).toNat
  { s with
    runs := Tab.mapVals s.runs (fun _ r => if r.phase = 1 then { r with startAt := f r.startAt } else r)
    groups := Tab.mapVals s.groups (fun _ x => { x with armAt := g x.armAt, readyAt := g x.readyAt, trigAt := g x.trigAt })
    bays := Tab.mapVals s.bays (fun _ b =>
      let a := b.awg
      let c := b.dig
      { b with
        awg := { a with pend := a.pend.map (fun p => if p.timed then { p with startAt := p.startAt.map f } else p) }
        dig := { c with cap := c.cap.map (fun p => if p.pending && p.startKind == 1 then { p with startAt := p.startAt.map f } else p) } }) }

/-- The first pulse of a schedule after a time (R412, R432). -/
def pulseAfter (first period t : Nat) : Nat :=
  if t < first then first else first + ((t - first) / max period 1 + 1) * period

/-- A TPO output after a step to `t`: pulses passed over are not emitted. A single pulse passed over is gone. -/
def Tpo.afterStep (t : Nat) (x : Tpo) : Tpo :=
  if x.mode = 2 then { x with nextAt := pulseAfter x.first x.period t }
  else if x.mode = 1 ∧ x.nextAt < t then { x with mode := 0, key := none }
  else x

/-- The pending schedule of an output after a step to `t`. -/
def Tpo.pendAfter (t : Nat) (x : Tpo) : Tpo :=
  match x.pend with
  | none => x
  | some (m, at_, w, p, k) =>
    if t ≤ at_ then x
    else if m = 2 then { x with pend := some (m, pulseAfter at_ p t, w, p, k) }
    else { x with pend := none }

/-- The commands of single pulses that a step to `t` has passed over. -/
def Tpo.lostKeys (t : Nat) (x : Tpo) : List Key :=
  (if x.mode = 1 ∧ x.nextAt < t then x.key.toList else [])
    ++ (match x.pend with
      | some (1, at_, _, _, k) => if at_ < t then [k] else []
      | _ => [])

/-- A step of system time to `t` (R412): work that waits follows, TIME_STEP is raised. -/
def stepTime (t : Nat) (s : State) : State :=
  let t : Nat := t % 2 ^ 80
  let d : Int := (t : Int) - s.now.toNat
  let lost := s.tim.tpo.flatMap (fun e => e.2.lostKeys t)
  let s := shiftWork d { s with now := BitVec.ofNat 80 t }
  let s := s.updTim (fun x => { x with stepPend := false, tpo := Tab.mapVals x.tpo (fun _ o => (o.afterStep t).pendAfter t) })
  let s := endKeys lost { cls := 6, code := Code.stopped } s
  traceTime 1 0 (raise srcTimeStep 0 0 s)

/-- A step sets time that was UNSET (R416). -/
def timeSet (s : State) : State :=
  if s.tim.tq = 0 then setTq (if s.isGm && s.refSelected then 3 else 1) s else s

/-- SCLK runs for a time function (R467). -/
def runSclk (s : State) : State := s.updTim (fun t => { t with sclk := true })

/-! ## The servo (R427, R428) -/

/-- 50 ppm in 2^-60. -/
def trimLimit : Int := 57646075230342

def clip50 (v : Int) : Int := max (-trimLimit) (min trimLimit v)

/-- The trim y in 2^-40 of a value in 2^-60. -/
def trimOf (v : Int) : Int := roundAway (clip50 v) (2 ^ 20)

/-- y = -i. -/
def holdTrim (s : State) : State := s.updTim (fun t => { t with trim := if bit t.cfg 0 then 0 else trimOf (-t.integ) })

/-- A port holds the servo after a path step (R429). -/
def pathHeld (s : State) : Bool := s.tim.ports.any (fun e => bit e.2.reg 29)

/-- The servo holds y = -i: TIM_SERVO.FREEZE, a path holdover, no REFCLK. -/
def servoHeld (s : State) : Bool := bit s.tim.servo 31 || pathHeld s || !s.tim.refPresent

/-- One ordinary update with θ in 1/256 fine steps and τ in fine steps. -/
def steer (theta : Int) (tau : Nat) (s : State) : State :=
  s.updTim (fun t =>
    let x := theta * 2 ^ 52
    let i := clip50 (t.integ + roundAway x (tau * 2 ^ fld t.servo 16 4))
    { t with integ := i, trim := trimOf (-(roundAway x (tau * 2 ^ fld t.servo 20 4) + i)) })

/-- Consecutive updates inside LOCK_THR and outside UNLOCK_THR (R428). -/
def countLock (theta : Int) (s : State) : State :=
  let a := theta.natAbs
  let s := s.updTim (fun t => { t with
    locks := if a ≤ fld t.servo 0 16 * 256 then t.locks + 1 else 0
    unlocks := if fld t.servo2 16 16 * 256 < a then t.unlocks + 1 else 0 })
  if 16 ≤ s.tim.locks ∧ (s.tim.tq = 1 ∨ s.tim.tq = 2) then setTq 3 s
  else if 4 ≤ s.tim.unlocks ∧ s.tim.tq = 3 then raise srcUnlock 0 0 (setTq 2 s)
  else s

/-- A servo step by -θ is due (R427). -/
def stepDue (theta : Int) (s : State) : Bool :=
  s.tim.tq == 0 || (s.tim.tq != 3 && bit s.tim.servo 30 && decide (fld s.tim.servo2 0 16 * 1024 * 256 < theta.natAbs))

/-- One servo update (R427, R428). A step is held back while work waits for an absolute time; then the servo slews at the limit. -/
def servoUpdate (theta : Int) (tau : Nat) (s : State) : State :=
  if s.isGm || !s.sclkOn then s
  else if servoHeld s then holdTrim s
  else if stepDue theta s then
    if absoluteWork s then
      s.updTim (fun t => { t with stepPend := true, locks := 0, trim := trimOf (if 0 ≤ theta then -trimLimit else trimLimit) })
    else
      holdTrim (timeSet (stepTime ((s.now.toNat : Int) - roundAway theta 256).toNat s))
  else countLock theta (steer theta tau (s.updTim (fun t => { t with stepPend := false })))

/-! ## The reference (R414, R415) -/

/-- REFCLK is lost (R415, R416). -/
def refLost (s : State) : State :=
  if s.tim.refPresent then
    let s := s.updTim (fun t => { t with refPresent := false, refIosc := true, moving := false })
    let s := toHoldover (holdTrim s)
    let s := if s.boot.sl = 3 then setSl 2 s else s
    traceTime 3 0 (raise srcRefLoss 0 0 (digRefAbsent (tdcRefChange true s)))
  else s

/-! ## Path delay and asymmetry (R429 to R431) -/

/-- The SLAVE port (R417). -/
def slavePort (s : State) : Option Nat := (List.range 6).find? (fun n => fld (s.tport n).reg 30 2 == 2)

/-- LNK_PEER of a port. -/
def peerOf (s : State) (n : Nat) : BitVec 13 := BitVec.ofNat 13 ((s.port n).peerDev.toNat * 8 + (s.port n).peerPort.toNat)

/-- The filtered delay in 1/256 fine steps: the mean of the last 16. -/
def TPort.filtered (t : TPort) : Int := roundAway (t.delays.foldl (· + ·) 0) (max t.delays.length 1)

/-- A path step (R429). -/
def pathStep (n : Nat) (s : State) : State :=
  let s := s.updTport n (fun t => { t with
    reg := setBit t.reg 29 true, delays := t.delays.take 4, above := 0, below := 0, since := 0, loaded := none, asymSum := [] })
  traceTime 2 n (toHoldover (holdTrim (raise (srcPathStep n) 0 0 s)))

/-- A path holdover ends (R431). -/
def releasePath (n : Nat) (s : State) : State :=
  s.updTport n (fun t => { t with reg := setBit t.reg 29 false, loaded := none, asymSum := [] })

/-- An entry serves a peer and a delay (R429, R430). -/
def AsymEntry.fits (peer : BitVec 13) (delay : Int) (e : AsymEntry) : Bool :=
  e.peer == peer && decide ((e.delay - delay).natAbs ≤ 164)

/-- The place that an entry takes (R430). -/
def asymPlace (t : TPort) (peer : BitVec 13) : Nat :=
  match t.table.find? (fun e => e.2.fits peer t.pdelay) with
  | some e => e.1
  | none =>
    match (List.range 4).find? (fun i => (Tab.find t.table i).isNone) with
    | some i => i
    | none => (t.table.foldl (fun (b : Nat × Nat) e => if b.2 < e.2.age + 1 then (e.1, e.2.age + 1) else b) (0, 0)).1

/-- An asymmetry is set and stored (R430). -/
def storeAsym (n : Nat) (asym : Int) (s : State) : State :=
  let peer := peerOf s n
  s.updTport n (fun t =>
    let i := asymPlace t peer
    let older := Tab.mapVals t.table (fun _ e => { e with age := e.age + 1 })
    { t with asym := asym, table := Tab.set older i { peer := peer, delay := t.pdelay, asym := asym, age := 0 } })

/-- A path delay is taken in (R429): the filter, the steps, the search 16 measurements after a step. -/
def takeDelay (n : Nat) (d : Int) (s : State) : State :=
  let t := s.tport n
  let diff := d - t.filtered
  let far := decide (164 * 256 ≤ diff.natAbs) && !t.delays.isEmpty
  let s := s.updTport n (fun t =>
    let t := { t with
      delays := (d :: t.delays).take 16
      above := if far && decide (0 < diff) then t.above + 1 else 0
      below := if far && decide (diff < 0) then t.below + 1 else 0
      since := if bit t.reg 29 then t.since + 1 else 0 }
    { t with pdelay := roundAway t.filtered 256 })
  let t := s.tport n
  if 4 ≤ t.above ∨ 4 ≤ t.below then
    (pathStep n s).updTport n (fun t => { t with pdelay := roundAway t.filtered 256 })
  else if bit t.reg 29 ∧ t.since = 16 then
    match t.table.find? (fun e => e.2.fits (peerOf s n) t.pdelay) with
    | none => s
    | some e => s.updTport n (fun t => { t with asym := e.2.asym, loaded := some 0 })
  else s

/-- What the firmware does in a path holdover after an update (R431): `raw` is θ without the asymmetry. -/
def pathUpdate (n : Nat) (raw : Int) (s : State) : State :=
  let t := s.tport n
  if bit t.reg 29 then
    let s := s.updTport n (fun t => { t with
      loaded := t.loaded.map (· + 1)
      asymSum := match s.tim.phaseSync, s.tim.thetaS with
        | true, some v => (raw - v) :: t.asymSum
        | _, _ => t.asymSum })
    let t := s.tport n
    if 16 ≤ t.asymSum.length then
      releasePath n (storeAsym n (roundAway (t.asymSum.foldl (· + ·) 0) (16 * 256)) s)
    else if bit s.tim.ptp 0 ∧ t.loaded = some 16 then releasePath n s
    else s
  else s

/-- An exchange is complete (R423): path delay, offset, servo. -/
def takeExchange (n : Nat) (t1 t2 t3 t4 : Int) (s : State) : State :=
  let dms := t2 - t1
  let dsm := t4 - t3
  let raw := roundAway (dms - dsm) 2
  let s := takeDelay n (roundAway (dms + dsm) 2) s
  let theta := raw - (s.tport n).asym * 256
  let s := s.updTim (fun t => { t with theta := some theta, offset := roundAway theta 256 })
  let s := pathUpdate n raw s
  if s.tim.phaseSync then s else servoUpdate theta (secSteps / 2 ^ fld s.tim.ptp 4 3) s

/-! ## 1588 timestamps (R421) -/

/-- Seconds, nanoseconds and the remainder in 2^-16 ns of a full stamp. -/
def toPtp (t : Nat) : Nat × Nat × Int :=
  let r := t % secSteps
  let ns := r * 625 / 512000
  (t / secSteps, ns, roundAway ((r * 625 % 512000 : Nat) * 16) 125)

/-- A received timestamp with its correction in 1/256 fine steps. -/
def fromPtp (sec ns : Nat) (corr : Int) : Int := roundAway ((((sec * 1000000000 + ns) * 65536 : Nat) + corr) * 16) 5

end Sys2Proof.Machine
end

