-- ==== Sys2Proof/Machine/ResetOps.lean ====
section
/-!
DEFINITION. Shared operations of the warm reset and of the FATAL sequence (R453, R489, R491): what they quiet, clear and reload.
-/
namespace Sys2Proof.Machine

/-! ## Quieting the outputs (R63, R279, R293, R453 step 3) -/

/-- A pin in SAFE with PIN_EN cleared, without completions: the work that it ends is completed at replay. -/
def Pin.quiet (x : Pin) : Pin :=
  { x with
    ctrl := setBit (setBit x.ctrl 16 false) 17 true, stat := setBit (setBit x.stat 0 true) 8 false, stage := .safe, pmu := x.pmu.toOff, settling := []
    limitSince := none, released := none, pendEvents := [] }

/-- WARM_HOLD (R279). -/
def Dps.warmHold (x : Dps) : Bool := bit x.ctrl 21

/-- A controller at a warm reset: with WARM_HOLD it keeps regulating, else it ramps off. Its commands end at replay. -/
def dpsQuiet (d : Nat) (s : State) : State :=
  let s := s.updDps d (fun x => { x with cmds := [] })
  if (s.dpsOf d).warmHold then s else dpsDisable d s

/-- A privileged monitor whose trip reaches a controller with WARM_HOLD keeps running (R279). -/
def monStays (s : State) (m : Nat) : Bool :=
  privMon m && (s.mon m).en && (List.range 32).any (fun d => bit (s.mon m).trip d && (s.dpsOf d).warmHold)

/-- Every pin SAFE, DUT power and monitors as the warm-reset rows of R279, waveform sources safe. -/
def quietOutputs (s : State) : State :=
  let stay := (Tab.keys s.mons).filter (monStays s)
  let s := { s with pins := Tab.mapVals s.pins (fun _ x => x.quiet), seqs := [] }
  let s := forAll (Tab.keys s.dps) dpsQuiet s
  let s := forAll ((Tab.keys s.mons).filter (fun m => !stay.contains m)) disableMon s
  forAll (List.range 16) awgSafe s

/-! ## What a warm reset clears -/

/-- TDC and interval work of all pins is gone (R253). -/
def clearTdc (s : State) : State :=
  let s := s.caps.foldl (fun s c => dropCapture c s) s
  let s := forAll (List.range 128) (fun n s => match (s.slice n).tiv with
    | none => s
    | some t => dropInterval n t s) s
  let s := { s with
    pins := Tab.mapVals s.pins (fun _ x =>
      let t := x.tdc
      { x with tdc := { t with holder := 0, pol := 0, fifo := [], freq := none, lostPending := 0, inRound := false, checked := none } }) }
  s.updTim (fun t => { t with calActive := false })

/-- Waveform requests, digitiser work, sequencers, arm groups and bay wakes are gone (R293, R323, R324). -/
def clearBays (s : State) : State :=
  let s := forAll (List.range 16) (fun k s =>
    let s := match (s.dig k).cap with
      | none => s
      | some c => dropDigCap k c s
    let s := match (s.dig k).acq with
      | none => s
      | some a => dropAcq k a s
    seqOff k false s) s
  { s with
    bays := Tab.mapVals s.bays (fun _ b => { b with wakeReq := 0, wakeKeys := [] })
    groups := Tab.mapVals s.groups (fun _ x => { x with state := 0, known := [], holdCount := 0 }) }

/-- An engine's SR, LC, timer and call FIFO clear (R149, R489); what it executed is gone. -/
def Engine.warm (x : Engine) : Engine :=
  { x with
    sr := [], lc := [], timerEnd := 0, timerZero := false, calls := [], open? := none, peer := [], latched := 0, uf := 0, z := false
    n := false, c := false, v := false, group := false, groupEnd := false, waiting := false, waitEnd := 0, sp := false, cur := none
    partialFx := false, mustRun := false, idleOrigin := false, reload := none, save := {} }

/-- Segments, seals, buffers and reservations of the Granary (R115). -/
def clearGrn (s : State) : State :=
  s.updGrn (fun g => { g with
    slots := Tab.mapVals g.slots (fun _ x => if x.st = 3 ∨ x.st = 4 then { x with st := 2 } else x)
    seals := [], caps := g.caps.map (fun b => { b with busy := false }), rsv0 := 0, rsv1 := 0 })

/-- Pulses stop, capture FIFOs empty, waiting time commands are gone; TQ leaves LOCKED (R416, R434). -/
def clearTime (s : State) : State :=
  toHoldover (holdTrim (s.updTim (fun t => { t with
    tpo := [], tci := Tab.mapVals t.tci (fun _ x => { x with fifo := [] }), setPend := none, cal := none, stepPend := false })))

/-- The trace buffer is discarded and counted as dropped (R511). -/
def clearTrace (s : State) : State :=
  let o := s.obs
  match o.buffer with
  | [] => s
  | b :: _ =>
    let n := o.buffer.length
    count 700 n (s.updObs (fun o => { o with
      buffer := [], drop := satAdd o.drop n, dropped := o.dropped + n
      dropFirst := BitVec.ofNat 32 (rdLe b 4 4), dropStamp := BitVec.ofNat 64 (rdLe b 8 8) }))

/-- Step 1 of a warm reset (R491): queued fault entries are written, outputs go quiet, work in progress stops where it stands.
A FATAL among those entries counts towards STORM (R492). -/
def beginWarm (cause : BitVec 4) (s : State) : State :=
  let (fatal, s) := flushEntries s
  let s := if fatal then countFatal s else s
  let s := clearTrace (clearTime (clearGrn (clearBays (clearTdc (quietOutputs s)))))
  { s with
    boot := { s.boot with warmBusy := true, warmCause := if fatal then 4 else cause, switching := false, switchKey := none }
    flt := { s.flt with dumping := false, warmAfter := false }
    runs := [], starts := []
    slices := Tab.mapVals s.slices (fun _ x =>
      let w := x.win
      { x with win := { w with staged := [], fifo := [] } })
    engines := Tab.mapVals s.engines (fun _ x => x.warm) }

/-- A store is reloaded from its selected bank (R178); without a good copy the engine stays STOPPED and its unit is fenced. -/
def reloadStore (e : Nat) (s : State) : State :=
  let b := (s.eng e).bank
  match loadAttempts s b e true true with
  | some r => loadDone b e r s
  | none => loadFailed e s

/-- Sieve counts start over and the next record is marked (R457). -/
def clearSieve (s : State) : State :=
  s.updFlt (fun f => { f with
    resetFlag := true
    sources := Tab.mapVals f.sources (fun _ x => { x with c := 0, ws := 0, esc := false, hold := false }) })

/-- The service level after start or reset: SL2, SL1-time without REFCLK, SL1 before start-up calibration (R481, R487, R491). -/
def fullSl (s : State) : BitVec 2 := if s.boot.calDone then (if s.tim.refPresent then 3 else 2) else 1

/-- Every started command ends ABORTED_RESET at replay (R352, R353). -/
def abortStarted (s : State) : State :=
  (s.works.filter (fun w => w.started)).foldl (fun s w => completeBad w.key 7 Code.resetWarm 0 s) s

/-- Steps 2 to 4 of a warm reset (R491), its times taken at their upper bounds: stores reloaded, SL1, replay, full service. A FATAL's
dump is reported at SL1 (R453 step 6). -/
def finishWarm (counted : Bool) (s : State) : State :=
  let cause := s.boot.warmCause
  let s := advance (2 * usSteps) s
  let s := forAll (List.range 144) reloadStore s
  let s := setSl 1 (advance msSteps (clearSieve s))
  let s := s.updBoot (fun b => { b with
    warmBusy := false, held := false, cause := cause, warms := if counted then satInc b.warms else b.warms })
  let s := if cause = 4 ∧ bit s.flt.dump 15 then raise srcDumpDone 0 (fld s.flt.dump 16 16) s else s
  gmLock (setSl (fullSl s) (advance (5 * msSteps) (abortStarted s)))

/-- A whole warm reset. -/
def warmReset (cause : BitVec 4) (s : State) : State := finishWarm true (beginWarm cause s)

/-! ## The start of a FATAL sequence (R453, R456, R492) -/

/-- A stack takes a dump copy. -/
def dumpStacks (s : State) : List Nat := [0, 1].filter (fun j => fld s.grn.stat (2 * j) 2 == 0)

/-- With STORM a FATAL leaves the device at SL1, pins SAFE, serving commands; the work that this ends fails with it (R456). -/
def stormHalt (s : State) : State :=
  let e : EndWith := { cls := 6, code := Code.pinDisabled }
  let s := forAll (List.range 256) (fun p s => safePin true true { e with detail := p } p s) s
  let s := forAll (Tab.keys s.dps) (fun d s => dpsDisable d (endSeqOf { cls := 6, code := Code.seqTrip } d s)) s
  let s := forAll (List.range 16) (fun k s => awgOff k { cls := 6, code := Code.stopped } s) s
  setSl 1 s

/-- A FATAL record has been written from source `i`. During a dump it is only recorded; during a warm reset that restarts and counts;
with LOCK or without a usable stack no dump is written and the reset follows at once. -/
def startFatal (i : Nat) (e : FEntry) (s : State) : State :=
  if s.flt.dumping then s
  else if s.boot.warmBusy then (countFatal s).updBoot (fun b => { b with warmCause := 4 })
  else if bit s.flt.dump 13 then
    stormHalt s
  else
    let s := quietOutputs (advance (20 * usSteps) s)
    if bit s.flt.dump 14 || (dumpStacks s).isEmpty then
      (countFatal s).updBoot (fun b => { b with warmBusy := true, warmCause := 4 })
    else
      s.updFlt (fun f => { f with
        dumping := true, dumpT := e.stamp.setWidth 64, dumpEp := e.stamp.extractLsb' 64 16, dumpSrc := BitVec.ofNat 32 i
        dumpSeq := f.seq - 1 })

end Sys2Proof.Machine
end

