-- ==== Sys2Proof/Machine/Flt.lean ====
section
/-!
DEFINITION. Faults, the Sieve and the Gleaner (R437 to R458): the FLT commands (R377), register writes, the recorder, the spill ring,
alarms and FAULT_N, and the events that raise a fault of the device itself.
-/
namespace Sys2Proof.Machine

/-! ## Commands (R377) -/

/-- FLT.ACK (R450): HOLD and MAXSEV clear; a pulse in progress goes on. -/
def doFltAck (c : Cmd) (s : State) : State :=
  runCmd { op := 0xD00, scopes := 1 } c (fun _ _ => [lenCheck c 0]) (fun _ _ => [])
    (fun _ s => completeOk c.key 0 (s.updFlt (fun f => { f with
      pin := setBit f.pin 30 false, maxsev := 0, asserted := f.pulse }))) s

/-- FLT.ACK. -/
def execFltAck (c : Cmd) (s : State) : Host.Outcome State Fault Refusal := .next (doFltAck c s)

/-- The number of source IDs (R437); the rest of 512 are reserved. -/
def srcCount : Nat := 0x1F9

/-- A source's base, N or W changes: its Sieve state is reset (R439). -/
def configSource (i : Nat) (f : Source → Source) (s : State) : State :=
  s.updSource i (fun x => { f x with c := 0, ws := 0, esc := false })

/-- FLT.SOURCE (R377, R439). -/
def doFltSource (c : Cmd) (s : State) : State :=
  let i := c.u 0 2
  runCmd { op := 0xD01, scopes := 1 } c
    (fun _ _ => [lenCheck c 16, rng c 0 2 0 (srcCount - 1),
      rngIf (decide (3 < c.u 2 1) || (resetBase i == 3 && decide (c.u 2 1 < 3))) 2, rng c 4 2 1 65535, rng c 8 8 1 (2 ^ 32)])
    (fun _ _ => [])
    (fun _ s => completeOk c.key 0 (configSource i (fun x => { x with base := BitVec.ofNat 2 (c.u 2 1), n := c.u 4 2, w := c.u 8 8 }) s)) s

/-- FLT.SOURCE. -/
def execFltSource (c : Cmd) (s : State) : Host.Outcome State Fault Refusal := .next (doFltSource c s)

/-- A write of FLT_SRC_CFG or FLT_SRC_W (R439, R458). -/
def writeFltSrc (i : Nat) (second : Bool) (v : Word) (s : State) : WRes :=
  if srcCount ≤ i then .refused (rFormat Code.valueRange)
  else if second then .done (configSource i (fun x => { x with w := v.toNat + 1 }) s)
  else if fld v 0 16 = 0 then .refused (badField 0)
  else if resetBase i = 3 ∧ fld v 30 2 < 3 then .refused (badField 30)
  else .done (configSource i (fun x => { x with base := BitVec.ofNat 2 (fld v 30 2), n := fld v 0 16 }) s)

/-- FLT_SRC_CFG_WRITE. -/
def execFltSrcCfgWrite (a : Agent) (i : Fin 512) (second : Bool) (v : BitVec 32) (s : State) : Host.Outcome State Fault Refusal :=
  .next (regRow (.fltSrc i.val second) v a noReach (writeFltSrc i.val second v) s)

/-- The records that FLT.READ names, from the one named (R452): none when it names no held record. -/
def fltRecords (s : State) (snap : Bool) (first : Nat) : List FRecord :=
  if snap then (s.flt.snap.getD []).drop first
  else s.flt.gleaner.dropWhile (fun r => r.seq.toNat % 65536 != first)

/-- FLT.READ (R377, R452): W6 the number returned, W7 the SEQ of the newest Gleaner record. -/
def doFltRead (c : Cmd) (s : State) : State :=
  let snap := c.u 0 1 == 1
  runCmd { op := 0xD02, scopes := 1 } c
    (fun s _ => [lenCheck c 8, rng c 0 1 0 1,
      rngIf ((snap && decide (31 < c.u 2 2)) || (fltRecords s snap (c.u 2 2)).isEmpty) 2, rng c 4 2 1 127])
    (fun _ _ => [])
    (fun _ s =>
      let l := (fltRecords s snap (c.u 2 2)).take (c.u 4 2)
      complete c.key 0 0 0 (BitVec.ofNat 32 l.length) ((s.flt.gleaner.getLast?.map (·.seq)).getD 0) (l.flatMap FRecord.bytes) s) s

/-- FLT.READ. -/
def execFltRead (c : Cmd) (s : State) : Host.Outcome State Fault Refusal := .next (doFltRead c s)

/-- FLT.ALARMS (R377, R452). -/
def doFltAlarms (c : Cmd) (s : State) : State :=
  runCmd { op := 0xD03, scopes := 1 } c (fun _ _ => [lenCheck c 0]) (fun _ _ => [])
    (fun _ s => complete c.key 0 0 0 (s.flt.maxsev.setWidth 32) s.flt.lost (leBytes 64 (alarmMap s)) s) s

/-- FLT.ALARMS. -/
def execFltAlarms (c : Cmd) (s : State) : Host.Outcome State Fault Refusal := .next (doFltAlarms c s)

/-- Alarm bits of a mask clear (R448). -/
def clearAlarms (mask : Nat) (s : State) : State :=
  s.updFlt (fun f => { f with sources := Tab.mapVals f.sources (fun i x => { x with alarm := x.alarm && !mask.testBit i }) })

/-- FLT.ALARM_CLR (R377, R448). -/
def doFltAlarmClr (c : Cmd) (s : State) : State :=
  runCmd { op := 0xD04, scopes := 1 } c (fun _ _ => [lenCheck c 64]) (fun _ _ => [])
    (fun _ s => completeOk c.key 0 (clearAlarms (c.u 0 64) s)) s

/-- FLT.ALARM_CLR. -/
def execFltAlarmClr (c : Cmd) (s : State) : Host.Outcome State Fault Refusal := .next (doFltAlarmClr c s)

/-- FLT_ALARM_WRITE (R448, R458). -/
def execFltAlarmWrite (a : Agent) (w : Fin 16) (v : BitVec 32) (s : State) : Host.Outcome State Fault Refusal :=
  .next (regRow (.fltAlarm w.val) v a noReach (fun s => .done (clearAlarms (v.toNat * 2 ^ (32 * w.val)) s)) s)

/-- FLT.SNAP_RELEASE (R377, R447). -/
def doFltSnapRelease (c : Cmd) (s : State) : State :=
  runCmd { op := 0xD05, scopes := 1 } c (fun _ _ => [lenCheck c 0]) (fun _ _ => [])
    (fun _ s => completeOk c.key 0 (s.updFlt (fun f => { f with snap := none }))) s

/-- FLT.SNAP_RELEASE. -/
def execFltSnapRelease (c : Cmd) (s : State) : Host.Outcome State Fault Refusal := .next (doFltSnapRelease c s)

/-! ## Register writes (R458) -/

/-- A write of FLT_SPILL_HEAD (R446). -/
def writeSpillHead (v : Word) (s : State) : WRes :=
  if s.flt.size ≤ v.toNat then .refused (badField 0)
  else .done (s.updFlt (fun f => { f with head := v.toNat, unread := (f.tail + f.size - v.toNat) % f.size }))

/-- FLT_SPILL_HEAD_WRITE. -/
def execFltSpillHeadWrite (a : Agent) (v : BitVec 32) (s : State) : Host.Outcome State Fault Refusal :=
  .next (regRow (.flt 0x01C) v a noReach (writeSpillHead v) s)

/-- A write of FLT_DUMP (R456): 1 to LOCK or STORM clears it. -/
def writeFltDump (v : Word) (s : State) : WRes :=
  .done (s.updFlt (fun f => { f with dump := f.dump &&& ~~~(v &&& 0x6000#32) }))

/-- FLT_DUMP_WRITE. -/
def execFltDumpWrite (a : Agent) (v : BitVec 32) (s : State) : Host.Outcome State Fault Refusal :=
  .next (regRow (.flt 0x100) v a noReach (writeFltDump v) s)

/-- Writes of the remaining fault registers: FLT_CFG, FLT_PIN, FLT_ALARM_DST. -/
def writeFltReg (off : Nat) (v : Word) (s : State) : WRes :=
  match off with
  | 0x000 => .done (s.updFlt (fun f => { f with cfg := v &&& 0xFFFF0000#32 }))
  | 0x004 =>
    if fld v 0 14 = 0 ∨ 10000 < fld v 0 14 then .refused (badField 0)
    else .done (s.updFlt (fun f => { f with pin := (f.pin &&& 0x40000000#32) ||| (v &&& 0x38003FFF#32) }))
  | 0x008 => .done (s.updFlt (fun f => { f with dst := v &&& 0xC00003FF#32 }))
  | 0x01C => writeSpillHead v s
  | 0x100 => writeFltDump v s
  | _ => .done s

/-! ## The recorder (R442, R443) -/

/-- FAULT_RECORD_WRITE: the first eligible entry is written; a FATAL one starts its sequence (R453). -/
def doFaultRecordWrite (s : State) : State :=
  match firstOf (eligibles s) with
  | none => s
  | some (i, e) =>
    let t := writeEntry i e s
    if startsFatal i e then startFatal i e t else t

/-- FAULT_RECORD_WRITE. -/
def execFaultRecordWrite (s : State) : Host.Outcome State Fault Refusal := .next (doFaultRecordWrite s)

/-- FAULT_HOLDOFF_END (R443). -/
def doFaultHoldoffEnd (i : Nat) (s : State) : State :=
  if (s.source i).hold then (advanceMono (s.source i).holdEnd s).updSource i (fun x => { x with hold := false }) else s

/-- FAULT_HOLDOFF_END. -/
def execFaultHoldoffEnd (i : Fin 512) (s : State) : Host.Outcome State Fault Refusal := .next (doFaultHoldoffEnd i.val s)

/-! ## The spill ring (R445, R446) -/

/-- The first record not yet copied is marked copied. -/
def markCopied : List FRecord → List FRecord
  | [] => []
  | r :: l => if r.copied then r :: markCopied l else { r with copied := true } :: l

/-- SPILL_COPY: the oldest record not yet copied goes to TAIL; on a full ring the oldest unread record is lost. -/
def doSpillCopy (s : State) : State :=
  match s.flt.gleaner.find? (fun r => !r.copied) with
  | none => s
  | some r =>
    if spillReady s then
      let s := grnStore (spillAddr s s.flt.tail) r.bytes s
      s.updFlt (fun f =>
        let next := (f.tail + 1) % f.size
        let g := { f with gleaner := markCopied f.gleaner, tail := next }
        if f.unread < f.size then { g with unread := f.unread + 1 } else { g with head := next, lost := satInc f.lost })
    else s

/-- SPILL_COPY. -/
def execSpillCopy (s : State) : Host.Outcome State Fault Refusal := .next (doSpillCopy s)

/-! ## Alarms and FAULT_N (R449, R450) -/

/-- The body of an ALARM message (R449). -/
def alarmBody (s : State) : List Byte :=
  let f := s.flt
  leBytes 64 (alarmMap s) ++ leBytes 4 ((f.gleaner.getLast?.map FRecord.seq).getD 0).toNat ++ leBytes 4 f.lost.toNat ++ leBytes 1 f.maxsev.toNat
    ++ leBytes 1 (f.snap.isSome.toNat + f.asserted.toNat * 2 + (bit f.dump 15).toNat * 4) ++ leBytes 2 s.ep.toNat ++ leBytes 4 0
    ++ leBytes 8 s.stamp.toNat

/-- ALARM_SEND: after a new alarm bit, at least 10 µs from the last message; else 100 ms after it while any bit is set. -/
def doAlarmSend (s : State) : State :=
  if bit s.flt.dst 31 ∧ alarmMap s ≠ 0 ∧ s.powered then
    let wait := if s.flt.alarmNew then 10 * usSteps else 100 * msSteps
    let s := if s.flt.alarmAt = 0 then s else advanceMono (s.flt.alarmAt + wait) s
    let b := alarmBody s
    let dst := if bit s.flt.dst 30 then 0x8000 + fld s.flt.dst 0 8 else fld s.flt.dst 0 10
    originate 3 dst 0x21 0 b (emit (.alarm b) (s.updFlt (fun f => { f with alarmNew := false, alarmAt := s.mono })))
  else s

/-- ALARM_SEND. -/
def execAlarmSend (s : State) : Host.Outcome State Fault Refusal := .next (doAlarmSend s)

/-- FAULT_N_PULSE_END (R450): the pin is released unless HOLD = 1. -/
def doFaultNPulseEnd (s : State) : State :=
  if s.flt.pulse then
    (advanceMono s.flt.pulseEnd s).updFlt (fun f => { f with pulse := false, asserted := bit f.pin 30 })
  else s

/-- FAULT_N_PULSE_END. -/
def execFaultNPulseEnd (s : State) : Host.Outcome State Fault Refusal := .next (doFaultNPulseEnd s)

/-! ## Faults of the device itself (R33, R437) -/

/-- FLASH_FAIL (R33): the flash is fenced; no work is affected. -/
def doFlashFail (s : State) : State := raise srcFlash 0 0 (s.updBoot (fun b => { b with flashOk := false, flashWb := false }))

/-- FLASH_FAIL. -/
def execFlashFail (s : State) : Host.Outcome State Fault Refusal := .next (doFlashFail s)

/-- CORE_FAULT (R437): an uncorrectable core-die error, or an internal rail out of range. -/
def doCoreFault (rail : Bool) (s : State) : State := raise (if rail then srcCoreRail else srcCore) 0 0 s

/-- CORE_FAULT. -/
def execCoreFault (rail : Bool) (s : State) : Host.Outcome State Fault Refusal := .next (doCoreFault rail s)

end Sys2Proof.Machine
end

