-- ==== Sys2Proof/Machine/Tim.lean ====
section
/-!
DEFINITION. System time and synchronisation: the TIM commands (R375), pulses and captures (R432, R433), the SYNC loop (R424 to R426),
the 1588 messages (R418 to R423) and the reference (R414, R415).
-/
namespace Sys2Proof.Machine

/-! ## TIM.SET, TIM.STATUS -/

/-- TIM.SET (R375, R412): at execution, or at the next SYNC_IN edge (R426). -/
def doTimSet (c : Cmd) (s : State) : State :=
  runCmd { op := 0xB00, scopes := 1 } c
    (fun _ _ => [lenCheck c 0x18, timeRsv c 0, rng c 0x10 1 0 1])
    (fun s _ => [when? (s.tim.tq == 3) (rState Code.timeLocked)])
    (fun _ s =>
      let s := endKeys ((s.tim.setPend.map (·.1)).toList) { cls := 6, code := Code.superseded } s
      let s := s.updTim (fun t => { t with setPend := none })
      if c.u 0x10 1 = 1 then
        let s := timeSet (stepTime (c.time 0) s)
        completeOk c.key s.stamp.toNat s
      else
        s.updTim (fun t => { t with setPend := some (c.key, BitVec.ofNat 80 (c.time 0)), setUntil := s.mono + 1000000 * usSteps })) s

/-- TIM.SET. -/
def execTimSet (c : Cmd) (s : State) : Host.Outcome State Fault Refusal := .next (doTimSet c s)

/-- TIM_SET_TIMEOUT (R426): 1 s without an edge. -/
def doTimSetTimeout (s : State) : State :=
  match s.tim.setPend with
  | none => s
  | some (k, _) =>
    completeBad k 6 Code.noSignal 0 ((advanceMono s.tim.setUntil s).updTim (fun t => { t with setPend := none }))

/-- TIM_SET_TIMEOUT. -/
def execTimSetTimeout (s : State) : Host.Outcome State Fault Refusal := .next (doTimSetTimeout s)

/-- TIM.STATUS (R375): the present short stamp, DETAIL = TQ. -/
def doTimStatus (c : Cmd) (s : State) : State :=
  runCmd { op := 0xB06, scopes := 1 } c (fun _ _ => [lenCheck c 0]) (fun _ _ => [])
    (fun _ s => completeQual c.key none s.tim.tq.toNat s.stamp.toNat s) s

/-- TIM.STATUS. -/
def execTimStatus (c : Cmd) (s : State) : Host.Outcome State Fault Refusal := .next (doTimStatus c s)

/-! ## Pulses (R432) -/

/-- The first pulse of a TIM.PULSE: TIME, or the first whole second at least 20 µs on. -/
def firstPulse (s : State) (t : Nat) : Nat := if t = 0 then cdiv (s.now.toNat + leadSteps) secSteps * secSteps else t

/-- The time checks of R375: R142 without its fine-step row. -/
def pulseTime (s : State) (c : Cmd) : List (Option Reason) :=
  let t := c.time 0x10
  if t = 0 ∨ c.u 1 1 = 0 then []
  else
    [when? (s.tim.tq == 0) (rState Code.timeUnset), when? (decide (s.now.toNat + 2 ^ 48 < t)) (rFormat Code.startFar),
     when? (decide (t < s.now.toNat + leadSteps)) (rState Code.startLate)]

/-- The fields of TIM.PULSE (R375, R432). WIDTH and PERIOD are not looked at for MODE 0, PERIOD not for a single pulse. -/
def pulseFields (c : Cmd) : List (Option Reason) :=
  let m := c.u 1 1
  let p := c.u 8 8
  [lenCheck c 0x20, rng c 0 1 0 7, rng c 1 1 0 2,
   rngIf ((m == 1 && c.u 4 4 == 0) || (m == 2 && (c.u 4 4 == 0 || decide (p ≤ c.u 4 4)))) 4,
   rngIf (m == 2 && (decide (p < 1640) || decide (2 ^ 48 < p))) 8,
   timeRsv c 0x10]

/-- A new schedule on an output: at once when it is off, else it waits for its first pulse. -/
def schedulePulse (k : Key) (mode at_ width period : Nat) (x : Tpo) : Tpo :=
  if x.mode = 0 then
    { x with mode := BitVec.ofNat 2 mode, first := at_, nextAt := at_, width := width, period := period, key := some k }
  else { x with pend := some (BitVec.ofNat 2 mode, at_, width, period, k) }

/-- The commands that wait for a first pulse of an output. -/
def Tpo.pendKey (x : Tpo) : List Key := (x.pend.map (fun p => p.2.2.2.2)).toList

/-- TIM.PULSE. -/
def doTimPulse (c : Cmd) (s : State) : State :=
  runCmd { op := 0xB01, scopes := 1 } c (fun _ _ => pulseFields c) (fun s _ => pulseTime s c)
    (fun _ s =>
      let i := c.u 0 1
      let x : Tpo := Tab.get {} s.tim.tpo i
      if c.u 1 1 = 0 then
        let s := s.updTim (fun t => { t with tpo := Tab.upd {} t.tpo i (fun x => { x with mode := 0, key := none, pend := none }) })
        completeOk c.key 0 (endKeys (x.key.toList ++ x.pendKey) { cls := 6, code := Code.stopped } s)
      else
        let s := endKeys x.pendKey { cls := 6, code := Code.superseded } s
        runSclk (s.updTim (fun t => { t with
          tpo := Tab.upd {} t.tpo i (schedulePulse c.key (c.u 1 1) (firstPulse s (c.time 0x10)) (c.u 4 4) (c.u 8 8)) }))) s

/-- TIM.PULSE. -/
def execTimPulse (c : Cmd) (s : State) : Host.Outcome State Fault Refusal := .next (doTimPulse c s)

/-- The pending schedule takes the output when its first pulse comes no later than the running schedule's next, or that has ended:
the output, and the command whose first pulse never came. -/
def Tpo.takeOver (x : Tpo) : Tpo × List Key :=
  match x.pend with
  | none => (x, [])
  | some (m, t, w, p, k) =>
    if x.mode = 0 ∨ t ≤ x.nextAt then
      ({ mode := m, first := t, nextAt := t, width := w, period := p, key := some k, pend := none }, x.key.toList)
    else (x, [])

/-- After a pulse: the next one of a periodic schedule, or the end of a single one. -/
def Tpo.afterPulse (x : Tpo) : Tpo :=
  if x.mode = 2 then { x with nextAt := x.nextAt + x.period, key := none } else { x with mode := 0, key := none }

/-- TPO_PULSE (R432): the next pulse of an output rises; the command completes at its first one. -/
def doTpoPulse (i : Nat) (s : State) : State :=
  let r := (Tab.get ({} : Tpo) s.tim.tpo i).takeOver
  let x := r.1
  if x.mode = 0 then s
  else
    let s := endKeys r.2 { cls := 6, code := Code.superseded } s
    let s := advanceTo x.nextAt s
    let s := emit (.tpo i (BitVec.ofNat 80 x.nextAt) x.width)
      (s.updTim (fun t => { t with tpo := Tab.set t.tpo i x.afterPulse.takeOver.1 }))
    match x.key with
    | none => s
    | some k => completeOk k (x.nextAt % 2 ^ 64) s

/-- TPO_PULSE. -/
def execTpoPulse (i : Fin 8) (s : State) : Host.Outcome State Fault Refusal := .next (doTpoPulse i.val s)

/-! ## Captures (R433) -/

def updTci (i : Nat) (f : Tci → Tci) (s : State) : State := s.updTim (fun t => { t with tci := Tab.upd {} t.tci i f })

/-- TIM.TCI (R375). -/
def doTimTci (c : Cmd) (s : State) : State :=
  runCmd { op := 0xB02, scopes := 1 } c (fun _ _ => [lenCheck c 8, rng c 0 1 0 3, rng c 1 1 0 3]) (fun _ _ => [])
    (fun _ s =>
      let s := updTci (c.u 0 1) (fun x => { x with cfg := setFld x.cfg 0 2 (c.u 1 1) }) s
      completeOk c.key 0 (if c.u 1 1 = 0 then s else runSclk s)) s

/-- TIM.TCI. -/
def execTimTci (c : Cmd) (s : State) : Host.Outcome State Fault Refusal := .next (doTimTci c s)

/-- A stamp arrives at a capture's FIFO. -/
def Tci.put (t : Full) (m : Nat) (x : Tci) : Tci :=
  if x.fifo.length < 16 then { x with last := some m, fifo := x.fifo ++ [t] }
  else { x with last := some m, ovf := true, lost := if x.lost = 0xFF#8 then x.lost else x.lost + 1 }

/-- TCI_EDGE (R433): an enabled edge outside the 5 ns dead time; it pulses every trigger sequencer (R305). -/
def doTciEdge (i : Nat) (rise : Bool) (t : Full) (s : State) : State :=
  let s := advanceTo t.toNat s
  let x : Tci := Tab.get {} s.tim.tci i
  let dead := match x.last with
    | none => false
    | some m => decide (s.mono < m + tdcDeadSteps)
  if !bit x.cfg (if rise then 0 else 1) || dead || !s.sclkOn then s
  else forAll (List.range 16) (fun k => pushPulse k (0x0E + i) 8 t) (updTci i (Tci.put t s.mono) s)

/-- TCI_EDGE. -/
def execTciEdge (i : Fin 4) (rise : Bool) (t : BitVec 80) (s : State) : Host.Outcome State Fault Refusal :=
  .next (doTciEdge i.val rise t s)

/-- A read of TIM_TCI_LO (R433): the oldest entry goes; its upper word and EP are latched. An empty FIFO leaves the latch. -/
def popTci (i : Nat) (s : State) : Word × State :=
  match (Tab.get ({} : Tci) s.tim.tci i).fifo with
  | [] => (0, s)
  | t :: l => (t.setWidth 32, updTci i (fun x => { x with fifo := l, latch := t }) s)

/-! ## The SYNC loop (R424 to R426) -/

/-- TIM_SYNC.MODE bits and PERIOD in fine steps. -/
def isSource (s : State) : Bool := bit s.tim.sync 30
def isSink (s : State) : Bool := bit s.tim.sync 31
def syncPeriod (s : State) : Nat := fld s.tim.sync 0 16 * usSteps

/-- SYNC_OUT_PULSE (R424): SOURCE while TQ is LOCKED, at the next whole multiple of PERIOD. -/
def doSyncOutPulse (s : State) : State :=
  let p := syncPeriod s
  if isSource s ∧ s.tim.tq = 3 ∧ p ≠ 0 then
    let s := advanceTo ((s.now.toNat / p + 1) * p) s
    emit (.syncOut s.now) (s.updTim (fun t => { t with cal := t.cal.map (fun c => { c with out := true }) }))
  else s

/-- SYNC_OUT_PULSE. -/
def execSyncOutPulse (s : State) : Host.Outcome State Fault Refusal := .next (doSyncOutPulse s)

/-- TIM.SYNC_CAL (R375, R425): the measurement begins, or waits for the one that runs. -/
def doTimSyncCal (c : Cmd) (s : State) : State :=
  runCmd { op := 0xB03, scopes := 1 } c (fun _ _ => [lenCheck c 0]) (fun _ _ => [])
    (fun _ s => runSclk (s.updTim (fun t => { t with
      cal := match t.cal with
        | none => some { key := c.key }
        | some x => some { x with waiting := x.waiting ++ [c.key] } }))) s

/-- TIM.SYNC_CAL. -/
def execTimSyncCal (c : Cmd) (s : State) : Host.Outcome State Fault Refusal := .next (doTimSyncCal c s)

/-- One return, or one missing. -/
def SyncCal.take (rt : Option Int) (x : SyncCal) : SyncCal :=
  match rt with
  | none => { x with seen := x.seen + 1, missing := x.missing + 1, out := false }
  | some v => { x with seen := x.seen + 1, sum := x.sum + v, out := false }

/-- The 64th return ends the measurement (R425). -/
def endSyncCal (s : State) : State :=
  match s.tim.cal with
  | none => s
  | some x =>
    if x.seen < 64 then s
    else
      let mean := if x.missing = 64 then 0 else roundAway x.sum (64 - x.missing)
      let s := s.updTim (fun t => { t with
        syncRt := BitVec.ofNat 32 (ofSigned 32 mean)
        cal := match x.waiting with
          | [] => none
          | k :: l => some { key := k, waiting := l } })
      completeQual x.key (if 8 < x.missing then some Code.noSignal else none) 0 (ofSigned 64 mean) s

/-- SYNC_RET_EDGE (R425): the return of a pulse, or none within 1 µs; outside SOURCE mode the measurement's own pulse goes before it,
10 µs apart. -/
def doSyncRetEdge (rt : Option Int) (s : State) : State :=
  match s.tim.cal with
  | none => s
  | some x =>
    if isSource s && !x.out then s
    else
      let seen := match rt with
        | none => none
        | some v => if 0 ≤ v ∧ v ≤ (usSteps : Int) then some v else none
      let s := if isSource s then s
        else let s := advance (if x.seen = 0 then 0 else 9 * usSteps) s
             emit (.syncOut s.now) s
      endSyncCal ((advance usSteps s).updTim (fun t => { t with cal := some (x.take seen) }))

/-- SYNC_RET_EDGE. -/
def execSyncRetEdge (rt : Option Int) (s : State) : Host.Outcome State Fault Refusal := .next (doSyncRetEdge rt s)

/-- θs of an edge in fine steps (R426). -/
def syncOffset (s : State) (t : Nat) : Int :=
  let x := (t : Int) - s.tim.syncDly
  let p := max (syncPeriod s) 1
  x - roundDiv x p * p

/-- A SYNC_IN edge in a SINK (R426): it sets time for a waiting TIM.SET; a stray one is counted; a valid one steers. -/
def takeSyncEdge (t : Nat) (s : State) : State :=
  match s.tim.setPend with
  | some (k, v) =>
    let s := s.updTim (fun x => { x with setPend := none })
    let s := timeSet (stepTime ((v.toNat : Int) + s.tim.syncDly + ((s.now.toNat : Int) - t)).toNat s)
    completeOk k s.stamp.toNat s
  | none =>
    let o := syncOffset s t
    if usSteps < o.natAbs then s.updTim (fun x => { x with stray := satInc x.stray })
    else
      let o := o * 256
      match s.tim.theta with
      | none => s
      | some v =>
        if (o - v).natAbs * 4 ≤ syncPeriod s * 256 then
          let s := s.updTim (fun x => { x with phaseSync := true, thetaS := some o, syncAt := some s.mono })
          servoUpdate o (syncPeriod s) s
        else s

/-- SYNC_IN_EDGE. -/
def doSyncInEdge (t : Full) (s : State) : State :=
  if isSink s && s.sclkOn then takeSyncEdge t.toNat (advanceTo t.toNat s) else s

/-- SYNC_IN_EDGE. -/
def execSyncInEdge (t : BitVec 80) (s : State) : Host.Outcome State Fault Refusal := .next (doSyncInEdge t s)

/-- SYNC_MISS (R426): four periods without a valid edge; raised once until the next valid edge. -/
def doSyncMiss (s : State) : State :=
  match s.tim.syncAt with
  | none => s
  | some m =>
    if isSink s then
      raise srcSyncMiss 0 0 ((advanceMono (m + 4 * syncPeriod s) s).updTim (fun t => { t with phaseSync := false, syncAt := none }))
    else s

/-- SYNC_MISS. -/
def execSyncMiss (s : State) : Host.Outcome State Fault Refusal := .next (doSyncMiss s)

/-! ## Asymmetry (R430, R431) -/

/-- TIM.RELEASE (R375, R431). -/
def doTimRelease (c : Cmd) (s : State) : State :=
  runCmd { op := 0xB04, scopes := 1 } c (fun _ _ => [lenCheck c 8, rng c 0 1 0 5])
    (fun s _ => [when? (!bit (s.tport (c.u 0 1)).reg 29) (rState Code.notHoldover)])
    (fun _ s => completeOk c.key 0 (releasePath (c.u 0 1) s)) s

/-- TIM.RELEASE. -/
def execTimRelease (c : Cmd) (s : State) : Host.Outcome State Fault Refusal := .next (doTimRelease c s)

/-- TIM.ASYM (R375, R430); ASYM must fit TIM_ASYM. -/
def doTimAsym (c : Cmd) (s : State) : State :=
  runCmd { op := 0xB05, scopes := 1 } c
    (fun _ _ => [lenCheck c 16, rng c 0 1 0 5, rngS c 8 8 (-2147483648) 2147483647]) (fun _ _ => [])
    (fun _ s => completeOk c.key 0 (storeAsym (c.u 0 1) (c.i 8 8) s)) s

/-- TIM.ASYM. -/
def execTimAsym (c : Cmd) (s : State) : Host.Outcome State Fault Refusal := .next (doTimAsym c s)

/-! ## Register writes (R436) -/

/-- A write of TIM_REF (R414): a change is a loss of the old source; its return is an event of its own. -/
def writeTimRef (v : Word) (s : State) : WRes :=
  if fld v 0 3 = 7 then .refused (badField 0)
  else if fld v 0 3 = fld s.tim.ref 0 3 then .done s
  else .done ((refLost s).updTim (fun t => { t with ref := v &&& 7#32 }))

/-- TIM_REF_WRITE. -/
def execTimRefWrite (a : Agent) (v : BitVec 32) (s : State) : Host.Outcome State Fault Refusal :=
  .next (regRow (.tim 0x008) v a noReach (writeTimRef v) s)

/-- A write of TIM_PORT (R417): at most one SLAVE, none on a grandmaster. -/
def writeTimPort (n : Nat) (v : Word) (s : State) : WRes :=
  let other := match slavePort s with
    | none => false
    | some m => m != n
  if fld v 30 2 = 2 ∧ (other || s.isGm) then .refused (badField 30)
  else .done (s.updTport n (fun t => { t with
    reg := setFld t.reg 30 2 (fld v 30 2)
    syncs := if fld v 30 2 = 2 then t.syncs else [], dreqs := if fld v 30 2 = 2 then t.dreqs else []
    tsq := if fld v 30 2 = 2 then t.tsq else [] }))

/-- TIM_PORT_WRITE. -/
def execTimPortWrite (a : Agent) (n : Fin 6) (v : BitVec 32) (s : State) : Host.Outcome State Fault Refusal :=
  .next (regRow (.tport n.val 0) v a noReach (writeTimPort n.val v) s)

/-- A write of TIM_SYNC (R424, R436). -/
def writeTimSync (v : Word) (s : State) : WRes :=
  if fld v 0 16 < 100 then .refused (badField 0)
  else
    let s := s.updTim (fun t => { t with
      sync := v &&& 0xC000FFFF#32
      phaseSync := bit v 31 && t.phaseSync, syncAt := if bit v 31 then t.syncAt.or (some s.mono) else none
      cal := t.cal.map (fun c => { c with out := c.out && bit v 30 }) })
    .done (if fld v 30 2 = 0 then s else runSclk s)

/-- Writes of the remaining registers of the time block (R257, R436). -/
def writeTimReg (off : Nat) (v : Word) (s : State) : WRes :=
  match off with
  | 0x004 =>
    if bit v 0 && (slavePort s).isSome then .refused (badField 0)
    else .done (gmLock (s.updTim (fun t => { t with cfg := v &&& 1#32, trim := if bit v 0 then 0 else t.trim })))
  | 0x008 => writeTimRef v s
  | 0x018 =>
    let s := s.updTim (fun t => { t with servo := v &&& 0xC0FFFFFF#32 })
    .done (if bit v 31 then toHoldover (holdTrim s) else s)
  | 0x01C => if fld v 0 16 = 0 then .refused (badField 0) else .done (s.updTim (fun t => { t with servo2 := v }))
  | 0x028 => .done (s.updTim (fun t => { t with ptp := v &&& 0x007F0771#32 }))
  | 0x02C => writeTimSync v s
  | 0x030 => .done (s.updTim (fun t => { t with syncDly := toSigned 32 v.toNat }))
  | _ => .done s

/-- Writes of a port's registers: TIM_PORT, TIM_ASYM, TIM_TSQ_STAT.OVF. -/
def writeTportReg (n off : Nat) (v : Word) (s : State) : WRes :=
  match off with
  | 0x00 => writeTimPort n v s
  | 0x08 => .done (s.updTport n (fun t => { t with asym := toSigned 32 v.toNat }))
  | 0x0C => .done (s.updTport n (fun t => { t with ovf := t.ovf && !bit v 15 }))
  | _ => .done s

/-- Writes of a capture input's registers: TIM_TCI_CFG, TIM_TCI_STAT.OVF. -/
def writeTciReg (i off : Nat) (v : Word) (s : State) : WRes :=
  match off with
  | 0x0 =>
    let s := updTci i (fun x => { x with cfg := v &&& 3#32 }) s
    .done (if fld v 0 2 = 0 then s else runSclk s)
  | 0x4 => .done (updTci i (fun x => { x with ovf := x.ovf && !bit v 5 }) s)
  | _ => .done s

/-- A write of the calibration registers (R257): TDC_CAL.PERIOD 1 to 3,600 s. -/
def writeCalReg (off : Nat) (v : Word) (s : State) : WRes :=
  if off = 0 then
    if fld v 0 16 = 0 ∨ 3600 < fld v 0 16 then .refused (badField 0)
    else .done (s.updTim (fun t => { t with calPeriod := v &&& 0xFFFF#32 }))
  else .done s

/-! ## 1588 messages (R418 to R423) -/

/-- TIM_PORT.STATE. -/
def portState (s : State) (n : Nat) : Nat := fld (s.tport n).reg 30 2

/-- A port exchanges messages while its link is ACTIVE or in low-power idle (R417). -/
def ptpUp (s : State) (n : Nat) : Bool := (s.port n).up && s.serving

/-- An entry joins a port's transmit-timestamp queue (R422): whether it was kept. -/
def tsqPut (n : Nat) (e : TsqEntry) (s : State) : Bool × State :=
  let t := s.tport n
  if t.tsq.length < 16 then (true, s.updTport n (fun t => { t with tsq := t.tsq ++ [e] }))
  else
    (false, raise (srcTsqOvf n) 0 0 (s.updTport n (fun t => { t with
      ovf := true, lost := satInc t.lost, lostId := if t.ovf then t.lostId else e.id })))

/-- The firmware takes an entry. -/
def tsqTake (n : Nat) (kind : BitVec 4) (id : BitVec 16) (s : State) : State :=
  s.updTport n (fun t => { t with tsq := t.tsq.filter (fun e => !(e.kind == kind && e.id == id)) })

/-- clockIdentity of a device (R418). -/
def clockId (dev : Nat) : Nat := 0x564C5A5700000000 + dev

/-- The bytes of a number, most significant first. -/
def beBytes (n v : Nat) : List Byte := (leBytes n v).reverse

/-- The 34 header bytes of a 1588 message, laid out as IEEE 1588-2019 does (R419). PRESUMED, log entry 23. -/
def ptpHeader (s : State) (n kind len : Nat) (twoStep : Bool) (corr : Int) (seqId control : Nat) (interval : Int) : List Byte :=
  beBytes 1 kind ++ beBytes 1 0x12 ++ beBytes 2 len ++ beBytes 1 (fld s.tim.ptp 16 7) ++ beBytes 1 0
    ++ beBytes 2 (if twoStep then 0x0200 else 0) ++ beBytes 8 (ofSigned 64 corr) ++ beBytes 4 0 ++ beBytes 8 (clockId s.devid.toNat)
    ++ beBytes 2 (n + 1) ++ beBytes 2 seqId ++ beBytes 1 control ++ beBytes 1 (ofSigned 8 interval)

/-- Seconds and nanoseconds of a timestamp field. -/
def ptpStamp (sec ns : Nat) : List Byte := beBytes 6 sec ++ beBytes 4 ns

/-- A 1588 message leaves on its port, to that port's peer (R419). -/
def sendPtp (n : Nat) (body : List Byte) (o : Out) (s : State) : State :=
  sendPort n 3 (messageBytes (s.port n).peerDev.toNat s.devid.toNat 0x20 (s.port n).ttl 0 body) (emit o s)

/-- A port about to send wakes from low-power idle; SCLK runs (R406, R467). -/
def ptpWake (n : Nat) (s : State) : State := runSclk (wakePort n s)

/-- Intervals of Sync and Delay_Req as logMessageInterval (R418). -/
def syncInterval (s : State) : Int := -(fld s.tim.ptp 8 3 : Int)
def dreqInterval (s : State) : Int := -(fld s.tim.ptp 4 3 : Int)

/-- PTP_SYNC_SEND (R418, R420, R422): Sync, its transmit stamp, then Follow_Up unless the stamp was lost or is of a replay. -/
def doPtpSyncSend (n : Nat) (t : Full) (replayed : Bool) (s : State) : State :=
  if portState s n = 1 ∧ ptpUp s n then
    let s := advanceTo t.toNat (ptpWake n s)
    let id := (s.tport n).syncSeq
    let s := s.updTport n (fun x => { x with syncSeq := x.syncSeq + 1 })
    let s := sendPtp n (ptpHeader s n 0 44 true 0 id.toNat 0 (syncInterval s) ++ ptpStamp 0 0) (.ptp n 0 id 0 0 0) s
    let (kept, s) := tsqPut n { id := id, kind := 0, t := t, replayed := replayed } s
    if !kept then s
    else
      let s := tsqTake n 0 id s
      if replayed then s
      else
        let (sec, ns, corr) := toPtp t.toNat
        sendPtp n (ptpHeader s n 8 44 false corr id.toNat 2 (syncInterval s) ++ ptpStamp sec ns) (.ptp n 1 id sec ns corr) s
  else s

/-- PTP_SYNC_SEND. -/
def execPtpSyncSend (n : Fin 6) (t : BitVec 80) (replayed : Bool) (s : State) : Host.Outcome State Fault Refusal :=
  .next (doPtpSyncSend n.val t replayed s)

/-- PTP_DELAY_REQ_SEND (R418, R420, R422, R423). -/
def doPtpDelayReqSend (n : Nat) (t : Full) (replayed : Bool) (s : State) : State :=
  if portState s n = 2 ∧ ptpUp s n then
    let s := advanceTo t.toNat (ptpWake n s)
    let id := (s.tport n).dreqSeq
    let s := s.updTport n (fun x => { x with dreqSeq := x.dreqSeq + 1 })
    let s := sendPtp n (ptpHeader s n 1 44 false 0 id.toNat 1 (dreqInterval s) ++ ptpStamp 0 0) (.ptp n 2 id 0 0 0) s
    let (kept, s) := tsqPut n { id := id, kind := 1, t := t, replayed := replayed } s
    s.updTport n (fun x => { x with dreqs := x.dreqs ++ [{
      id := id, t3 := if replayed || !kept then none else some (t.toNat * 256), sync := x.syncs.head?, at_ := s.mono }] })
  else s

/-- PTP_DELAY_REQ_SEND. -/
def execPtpDelayReqSend (n : Fin 6) (t : BitVec 80) (replayed : Bool) (s : State) : Host.Outcome State Fault Refusal :=
  .next (doPtpDelayReqSend n.val t replayed s)

/-- The quality fields that an Announce carries (R418): a grandmaster's own, else those of the SLAVE port's last Announce. -/
def announceQuality (s : State) : Option PtpQuality :=
  if s.isGm then some { identity := BitVec.ofNat 64 (clockId s.devid.toNat) }
  else (slavePort s).bind (fun p => (s.tport p).announce.map (fun m => { m.quality with steps := m.quality.steps + 1 }))

/-- PTP_ANNOUNCE_SEND (R418). -/
def doPtpAnnounceSend (n : Nat) (s : State) : State :=
  if portState s n = 1 ∧ ptpUp s n then
    match announceQuality s with
    | none => s
    | some q =>
      let s := ptpWake n s
      let id := (s.tport n).annSeq
      let s := s.updTport n (fun x => { x with annSeq := x.annSeq + 1 })
      sendPtp n (ptpHeader s n 11 64 false 0 id.toNat 5 0 ++ ptpStamp 0 0 ++ beBytes 2 0 ++ beBytes 1 0
        ++ beBytes 1 q.priority1.toNat ++ beBytes 1 q.clockClass.toNat ++ beBytes 1 q.clockAccuracy.toNat ++ beBytes 2 q.variance.toNat
        ++ beBytes 1 q.priority2.toNat ++ beBytes 8 q.identity.toNat ++ beBytes 2 q.steps.toNat ++ beBytes 1 0xA0)
        (.announce n id q) s
  else s

/-- PTP_ANNOUNCE_SEND. -/
def execPtpAnnounceSend (n : Fin 6) (s : State) : Host.Outcome State Fault Refusal := .next (doPtpAnnounceSend n.val s)

/-- A received message is one of the profile (R418). -/
def ptpGood (s : State) (n : Nat) (m : PtpMsg) : Bool :=
  m.version == 2 && m.domain.toNat == fld s.tim.ptp 16 7 && m.srcDev == (s.port n).peerDev

/-- A message that the profile discards is counted; another has its effect. A DISABLED port exchanges none. -/
def ptpReceive (n : Nat) (m : PtpMsg) (f : State → State) (s : State) : State :=
  if portState s n = 0 ∨ ptpUp s n = false then s
  else if ptpGood s n m then f s
  else s.updTport n (fun t => { t with bad := satInc t.bad })

/-- A Sync's t1 is known. -/
def setT1 (n : Nat) (id : BitVec 16) (f : PtpSync → PtpSync) (s : State) : State :=
  let g (x : PtpSync) : PtpSync := if x.id = id ∧ x.t1.isNone then f x else x
  s.updTport n (fun t => { t with
    syncs := t.syncs.map g, dreqs := t.dreqs.map (fun r => { r with sync := r.sync.map g }) })

/-- PTP_SYNC_RECEIVE (R418, R420): one-step or two-step. -/
def doPtpSyncReceive (n : Nat) (m : PtpMsg) (t : Full) (s : State) : State :=
  ptpReceive n m (fun s =>
    let s := advanceTo t.toNat s
    if portState s n = 2 then
      let x : PtpSync := { id := m.seqId, t2 := t.toNat * 256, corr := m.corr, at_ := s.mono
                           t1 := if m.twoStep then none else some (fromPtp m.sec.toNat m.ns.toNat m.corr) }
      s.updTport n (fun t => { t with syncs := x :: t.syncs.filter (fun y => y.t1.isNone) })
    else s) s

/-- PTP_SYNC_RECEIVE. -/
def execPtpSyncReceive (n : Fin 6) (m : PtpMsg) (t : BitVec 80) (s : State) : Host.Outcome State Fault Refusal :=
  .next (doPtpSyncReceive n.val m t s)

/-- PTP_FOLLOW_UP_RECEIVE (R418): matched to its Sync by sequenceId within 100 ms. -/
def doPtpFollowUpReceive (n : Nat) (m : PtpMsg) (s : State) : State :=
  ptpReceive n m (fun s =>
    setT1 n m.seqId (fun x =>
      if s.mono ≤ x.at_ + 100000 * usSteps then { x with t1 := some (fromPtp m.sec.toNat m.ns.toNat (m.corr + x.corr)) } else x) s) s

/-- PTP_FOLLOW_UP_RECEIVE. -/
def execPtpFollowUpReceive (n : Fin 6) (m : PtpMsg) (s : State) : Host.Outcome State Fault Refusal :=
  .next (doPtpFollowUpReceive n.val m s)

/-- PTP_DELAY_REQ_RECEIVE (R418, R421): a MASTER port answers with the stamp of receipt. -/
def doPtpDelayReqReceive (n : Nat) (m : PtpMsg) (t : Full) (s : State) : State :=
  ptpReceive n m (fun s =>
    let s := advanceTo t.toNat s
    if portState s n = 1 then
      let (sec, ns, corr) := toPtp t.toNat
      let s := ptpWake n s
      sendPtp n (ptpHeader s n 9 54 false (corr + m.corr) m.seqId.toNat 3 (dreqInterval s) ++ ptpStamp sec ns
        ++ beBytes 8 (clockId m.srcDev.toNat) ++ beBytes 2 ((s.port n).peerPort.toNat + 1)) (.ptp n 3 m.seqId sec ns (corr + m.corr)) s
    else s) s

/-- PTP_DELAY_REQ_RECEIVE. -/
def execPtpDelayReqReceive (n : Fin 6) (m : PtpMsg) (t : BitVec 80) (s : State) : Host.Outcome State Fault Refusal :=
  .next (doPtpDelayReqReceive n.val m t s)

/-- PTP_DELAY_RESP_RECEIVE (R418, R423): the exchange is complete when its Sync, its stamp and this response are known. -/
def doPtpDelayRespReceive (n : Nat) (m : PtpMsg) (s : State) : State :=
  ptpReceive n m (fun s =>
    match (s.tport n).dreqs.find? (fun r => r.id == m.seqId) with
    | none => s
    | some r =>
      if portState s n = 2 ∧ m.forMe ∧ s.mono ≤ r.at_ + 100000 * usSteps then
        let s := tsqTake n 1 r.id (s.updTport n (fun t => { t with dreqs := t.dreqs.erase r }))
        match r.sync with
        | none => s
        | some y =>
          match y.t1, r.t3 with
          | some t1, some t3 => takeExchange n t1 y.t2 t3 (fromPtp m.sec.toNat m.ns.toNat m.corr) s
          | _, _ => s
      else s) s

/-- PTP_DELAY_RESP_RECEIVE. -/
def execPtpDelayRespReceive (n : Fin 6) (m : PtpMsg) (s : State) : Host.Outcome State Fault Refusal :=
  .next (doPtpDelayRespReceive n.val m s)

/-- PTP_ANNOUNCE_RECEIVE (R418): recorded. -/
def doPtpAnnounceReceive (n : Nat) (m : PtpMsg) (s : State) : State :=
  ptpReceive n m (fun s => s.updTport n (fun t => { t with announce := some m })) s

/-- PTP_ANNOUNCE_RECEIVE. -/
def execPtpAnnounceReceive (n : Fin 6) (m : PtpMsg) (s : State) : Host.Outcome State Fault Refusal :=
  .next (doPtpAnnounceReceive n.val m s)

/-- The earliest moment at which something of a port stays unmatched. -/
def matchEnd (t : TPort) : Option Nat :=
  leastOf (((t.syncs.filter (fun x => x.t1.isNone)).map (·.at_)) ++ t.dreqs.map (·.at_))

/-- PTP_MATCH_TIMEOUT (R418): 100 ms after the earliest unmatched Sync or Delay_Req it is discarded. -/
def doPtpMatchTimeout (n : Nat) (s : State) : State :=
  match matchEnd (s.tport n) with
  | none => s
  | some m =>
    let s := advanceMono (m + 100000 * usSteps) s
    let old (at_ : Nat) : Bool := decide (at_ + 100000 * usSteps ≤ s.mono)
    let gone := (s.tport n).dreqs.filter (fun r => old r.at_)
    let s := gone.foldl (fun s r => tsqTake n 1 r.id s) s
    s.updTport n (fun t => { t with
      syncs := t.syncs.filter (fun x => x.t1.isSome || !old x.at_), dreqs := t.dreqs.filter (fun r => !old r.at_) })

/-- PTP_MATCH_TIMEOUT. -/
def execPtpMatchTimeout (n : Fin 6) (s : State) : Host.Outcome State Fault Refusal := .next (doPtpMatchTimeout n.val s)

/-! ## The reference (R414, R415, R487) -/

/-- REF_LOSS. -/
def execRefLoss (s : State) : Host.Outcome State Fault Refusal := .next (refLost s)

/-- REF_RETURN (R414, R415): the source is back; the PLL begins its move. -/
def doRefReturn (s : State) : State :=
  if s.tim.refPresent then s
  else
    let n := fld s.tim.ref 0 3
    let s := s.updTim (fun t => { t with refPresent := true, moving := true })
    let s := if n = 0 then s else s.updPort (n - 1) (fun p => { p with fckIn := true })
    traceTime 4 0 (tdcRefChange false s)

/-- REF_RETURN. -/
def execRefReturn (s : State) : Host.Outcome State Fault Refusal := .next (doRefReturn s)

/-- REF_MOVE_DONE (R415, R487): the PLL is on REFCLK; SL2 returns; a grandmaster locks. -/
def doRefMoveDone (s : State) : State :=
  if s.tim.moving then
    let s := s.updTim (fun t => { t with moving := false, refIosc := false })
    gmLock (if s.boot.sl = 2 then setSl 3 s else s)
  else s

/-- REF_MOVE_DONE. -/
def execRefMoveDone (s : State) : Host.Outcome State Fault Refusal := .next (doRefMoveDone s)

/-- EPOCH_WRAP (R11): the short stamp passes 2^64 fine steps and EP increments. -/
def doEpochWrap (s : State) : State := advanceTo ((s.now.toNat / 2 ^ 64 + 1) * 2 ^ 64) s

/-- EPOCH_WRAP. -/
def execEpochWrap (s : State) : Host.Outcome State Fault Refusal := .next (doEpochWrap s)

end Sys2Proof.Machine
end

