-- ==== Sys2Proof/Machine/Lnk.lean ====
section
/-!
DEFINITION. Obros fabric ports (R380 to R410): the LNK commands (R376), training, codewords, flits and messages, replay, adaptation,
low-power idle and forwarded clocks.
-/
namespace Sys2Proof.Machine

/-! ## Commands (R376) -/

/-- PORT_SELF: the port on which the command arrived (R376). -/
def portSelf (c : Cmd) (b : Bool) : Option Reason := when? (b && c.src.toNat == c.u 0 1) (rState Code.portSelf)

/-- The fence row of R361 for a port. -/
def portFenceCheck (s : State) (n : Nat) : Option Reason := when? (portFenced s n) (rFault Code.fenced n)

/-- LNK.TRAIN (R376, R391, R402): complete once the training has begun; a retrain in place interrupts nothing. -/
def doLnkTrain (c : Cmd) (s : State) : State :=
  runCmd { op := 0xC00, scopes := 1 } c (fun _ _ => [lenCheck c 8, rng c 0 1 0 5, rng c 1 1 0 1])
    (fun _ _ => [portSelf c (c.u 1 1 == 0)])
    (fun _ s => completeOk c.key 0 (if c.u 1 1 = 0 then startTraining (c.u 0 1) s else s)) s

/-- LNK.TRAIN. -/
def execLnkTrain (c : Cmd) (s : State) : Host.Outcome State Fault Refusal := .next (doLnkTrain c s)

/-- LNK.PORT (R376, R406). -/
def doLnkPort (c : Cmd) (s : State) : State :=
  runCmd { op := 0xC01, scopes := 1 } c (fun _ _ => [lenCheck c 8, rng c 0 1 0 5, rng c 1 1 0 2])
    (fun s _ => [portFenceCheck s (c.u 0 1), portSelf c (c.u 1 1 == 0)])
    (fun _ s => completeOk c.key 0 (setPstate (c.u 0 1) (c.u 1 1) s)) s

/-- LNK.PORT. -/
def execLnkPort (c : Cmd) (s : State) : Host.Outcome State Fault Refusal := .next (doLnkPort c s)

/-- A routing entry is one (R376): ports 0 to 5 or 7, bits [7:6] 0. -/
def routeOk (v : Nat) : Bool := decide (v < 64) && v % 8 != 6 && v / 8 != 6

/-- LNK.ROUTE (R376, R403). -/
def doLnkRoute (c : Cmd) (s : State) : State :=
  runCmd { op := 0xC02, scopes := 1 } c
    (fun _ _ => [lenCheck c (8 + cdiv (c.u 2 2) 8 * 8), rng c 0 2 0 1023,
      rngIf (c.u 2 2 == 0 || decide (1024 < c.u 2 2) || decide (1024 < c.u 0 2 + c.u 2 2)) 2,
      (List.range (c.u 2 2)).findSome? (fun i => rngIf (!routeOk (c.u (8 + i) 1)) (8 + i))])
    (fun _ _ => [])
    (fun _ s => completeOk c.key 0
      (forAll (List.range (c.u 2 2)) (fun i s =>
        { s with routes := Tab.set s.routes (c.u 0 2 + i) (BitVec.ofNat 32 (c.u (8 + i) 1)) }) s)) s

/-- LNK.ROUTE. -/
def execLnkRoute (c : Cmd) (s : State) : Host.Outcome State Fault Refusal := .next (doLnkRoute c s)

/-- LNK.MCAST (R376, R404). -/
def doLnkMcast (c : Cmd) (s : State) : State :=
  runCmd { op := 0xC03, scopes := 1 } c (fun _ _ => [lenCheck c 8, rng c 1 1 0 127]) (fun _ _ => [])
    (fun _ s => completeOk c.key 0 { s with mcast := Tab.set s.mcast (c.u 0 1) (BitVec.ofNat 32 (c.u 1 1)) }) s

/-- LNK.MCAST. -/
def execLnkMcast (c : Cmd) (s : State) : Host.Outcome State Fault Refusal := .next (doLnkMcast c s)

/-- The reply of LNK.STATUS (R410). -/
def lnkReply (s : State) (n : Nat) : List Byte :=
  let p := s.port n
  leBytes 1 n ++ leBytes 1 p.state.toNat ++ leBytes 1 (bit s.role n).toNat
    ++ leBytes 1 (p.fckIn.toNat + (bit p.cfg 4).toNat * 2 + (p.frozen != 0).toNat * 4 + (bit p.cfg 6).toNat * 8 + p.preRx.toNat * 16
      + (bit p.cfg 5).toNat * 32)
    ++ leBytes 2 p.peerDev.toNat ++ leBytes 1 p.peerPort.toNat ++ leBytes 1 p.laneMap.toNat ++ leBytes 1 p.polInv.toNat
    ++ leBytes 1 p.skew.toNat ++ leBytes 1 p.lastFail.toNat ++ leBytes 1 0 ++ leBytes 4 p.totTrain.toNat ++ leBytes 8 p.totCor.toNat
    ++ leBytes 8 p.totUnc.toNat ++ leBytes 8 p.totSym.toNat ++ leBytes 4 p.totCrc.toNat ++ leBytes 4 p.totReplay.toNat
    ++ leBytes 4 p.totFence.toNat ++ leBytes 4 p.totFreeze.toNat ++ leBytes 8 p.upStamp.toNat

/-- LNK.STATUS (R376, R410). -/
def doLnkStatus (c : Cmd) (s : State) : State :=
  runCmd { op := 0xC04, scopes := 1 } c (fun _ _ => [lenCheck c 8, rng c 0 1 0 5]) (fun s _ => [portFenceCheck s (c.u 0 1)])
    (fun _ s => complete c.key 0 0 0 0 0 (lnkReply s (c.u 0 1)) s) s

/-- LNK.STATUS. -/
def execLnkStatus (c : Cmd) (s : State) : Host.Outcome State Fault Refusal := .next (doLnkStatus c s)

/-! ## Register writes (R408, R409) -/

/-- A write of a port's registers. -/
def writePortReg (n off : Nat) (v : Word) (s : State) : WRes :=
  match off with
  | 0x000 =>
    if fld v 0 2 = 3 then .refused (badField 0)
    else if fld v 8 4 = 0 then .refused (badField 8)
    else
      let old := fld (s.port n).cfg 0 2
      let s := s.updPort n (fun p => { p with cfg := v &&& 0xFF3#32 })
      .done (if old = fld v 0 2 then s else setPstate n (fld v 0 2) s)
  | 0x004 => .done (s.updPort n (fun p => { p with fckLost := p.fckLost && !bit v 24 }))
  | 0x00C =>
    match ([0, 4, 8] : List Nat).find? (fun i => fld v i 4 == 0) with
    | some i => .refused (badField i)
    | none => .done (s.updPort n (fun p => { p with vcw := v &&& 0xFFF#32 }))
  | _ => .done s

/-- A write of a routing entry. -/
def writeRoute (i : Nat) (v : Word) (s : State) : WRes :=
  if fld v 0 3 = 6 then .refused (badField 0)
  else if fld v 3 3 = 6 then .refused (badField 3)
  else .done { s with routes := Tab.set s.routes i (v &&& 0x3F#32) }

/-- A write of a multicast entry. -/
def writeMcast (g : Nat) (v : Word) (s : State) : WRes := .done { s with mcast := Tab.set s.mcast g (v &&& 0x7F#32) }

/-! ## Training (R391 to R394, R407) -/

/-- PORT_TRAINED (R391): INIT has been exchanged; sequence numbers and credits start anew (R395). Settings of LNK_CFG that wait for a
training take effect (R408). A SLAVE port back after a fence or with another peer sees a path step (R429). -/
def doPortTrained (n : Nat) (i : TrainInfo) (s : State) : State :=
  let p := s.port n
  if p.state = 1 ∧ p.failAt = 0 then
    let s := s.updPort n (fun p => { p.clear with
      state := 2, txLpi := fld p.cfg 0 2 == 1, peerDev := i.devid, peerPort := i.port, preRx := i.pre, laneMap := i.laneMap, polInv := i.polInv
      skew := i.skew, credits := i.credits, freed := [0, 0, 0, 0], txSeq := 0, txAck := 1023, rxSeq := 0
      trains := satInc p.trains, totTrain := satInc p.totTrain, upStamp := s.stamp, relock := false, fenceAt := 0
      clkTrained := bit p.cfg 5, preTrained := bit p.cfg 6, fckIn := p.fckIn || bit p.cfg 5, fckLost := p.fckLost })
    let old := (s.tport n).oldPeer
    let s := s.updTport n (fun t => { t with oldPeer := some (peerOf s n) })
    let s := traceLink 0 n s
    let s := if portState s n = 2 ∧ old.isSome ∧ old ≠ some (peerOf s n) then pathStep n s else s
    idlePort n s
  else s

/-- PORT_TRAINED. -/
def execPortTrained (n : Fin 6) (i : TrainInfo) (s : State) : Host.Outcome State Fault Refusal := .next (doPortTrained n.val i s)

/-- TRAIN_FAIL (R394): the cause is recorded and, but for NO_SIGNAL, raised. After FEC lock was broken the port is fenced, a fenced
port stays so (R407); another port will restart. -/
def doTrainFail (n : Nat) (cause : BitVec 3) (s : State) : State :=
  let p := s.port n
  if p.state = 1 ∧ p.failAt = 0 ∧ 1 ≤ cause.toNat ∧ cause.toNat ≤ 5 then
    let s := s.updPort n (fun p => { p with lastFail := cause })
    let s := if cause = 1 then s else raise (srcTrainFail n) 0 0 s
    let s := traceLink 2 n s
    if p.relock then fencePort n s
    else if p.fenceAt ≠ 0 then s.updPort n (fun p => { p with state := 4, fenceAt := s.mono + 1 })
    else s.updPort n (fun p => { p with failAt := s.mono + 1 })
  else s

/-- TRAIN_FAIL. -/
def execTrainFail (n : Fin 6) (cause : BitVec 3) (s : State) : Host.Outcome State Fault Refusal := .next (doTrainFail n.val cause s)

/-- TRAIN_RETRY (R394): 100 ms after a failed training. -/
def doTrainRetry (n : Nat) (s : State) : State :=
  let p := s.port n
  if p.state = 1 ∧ p.failAt ≠ 0 then startTraining n (advanceMono (p.failAt - 1 + 100000 * usSteps) s) else s

/-- TRAIN_RETRY. -/
def execTrainRetry (n : Fin 6) (s : State) : Host.Outcome State Fault Refusal := .next (doTrainRetry n.val s)

/-- FENCED_RETRAIN (R407): every 1 s with AUTO = 1. -/
def doFencedRetrain (n : Nat) (s : State) : State :=
  let p := s.port n
  if p.state = 4 ∧ bit p.cfg 7 then startTraining n (advanceMono (p.fenceAt - 1 + 1000000 * usSteps) s) else s

/-- FENCED_RETRAIN. -/
def execFencedRetrain (n : Fin 6) (s : State) : Host.Outcome State Fault Refusal := .next (doFencedRetrain n.val s)

/-! ## Messages (R399 to R405) -/

/-- The virtual channel suits the message type (R399). -/
def vcOk (mtype vc : Nat) (mc : Bool) : Bool :=
  match mtype with
  | 0x01 => vc == (if mc then 2 else 0)
  | 0x02 => vc == 0
  | 0x10 | 0x11 | 0x12 => vc == 1
  | 0x20 | 0x21 | 0x22 => vc == 3
  | _ => false

/-- The message of a TRG body (R399). -/
def trgMsgOf (dst src : Nat) (b : List Byte) : TrgMsg :=
  { mcg := BitVec.ofNat 8 dst, kind := BitVec.ofNat 2 (rdLe b 0 1), dev := BitVec.ofNat 10 src, bay := BitVec.ofNat 4 (rdLe b 1 1)
    gseq := BitVec.ofNat 32 (rdLe b 4 4), t := BitVec.ofNat 80 (rdLe b 8 10) }

/-- A message delivered to the device itself. A 1588 message has its effect in the PTP rows, which bring its stamp; notices, records,
data and alarms of other devices have none here. -/
def deliverLocal (n : Nat) (b : List Byte) (s : State) : State :=
  let body := (b.drop 16).take (rdLe b 8 2)
  match rdLe b 4 1 with
  | 0x01 => doPacketIntake (BitVec.ofNat 3 n) ((rdLe b 6 1).testBit 0) body s
  | 0x02 => doDoorbell (BitVec.ofNat 3 n) body s
  | 0x22 => doTrgMessageRx (trgMsgOf (rdLe b 0 2) (rdLe b 2 2) body) s
  | _ => s

/-- OBS is set on a COMMAND that enters on an OBSERVE port (R401). -/
def markObs (s : State) (n : Nat) (b : List Byte) : List Byte :=
  if rdLe b 4 1 = 1 ∧ !bit s.role n then patch b 6 (leBytes 1 (rdLe b 6 1 ||| 1)) else b

/-- A message is forwarded on ports: HOPS falls by one, and with none left it is counted instead (R404). -/
def forward (ports : List Nat) (vc : BitVec 2) (b : List Byte) (s : State) : State :=
  if ports.isEmpty then s
  else if rdLe b 5 1 = 0 then { s with ttldrop := satInc s.ttldrop }
  else forAll ports (fun m s => sendPort m vc (patch b 5 (leBytes 1 (rdLe b 5 1 - 1))) s) s

/-- A whole message has arrived on a port (R399, R401, R403, R404). -/
def takeMessage (n : Nat) (vc : BitVec 2) (b : List Byte) (s : State) : State :=
  let dst := rdLe b 0 2
  let mc := dst.testBit 15
  if b.length < 16 || !vcOk (rdLe b 4 1) vc.toNat mc || decide (4112 < rdLe b 8 2) then
    s.updPort n (fun p => { p with badmsg := satInc p.badmsg })
  else
    let b := markObs s n b
    if mc then
      let g := mcastOf s (dst % 256)
      let s := forward ((bitsOf 6 g.toNat).filter (· != n)) vc b s
      if bit g 6 then deliverLocal n b s else s
    else if dst % 1024 = s.devid.toNat then deliverLocal n b s
    else match routePort s (dst % 1024) with
      | none => noRoute s
      | some m => forward [m] vc b s

/-! ## Flits (R395 to R397) -/

/-- ACK, CCNT and NAK of a flit's header (R395, R396): acknowledged flits go, credit returns, a new NAK is answered by a replay. -/
def takeAck (n h : Nat) (s : State) : State :=
  let p := s.port n
  let ack := h / 2 ^ 20 % 1024
  let d := (ack + 1024 - p.txAck) % 1024
  let vc := h / 2 ^ 18 % 4
  let c := h / 2 ^ 12 % 64
  let back := (c + 64 - p.freed.getD vc 0) % 64
  let s := s.updPort n (fun p => { p with credits := p.credits.set vc (p.credit vc + back), freed := p.freed.set vc c, rxLpi := h.testBit 41 })
  let s := if 0 < d ∧ d ≤ p.txBuf.length then
      s.updPort n (fun p => { p with txBuf := p.txBuf.drop d, txAck := ack, stuck := 0 })
    else s
  let s := if h.testBit 11 ∧ (s.port n).nakAck ≠ some (s.port n).txAck then replayPort n s else s
  idlePort n (pumpPort n s)

/-- A DATA flit in order joins its message (R395, R396). -/
def takeData (n h : Nat) (f : List Byte) (s : State) : State :=
  let vc := h / 2 ^ 46 % 4
  let part := (f.drop 6).take (h % 256)
  let got := (if h.testBit 43 then [] else Tab.get [] (s.port n).asm vc) ++ part
  let s := count (678 + n) 1 (s.updPort n (fun p => { p with
    rxSeq := (p.rxSeq + 1) % 1024, nak := false, asm := if h.testBit 42 then Tab.erase p.asm vc else Tab.set p.asm vc got }))
  if h.testBit 42 then takeMessage n (BitVec.ofNat 2 vc) got s else s

/-- A flit arrives at a port that carries traffic: one that fails its CRC is discarded and NAK set; DATA is taken in order only. -/
def takeFlit (n : Nat) (f : List Byte) (s : State) : State :=
  if !(s.port n).up then s
  else if crc32c (f.take 156) ≠ BitVec.ofNat 32 (rdLe f 156 4) then
    s.updPort n (fun p => { p with crcerr := satInc p.crcerr, totCrc := satInc p.totCrc, nak := true })
  else
    let h := rdLe f 0 6
    let s := takeAck n h s
    if h / 2 ^ 44 % 4 = 1 ∧ h / 2 ^ 30 % 1024 = (s.port n).rxSeq ∧ (s.port n).up then takeData n h f s else s

/-! ## Codewords (R382 to R385) -/

/-- Bit 9 first. -/
def symbolBits (x : BitVec 10) : List Bool := (List.range 10).map (fun i => bit x (9 - i))

/-- Descrambles bits; the state holds the last 58 received, the latest at bit 0 (R384). -/
def descramble (st : BitVec 58) : List Bool → List Bool × BitVec 58
  | [] => ([], st)
  | b :: l =>
    let r := descramble ((st <<< 1) ||| (BitVec.ofBool b).setWidth 58) l
    ((b ^^ (bit st 38 ^^ bit st 57)) :: r.1, r.2)

/-- Eight bits, bit 0 first. -/
def byteOf (l : List Bool) : Byte := BitVec.ofNat 8 (bitsToNat ((List.range 8).filter (fun i => l.getD i false)))

/-- Bytes of bits. -/
def bytesOf : Nat → List Bool → List Byte
  | 0, _ => []
  | n + 1, l => byteOf l :: bytesOf n (l.drop 8)

/-- The four flits of a descrambled payload, behind its 20 header bits (R383). -/
def flitsOf (l : List Bool) : List (List Byte) := (List.range 4).map (fun i => bytesOf 160 ((l.drop (20 + 1280 * i)).take 1280))

/-- A corrected codeword (R385, R512). -/
def takeCodeword (n : Nat) (w : Codeword) (s : State) : State :=
  let r := descramble (s.port n).descr (w.msg.flatMap symbolBits)
  let s := s.updPort n (fun p => { p with
    descr := r.2, uncRun := 0, cwcor := if w.errors = 0 then p.cwcor else p.cwcor + 1
    totCor := if w.errors = 0 then p.totCor else p.totCor + 1, totSym := p.totSym + BitVec.ofNat 64 w.errors })
  (flitsOf r.1).foldl (fun s f => takeFlit n f s) (count (684 + n) w.errors s)

/-- An uncorrectable codeword (R385, R394): its four flits fail. The fourth in a row breaks FEC lock and full training follows (R407). -/
def loseCodeword (n : Nat) (w : Codeword) (s : State) : State :=
  let r := descramble (s.port n).descr (w.msg.flatMap symbolBits)
  let s := s.updPort n (fun p => { p with
    descr := r.2, uncRun := p.uncRun + 1, cwunc := satInc p.cwunc, totUnc := p.totUnc + 1, crcerr := satAdd p.crcerr 4
    totCrc := satAdd p.totCrc 4, nak := true })
  if 4 ≤ (s.port n).uncRun then (startTraining n s).updPort n (fun p => { p with relock := true }) else s

/-- CODEWORD_RECEIVE. -/
def doCodewordReceive (n : Nat) (w : Codeword) (s : State) : State :=
  if (s.port n).up ∧ w.msg.length = 514 then
    if w.errors ≤ 15 then takeCodeword n w s else loseCodeword n w s
  else s

/-- CODEWORD_RECEIVE. -/
def execCodewordReceive (n : Fin 6) (w : Codeword) (s : State) : Host.Outcome State Fault Refusal := .next (doCodewordReceive n.val w s)

/-- REPLAY_TIMEOUT (R396): 2 µs without ACK progress. -/
def doReplayTimeout (n : Nat) (s : State) : State :=
  if (s.port n).up ∧ (s.port n).txBuf ≠ [] then replayPort n (advance (2 * usSteps) s) else s

/-- REPLAY_TIMEOUT. -/
def execReplayTimeout (n : Fin 6) (s : State) : Host.Outcome State Fault Refusal := .next (doReplayTimeout n.val s)

/-! ## Adaptation (R402) -/

/-- A level outside 20 % to 30 % of a window of 65,536 symbols. -/
def levelOut (v : Nat) : Bool := decide (v * 100 < 20 * 65536) || decide (30 * 65536 < v * 100)

/-- ADAPT_WINDOW: a lane freezes, stays frozen, or resumes at the end of a window. -/
def doAdaptWindow (n lane : Nat) (levels : List Nat) (s : State) : State :=
  let p := s.port n
  if levels.length ≠ 4 ∨ p.up = false then s
  else if levels.any levelOut then
    if bit p.frozen lane then s
    else
      traceLink 3 n (raise (srcAdapt n) 0 0 (s.updPort n (fun p => { p with
        frozen := setBit p.frozen lane true, freezes := satInc p.freezes, totFreeze := satInc p.totFreeze })))
  else s.updPort n (fun p => { p with frozen := setBit p.frozen lane false })

/-- ADAPT_WINDOW. -/
def execAdaptWindow (n : Fin 6) (lane : Fin 4) (levels : List Nat) (s : State) : Host.Outcome State Fault Refusal :=
  .next (doAdaptWindow n.val lane.val levels s)

/-- RETRAIN_IN_PLACE (R402): the lanes adapt for 1 ms on live traffic, which no register shows. -/
def doRetrainInPlace (n : Nat) (s : State) : State := if (s.port n).state = 2 then advance (1000 * usSteps) s else s

/-- RETRAIN_IN_PLACE. -/
def execRetrainInPlace (n : Fin 6) (s : State) : Host.Outcome State Fault Refusal := .next (doRetrainInPlace n.val s)

/-! ## Low-power idle and forwarded clocks (R389, R406) -/

/-- LPI_WAKE (R406): messages wait for the port. -/
def doLpiWake (n : Nat) (s : State) : State := if (s.port n).txWait = [] then s else runSclk (wakePort n s)

/-- LPI_WAKE. -/
def execLpiWake (n : Fin 6) (s : State) : Host.Outcome State Fault Refusal := .next (doLpiWake n.val s)

/-- LPI_EXIT_TIMEOUT (R406): the receiver does not regain FEC lock within 10 µs. -/
def doLpiExitTimeout (n : Nat) (s : State) : State :=
  if (s.port n).up ∧ (s.port n).rxLpi then startTraining n (advance (10 * usSteps) s) else s

/-- LPI_EXIT_TIMEOUT. -/
def execLpiExitTimeout (n : Fin 6) (s : State) : Host.Outcome State Fault Refusal := .next (doLpiExitTimeout n.val s)

/-- FCK_RX_LOSS (R389): FCK_IN goes; with forwarded clocking the CDR moves to embedded tracking, FCK_LOST. A reference taken from the
port is lost with it (R414). -/
def doFckRxLoss (n : Nat) (s : State) : State :=
  let p := s.port n
  if p.fckIn then
    let s := s.updPort n (fun p => { p with fckIn := false })
    let s := if p.clkTrained then raise (srcFckLost n) 0 0 (s.updPort n (fun p => { p with fckLost := true })) else s
    if fld s.tim.ref 0 3 = n + 1 then refLost s else s
  else s

/-- FCK_RX_LOSS. -/
def execFckRxLoss (n : Fin 6) (s : State) : Host.Outcome State Fault Refusal := .next (doFckRxLoss n.val s)

end Sys2Proof.Machine
end

