-- ==== Sys2Proof/Machine/Obs.lean ====
section
/-!
DEFINITION. Trace and counters (R505 to R513): the OBS commands (R379) and the sending of trace records.
-/
namespace Sys2Proof.Machine

/-- OBS.TRACE (R379, R509, R510): with ENABLE = 0 the buffered records go uncounted. -/
def doObsTrace (c : Cmd) (s : State) : State :=
  runCmd { op := 0xF00, scopes := 1 } c
    (fun _ _ => [lenCheck c 16, rng c 0 1 0 1, rng c 1 1 1 2, rngIf (decide (2 ^ 49 ≤ c.u 8 8) || c.u 8 8 / 2 ^ 18 % 64 != 0) 8])
    (fun _ _ => [])
    (fun _ s => (completeOk c.key 0 s).updObs (fun o => { o with
      en := c.u 0 1 == 1, lanes := c.u 1 1 == 2, filter := BitVec.ofNat 64 (c.u 8 8), buffer := if c.u 0 1 = 0 then [] else o.buffer })) s

/-- OBS.TRACE. -/
def execObsTrace (c : Cmd) (s : State) : Host.Outcome State Fault Refusal := .next (doObsTrace c s)

/-- OBS.COUNTERS (R379, R512): the named counters as they stand in one cycle, 8 bytes each. -/
def doObsCounters (c : Cmd) (s : State) : State :=
  runCmd { op := 0xF01, scopes := 1 } c
    (fun _ _ => [lenCheck c 8, rng c 0 2 0 1023,
      rngIf (c.u 2 2 == 0 || decide (510 < c.u 2 2) || decide (1024 < c.u 0 2 + c.u 2 2)) 2])
    (fun _ _ => [])
    (fun _ s => complete c.key 0 0 0 0 0
      ((List.range (c.u 2 2)).flatMap (fun i => leBytes 8 (Tab.get 0 s.obs.counters (c.u 0 2 + i)))) s) s

/-- OBS.COUNTERS. -/
def execObsCounters (c : Cmd) (s : State) : Host.Outcome State Fault Refusal := .next (doObsCounters c s)

/-- TRACE_SEND (R507, R510, R512): the oldest record goes whole to a lane in use; a DROP record takes the space that returns. -/
def doTraceSend (lane : Nat) (s : State) : State :=
  match s.obs.buffer with
  | [] => s
  | r :: l =>
    if lane = 0 ∨ s.obs.lanes then
      let s := emit (.trace lane r) (s.updObs (fun o => traceDropRecord s.evStamp { o with buffer := l }))
      count 699 1 s
    else s

/-- TRACE_SEND. -/
def execTraceSend (lane : Fin 2) (s : State) : Host.Outcome State Fault Refusal := .next (doTraceSend lane.val s)

end Sys2Proof.Machine
end

