-- ==== Sys2Proof/Machine/Regs.lean ====
section
/-!
DEFINITION. The whole register map as one read and one write (R13 to R15, R364): what every register returns, what a read clears or
latches, and which write a register takes; DEV.REG_READ, DEV.REG_WRITE and the engine registers' writes (R167, R187, R188).
-/
namespace Sys2Proof.Machine

/-! ## Parts of wide values -/

/-- Bits [31:0] of a number. -/
def loWord (n : Nat) : Word := BitVec.ofNat 32 n
/-- Bits [63:32] of a number. -/
def hiWord (n : Nat) : Word := BitVec.ofNat 32 (n / 2 ^ 32)
/-- A word of a wide value: the lower at offset 0. -/
def halfWord (n : Nat) (hi : Bool) : Word := if hi then hiWord n else loWord n
/-- A signed number as a word. -/
def signedWord (v : Int) : Word := BitVec.ofNat 32 (ofSigned 32 v)

/-! ## Reads by unit -/

/-- A pin's registers (R46 to R54); ZONE is sampled asynchronously (R53). PIN_TAVCNT clears when read. -/
def readPin (zone : BitVec 2) (p off : Nat) (s : State) : Word × State :=
  let x := s.pin p
  match off with
  | 0x00 => (x.lvl01, s)
  | 0x04 => (x.lvl23, s)
  | 0x08 => (x.thab, s)
  | 0x0C => (x.thc, s)
  | 0x10 => (x.vtvc, s)
  | 0x14 => (x.loadi, s)
  | 0x18 => (x.clamp, s)
  | 0x1C => (x.path, s)
  | 0x20 => (x.ctrl, s)
  | 0x24 => (setFld x.stat 9 2 zone.toNat, s)
  | 0x28 => (x.tavcnt, s.updPin p (fun x => { x with tavcnt := 0 }))
  | _ => (0, s)

/-- A timing-set register or PIN_SYMCFG (R76, R77); VALID follows R78. -/
def readTiming (p off : Nat) (s : State) : Word :=
  let x := s.pin p
  let t := x.tset (off / 32)
  if off = 0x200 then x.symcfg
  else match off % 32 with
    | 0x00 => setBit t.cfg 31 t.valid
    | 0x04 => t.drv
    | 0x08 => t.ret
    | 0x0C => t.stb
    | 0x10 => t.wcl
    | _ => 0

/-- A PMU register (R209); STEP shows step mode's reduction (R206). -/
def readPmu (p off : Nat) (s : State) : Word :=
  let u := (s.pin p).pmu
  match off with
  | 0x00 => u.ctrl
  | 0x04 => loWord (ofSigned 64 u.force)
  | 0x08 => hiWord (ofSigned 64 u.force)
  | 0x0C => u.clim
  | 0x10 => u.vclamp
  | 0x14 => setBit u.stat 8 (decide (stepS s (p / 16) < 8))
  | 0x18 => loWord (ofSigned 64 u.res)
  | 0x1C => hiWord (ofSigned 64 u.res)
  | 0x20 => u.resInfo
  | 0x24 => loWord u.resT0.toNat
  | 0x28 => hiWord u.resT0.toNat
  | _ => 0

/-- A TDC register (R255); the counts clear when read. -/
def readTdc (p off : Nat) (s : State) : Word × State :=
  let t := (s.pin p).tdc
  match off with
  | 0x00 => (t.ctrl, s)
  | 0x04 => (BitVec.ofNat 32 (tdcLevel s p * 256 + t.popped.rise.toNat * 128 + t.degraded.toNat * 64 + t.svc.toNat * 32
      + t.ovf.toNat * 16 + t.holder.toNat * 4 + t.freq.isSome.toNat * 2 + (tapped s p).toNat), s)
  | 0x08 => (t.dead, s.updPin p (fun x => { x with tdc := { x.tdc with dead := 0 } }))
  | 0x0C => (t.lost, s.updPin p (fun x => { x with tdc := { x.tdc with lost := 0 } }))
  | 0x10 => (BitVec.ofNat 32 (t.tableCe.toNat * 65536 + t.rej.toNat), s)
  | _ => (0, s)

/-- An interval unit's register (R256). -/
def readTiv (n off : Nat) (s : State) : Word :=
  let x := s.slice n
  let pairs := match x.tiv with
    | none => x.tivPairs.toNat
    | some t => t.pairs
  match off with
  | 0x00 => BitVec.ofNat 32 x.tiv.isSome.toNat
  | 0x04 => loWord pairs
  | 0x08 => hiWord pairs
  | 0x0C => match x.tiv with
    | none => x.tivUnpaired
    | some t => BitVec.ofNat 32 t.unpaired
  | 0x10 => match x.tiv with
    | none => x.tivSurplus
    | some t => BitVec.ofNat 32 t.surplus
  | _ => 0

/-- A register of an engine (R167, R188). ENG_GOVR clears when read. -/
def readEng (e off : Nat) (s : State) : Word × State :=
  let x := s.eng e
  let stat := x.state.toNat * 2 ^ 30 + x.group.toNat * 2 ^ 29 + x.waiting.toNat * 2 ^ 28 + pendOf s e * 2 ^ 22 + x.uf.toNat * 2 ^ 18
    + x.aluf * 2 ^ 14 + x.pc.toNat
  match off with
  | 0x000 => (x.ctrl, s)
  | 0x004 => (x.even, s)
  | 0x008 => (BitVec.ofNat 32 stat, s)
  | 0x00C => (BitVec.ofNat 32 x.calls.length, s)
  | 0x010 => (x.govr, s.updEng e (fun x => { x with govr := 0 }))
  | 0x014 => (BitVec.ofNat 32 (x.loading.toNat * 2 ^ 31 + x.bank.toNat * 2 ^ 30 + (!x.repair.isEmpty).toNat * 2 ^ 29), s)
  | 0x018 => (x.ver, s)
  | 0x01C => (x.crc, s)
  | 0x100 => (x.save.info, s)
  | 0x104 => (x.save.flags, s)
  | 0x108 => (x.save.wait, s)
  | 0x200 => (x.mcInfo, s)
  | 0x218 => (loWord x.mcStamp.toNat, s)
  | 0x21C => (hiWord x.mcStamp.toNat, s)
  | 0x220 => (x.mcCount, s)
  | _ =>
    if off < 0x080 then (x.srv ((off - 0x040) / 4), s)
    else if off < 0x090 then (x.lcv ((off - 0x080) / 4), s)
    else if off < 0x180 then (Tab.get 0 x.save.sr ((off - 0x140) / 4), s)
    else if off < 0x190 then (Tab.get 0 x.save.lc ((off - 0x180) / 4), s)
    else (Tab.get 0 x.mcWord ((off - 0x204) / 4), s)

/-- The 64-bit value of which a Winnow register pair shows the halves (R227). -/
def winWide (w : Winnow) (off : Nat) : Option Nat :=
  match off with
  | 0x008 => some w.pmask.toNat
  | 0x010 => some w.seed.toNat
  | 0x018 => some w.misr.toNat
  | 0x020 => some w.fcnt.toNat
  | 0x028 => some w.fvcnt.toNat
  | 0x030 => some w.mfcnt.toNat
  | 0x040 => some ((w.ff.map (fun f => f.idx.toNat)).getD (2 ^ 64 - 1))
  | 0x048 => some ((w.ff.map (fun f => f.pins.toNat)).getD 0)
  | _ =>
    if off < 0x080 then none
    else if off % 32 = 0 then some (w.window ((off - 0x080) / 32)).ws.toNat
    else if off % 32 = 8 then some (w.window ((off - 0x080) / 32)).we.toNat
    else none

/-- WIN_STAT (R227). -/
def winStat (s : State) (n : Nat) : Nat :=
  let w := (s.slice n).win
  let active := match siteOfHome s n with
    | none => false
    | some x => (siteAdmitted s x).isSome
  w.verdict.toNat * 128 + (!w.staged.isEmpty).toNat * 64 + w.logFull.toNat * 32 + w.dropped.toNat * 16 + w.pcntSat.toNat * 8
    + w.iter.toNat * 4 + w.fail.toNat * 2 + active.toNat

/-- A Winnow register; a read of an _LO register latches its _HI partner (R227). -/
def readWin (n off : Nat) (s : State) : Word × State :=
  let w := (s.slice n).win
  match off with
  | 0x000 => (w.ctrl, s)
  | 0x004 => (BitVec.ofNat 32 (winStat s n), s)
  | 0x038 => (w.recs, s)
  | 0x03C => (w.lost, s)
  | _ =>
    if 0x100 ≤ off then (Tab.get 0 w.pfcnt ((off - 0x100) / 4), s)
    else match winWide w off with
      | some v => (loWord v, updWin n (fun w => { w with hi := Tab.set w.hi off (hiWord v) }) s)
      | none =>
        match winWide w (off - 4) with
        | some v => ((Tab.find w.hi (off - 4)).getD (hiWord v), s)
        | none =>
          let x := w.window ((off - 0x080) / 32)
          (if off % 32 = 0x10 then x.mode else x.cnt, s)

/-- A controller's registers (R283); voltage and current are what the device measures then (R260), STEP step mode's cut (R262). -/
def readDps (d off : Nat) (s : State) : Word × State :=
  let x := s.dpsOf d
  match off with
  | 0x00 => (x.ctrl, s)
  | 0x04 => (x.vset, s)
  | 0x08 => (x.ilim, s)
  | 0x0C => (x.shunt, s)
  | 0x10 => (x.pg, s)
  | 0x14 => (setBit x.stat 9 (decide (stepS s (d / 2) < 8)), s)
  | 0x18 =>
    let (v, s) := measure s
    (loWord v, s.updDps d (fun x => { x with vmeas := toSigned 32 v }))
  | 0x1C =>
    let (v, s) := measure s
    (loWord v, s.updDps d (fun x => { x with imeas := toSigned 32 v }))
  | 0x20 => (x.tripsrc, s)
  | 0x24 => (loWord x.tripT.toNat, s)
  | 0x28 => (hiWord x.tripT.toNat, s)
  | 0x2C => (x.gang, s)
  | _ => (0, s)

/-- A monitor's registers (R283); MON_ECNT clears when read. -/
def readMon (m off : Nat) (s : State) : Word × State :=
  let x := s.mon m
  match off with
  | 0x00 => (x.cfg, s)
  | 0x04 => (x.thr, s)
  | 0x08 => (setBit x.stat 5 (blanked s m), s)
  | 0x0C => (x.trip, s)
  | 0x10 => (loWord x.cap.toNat, s)
  | 0x14 => (hiWord x.cap.toNat, s)
  | 0x18 => (x.ecnt, s.updMon m (fun x => { x with ecnt := 0 }))
  | _ => (0, s)

/-- A waveform source's registers (R303); AWG_SHORTS clears when read. -/
def readAwg (k off : Nat) (s : State) : Word × State :=
  let s := s.updAwg k (rollAwg s.mono)
  let x := s.awg k
  match off with
  | 0x00 => (x.ctrl, s)
  | 0x04 => (x.stat, s)
  | 0x08 => (x.level, s)
  | 0x0C => (x.amp, s)
  | 0x10 => (loWord x.ftw.toNat, s)
  | 0x14 => (hiWord x.ftw.toNat, s)
  | 0x18 => (x.poff, s)
  | 0x20 => (x.bank0, s)
  | 0x24 => (x.bank1, s)
  | 0x30 => (loWord x.tstart.toNat, s)
  | 0x34 => (hiWord x.tstart.toNat, s)
  | 0x38 => (x.tstartEp, s)
  | 0x3C => (x.shorts, s.updAwg k (fun x => { x with shorts := 0 }))
  | _ => (0, s)

/-- A digitiser's registers (R303): DIG_LAST is the latest sample while it samples, which no row brings in. -/
def readDig (k off : Nat) (s : State) : Word × State :=
  let x := s.dig k
  match off with
  | 0x00 => (x.ctrl, s)
  | 0x04 => (x.dly, s)
  | 0x08 => (x.stat, s)
  | 0x0C =>
    if bit x.ctrl 12 || x.busy then
      let (v, s) := measure s
      (BitVec.ofNat 32 (v % 65536), s.updDig k (fun x => { x with last := BitVec.ofNat 32 (v % 65536) }))
    else (x.last, s)
  | _ => (0, s)

/-- Cycles from now to a moment. -/
def cyclesTo (s : State) (m : Nat) : Word := if m ≤ s.mono then 0 else BitVec.ofNat 32 (cdiv (m - s.mono) eclkSteps)

/-- A trigger sequencer's registers (R325); TRG_EVLOST clears when read. -/
def readTrg (k off : Nat) (s : State) : Word × State :=
  let x := s.trg k
  match off with
  | 0x000 => (x.ctrl, s)
  | 0x004 => (x.set.setWidth 32, s)
  | 0x008 => (x.evlost, s.updTrg k (fun x => { x with evlost := 0 }))
  | 0x010 => (Tab.get 0 x.csrc 0, s)
  | 0x014 => (Tab.get 0 x.clim 0, s)
  | 0x018 => (Tab.get 0 x.cval 0, s)
  | 0x020 => (Tab.get 0 x.csrc 1, s)
  | 0x024 => (Tab.get 0 x.clim 1, s)
  | 0x028 => (Tab.get 0 x.cval 1, s)
  | 0x040 => (Tab.get 0 x.tlen 0, s)
  | 0x044 => (cyclesTo s (Tab.get 0 x.tend 0), s)
  | 0x048 => (Tab.get 0 x.tlen 1, s)
  | 0x04C => (cyclesTo s (Tab.get 0 x.tend 1), s)
  | 0x050 => (x.diglvl, s)
  | 0x058 => (loWord x.time.toNat, s)
  | 0x05C => (hiWord x.time.toNat, s)
  | 0x060 => (x.timeEp, s)
  | _ => (Tab.get 0 (if off % 8 = 0 then x.cond else x.act) ((off - 0x100) / 8), s)

/-- An arm group's registers (R326), its state as of now (R312, R313). -/
def readAg (g off : Nat) (s : State) : Word × State :=
  let s := agCatch g s.now.toNat s
  let x := s.group g
  match off with
  | 0x00 => (x.cfg, s)
  | 0x04 => (x.hold, s)
  | 0x08 => (x.hval, s)
  | 0x0C => (x.recTime, s)
  | 0x10 => (x.xlat, s)
  | 0x14 => (x.nfire, s)
  | 0x18 => (BitVec.ofNat 32 (x.state.toNat * 2 ^ 29), s)
  | 0x1C => (x.fires, s)
  | 0x20 => (x.miss, s.updGroup g (fun x => { x with miss := 0 }))
  | 0x24 => (x.holdign, s.updGroup g (fun x => { x with holdign := 0 }))
  | 0x28 => (x.xlate, s.updGroup g (fun x => { x with xlate := 0 }))
  | 0x2C => (x.xgap, s.updGroup g (fun x => { x with xgap := 0 }))
  | 0x30 => (loWord x.last.toNat, s)
  | 0x34 => (hiWord x.last.toNat, s)
  | _ => (0, s)

/-- A port's registers (R408); the counts clear when read. -/
def readPort (n off : Nat) (s : State) : Word × State :=
  let p := s.port n
  match off with
  | 0x000 => (p.cfg, s)
  | 0x004 => (BitVec.ofNat 32 (p.state.toNat * 2 ^ 29 + p.lastFail.toNat * 2 ^ 26 + p.fckIn.toNat * 2 ^ 25 + p.fckLost.toNat * 2 ^ 24
      + p.frozen.toNat * 2 ^ 20 + p.preRx.toNat * 2 ^ 19 + p.polInv.toNat * 2 ^ 15 + p.laneMap.toNat * 2 ^ 7 + p.skew.toNat), s)
  | 0x008 => (BitVec.ofNat 32 (p.peerDev.toNat * 8 + p.peerPort.toNat), s)
  | 0x00C => (p.vcw, s)
  | 0x010 => (loWord p.cwcor.toNat, s.updPort n (fun p => { p with cwcor := setFld p.cwcor 0 32 0 }))
  | 0x014 => (hiWord p.cwcor.toNat, s.updPort n (fun p => { p with cwcor := setFld p.cwcor 32 32 0 }))
  | 0x018 => (p.cwunc, s.updPort n (fun p => { p with cwunc := 0 }))
  | 0x01C => (p.crcerr, s.updPort n (fun p => { p with crcerr := 0 }))
  | 0x020 => (p.replays, s.updPort n (fun p => { p with replays := 0 }))
  | 0x024 => (p.freezes, s.updPort n (fun p => { p with freezes := 0 }))
  | 0x028 => (p.trains, s.updPort n (fun p => { p with trains := 0 }))
  | 0x02C => (p.fences, s.updPort n (fun p => { p with fences := 0 }))
  | 0x030 => (p.badmsg, s.updPort n (fun p => { p with badmsg := 0 }))
  | _ => (0, s)

/-- The fabric-wide registers (R409). -/
def readFabric (off : Nat) (s : State) : Word × State :=
  match off with
  | 0x0 => (s.devid.setWidth 32, s)
  | 0x4 => (s.noroute, { s with noroute := 0 })
  | _ => (s.ttldrop, { s with ttldrop := 0 })

/-- The time block's registers (R436): a read of TIM_NOW_LO latches TIM_NOW_HI and TIM_NOW_EP. -/
def readTim (off : Nat) (s : State) : Word × State :=
  let t := s.tim
  match off with
  | 0x000 => (BitVec.ofNat 32 (t.tq.toNat * 2 ^ 30 + t.lockHist.toNat * 2 ^ 29 + t.stepPend.toNat * 2 ^ 28 + t.refPresent.toNat * 2 ^ 27
      + t.refIosc.toNat * 2 ^ 26 + t.phaseSync.toNat * 2 ^ 25 + s.ep.toNat), s)
  | 0x004 => (t.cfg, s)
  | 0x008 => (t.ref, s)
  | 0x00C => (t.nowEp, s)
  | 0x010 => (loWord s.stamp.toNat, s.updTim (fun t => { t with nowHi := hiWord s.stamp.toNat, nowEp := s.ep.setWidth 32 }))
  | 0x014 => (t.nowHi, s)
  | 0x018 => (t.servo, s)
  | 0x01C => (t.servo2, s)
  | 0x020 => (signedWord t.trim, s)
  | 0x024 => (signedWord t.offset, s)
  | 0x028 => (t.ptp, s)
  | 0x02C => (t.sync, s)
  | 0x030 => (signedWord t.syncDly, s)
  | 0x034 => (t.syncRt, s)
  | 0x038 => (t.stray, s.updTim (fun t => { t with stray := 0 }))
  | _ => (0, s)

/-- The 1588 registers of a port (R436). -/
def readTport (n off : Nat) (s : State) : Word × State :=
  let t := s.tport n
  match off with
  | 0x00 => (t.reg, s)
  | 0x04 => (signedWord t.pdelay, s)
  | 0x08 => (signedWord t.asym, s)
  | 0x0C => (BitVec.ofNat 32 (t.lostId.toNat * 65536 + t.ovf.toNat * 2 ^ 15 + t.tsq.length), s)
  | 0x10 => (t.lost, s.updTport n (fun t => { t with lost := 0 }))
  | 0x14 => (t.bad, s.updTport n (fun t => { t with bad := 0 }))
  | _ => (0, s)

/-- An entry of an asymmetry table (R430, R436). -/
def readAsym (n e off : Nat) (s : State) : Word :=
  match Tab.find (s.tport n).table e with
  | none => 0
  | some x =>
    match off with
    | 0 => BitVec.ofNat 32 (2 ^ 31 + x.peer.toNat)
    | 4 => signedWord x.delay
    | _ => signedWord x.asym

/-- TIM_TPO_STAT (R436). -/
def readTpo (i : Nat) (s : State) : Word :=
  let x := Tab.get ({} : Tpo) s.tim.tpo i
  BitVec.ofNat 32 (x.mode.toNat * 2 ^ 30 + x.pend.isSome.toNat * 2 ^ 29)

/-- A capture input's registers (R433, R436): TIM_TCI_LO removes the oldest entry, LOST clears when read. -/
def readTci (i off : Nat) (s : State) : Word × State :=
  let x := Tab.get ({} : Tci) s.tim.tci i
  match off with
  | 0x0 => (x.cfg, s)
  | 0x4 => (BitVec.ofNat 32 (x.latch.toNat / 2 ^ 64 * 65536 + x.lost.toNat * 256 + x.ovf.toNat * 32 + x.fifo.length),
      updTci i (fun x => { x with lost := 0 }) s)
  | 0x8 => popTci i s
  | _ => (hiWord (x.latch.toNat % 2 ^ 64), s)

/-- Pins whose tables of the present round are incomplete (R257). -/
def calPending (s : State) : Nat := (s.pins.filter (fun x => x.2.tdc.inRound && x.2.tdc.checked.isNone)).length

/-- The calibration registers (R257). -/
def readCal (off : Nat) (s : State) : Word × State :=
  let t := s.tim
  match off with
  | 0x0 => (t.calPeriod, s)
  | 0x4 => (BitVec.ofNat 32 (t.calActive.toNat * 2 ^ 31 + t.calDone.toNat * 2 ^ 30 + calPending s), s)
  | _ => (t.calRej, s.updTim (fun t => { t with calRej := 0 }))

/-- The fault registers (R458). -/
def readFlt (off : Nat) (s : State) : Word :=
  let f := s.flt
  match off with
  | 0x000 => f.cfg
  | 0x004 => setBit f.pin 31 f.asserted
  | 0x008 => f.dst
  | 0x00C => BitVec.ofNat 32 (f.snap.isSome.toNat * 2 ^ 31 + f.maxsev.toNat * 2 ^ 29)
  | 0x010 => f.seq
  | 0x014 => f.lost
  | 0x018 => BitVec.ofNat 32 f.tail
  | 0x01C => BitVec.ofNat 32 f.head
  | 0x020 => BitVec.ofNat 32 f.size
  | 0x024 => BitVec.ofNat 32 f.unread
  | 0x100 => f.dump
  | 0x104 => loWord f.dumpT.toNat
  | 0x108 => hiWord f.dumpT.toNat
  | 0x10C => f.dumpSrc
  | _ => 0

/-- FLT_SRC_CFG and FLT_SRC_W of a source (R458). -/
def readFltSrc (i : Nat) (second : Bool) (s : State) : Word :=
  let x := s.source i
  if second then BitVec.ofNat 32 (x.w - 1)
  else BitVec.ofNat 32 (x.base.toNat * 2 ^ 30 + x.sev.toNat * 2 ^ 28 + x.esc.toNat * 2 ^ 27 + x.n)

/-- The supply registers (R480): the voltages are what the device measures then; THM_SWITCHES clears when read. -/
def readSup (off : Nat) (s : State) : Word × State :=
  let t := s.thm
  match off with
  | 0x000 => (t.supCfg, s)
  | 0x004 => (t.supStat, s)
  | 0x008 =>
    let (v, s) := measure s
    (loWord v, s.updThm (fun t => { t with vin := loWord v }))
  | 0x00C =>
    let (v, s) := measure s
    (loWord v, s.updThm (fun t => { t with vpe := loWord v }))
  | 0x010 => (t.switches, s.updThm (fun t => { t with switches := 0 }))
  | _ => (t.sl0 &&& 2#32, s)

/-- THM_BAY registers (R480). -/
def readBay (k off : Nat) (s : State) : Word :=
  let b := s.bay k
  match off with
  | 0x0 => b.cfg
  | 0x4 => BitVec.ofNat 32 (b.state.toNat * 2 ^ 30 + b.lastWake.toNat)
  | 0x8 => loWord b.wake.toNat
  | _ => hiWord b.wake.toNat

/-- THM_ZONE registers (R480): FLAPS clears when read. -/
def readZone (z off : Nat) (s : State) : Word × State :=
  let x := s.zone z
  match off with
  | 0x0 => (signedWord x.temp, s)
  | 0x4 => (BitVec.ofNat 32 (x.s.toNat * 65536 + x.level.toNat * 256 + x.novalid.toNat * 32 + x.hold.toNat * 16 + x.flaplock.toNat * 8
      + (inStep s z).toNat * 4 + x.warn.toNat * 2), s)
  | 0x8 => (x.excl.setWidth 32, s)
  | _ => (x.flaps, s.updZone z (fun x => { x with flaps := 0 }))

/-- The Granary's registers (R116): the error counts clear when read. -/
def readGrn (off : Nat) (s : State) : Word × State :=
  let g := s.grn
  match off with
  | 0x000 => (BitVec.ofNat 32 ((if s.part16 then 2 else 1) * 65536 + slotsPerStack s), s)
  | 0x004 => (g.stat, s)
  | 0x010 => (BitVec.ofNat 32 (captureSlots s 0 * 65536 + queueSlots s), s)
  | 0x014 => (BitVec.ofNat 32 (captureSlots s 1 * 65536 + queueSlots s), s)
  | 0x020 => (g.rsv0, s)
  | 0x024 => (g.rsv1, s)
  | 0x030 => (g.temp0, s)
  | 0x034 => (g.temp1, s)
  | 0x040 => (g.ce0, s.updGrn (fun g => { g with ce0 := 0 }))
  | 0x044 => (g.ce1, s.updGrn (fun g => { g with ce1 := 0 }))
  | 0x048 => (g.ue0, s.updGrn (fun g => { g with ue0 := 0 }))
  | 0x04C => (g.ue1, s.updGrn (fun g => { g with ue1 := 0 }))
  | 0x050 => (g.scrub, s)
  | _ => (g.warn, s)

/-- The observation registers (R513). -/
def readObs (off : Nat) (s : State) : Word :=
  let o := s.obs
  match off with
  | 0x000 => BitVec.ofNat 32 (o.lanes.toNat * 2 + o.en.toNat)
  | 0x004 => BitVec.ofNat 32 o.buffer.length
  | 0x008 => loWord o.filter.toNat
  | 0x00C => hiWord o.filter.toNat
  | _ => o.drop

/-- An event counter (R512, R513): a read of its _LO register latches _HI. -/
def readCounter (i : Nat) (hi : Bool) (s : State) : Word × State :=
  let v := Tab.get 0 s.obs.counters i
  if hi then ((Tab.find s.obs.latch i).getD (hiWord v), s)
  else (loWord v, s.updObs (fun o => { o with latch := Tab.set o.latch i (hiWord v) }))

/-- The start-up registers (R496). -/
def readBoot (off : Nat) (s : State) : Word :=
  let b := s.boot
  match off with
  | 0x00 => BitVec.ofNat 32 (b.sl.toNat * 2 ^ 30 + b.cause.toNat * 2 ^ 24 + b.recovery.toNat * 2 ^ 23 + b.fwCopy.toNat * 2 ^ 22
      + b.coefNom.toNat * 2 ^ 21 + b.flashWb.toNat * 2 ^ 20 + b.switching.toNat * 2 ^ 19 + b.active.toNat * 2 ^ 18
      + b.stbyImg.toNat * 2 ^ 17)
  | 0x04 => b.warms
  | 0x08 => b.fwAct
  | _ => if b.stbyImg then b.fwStby else 0

/-- The queue and journal registers (R356): the discard counts clear when read. -/
def readQue (off : Nat) (s : State) : Word × State :=
  match off with
  | 0x00 => (s.role, s)
  | 0x04 => (BitVec.ofNat 32 (s.journalLost.toNat * 2 ^ 31 + s.jfull.toNat * 2 ^ 29 + inFlight s), s)
  | 0x08 => (BitVec.ofNat 32 (creditSum s), s)
  | 0x0C => (BitVec.ofNat 32 (s.queues.filter (fun q => q.2.state == 2)).length, s)
  | 0x10 => (s.crcerr, { s with crcerr := 0 })
  | 0x14 => (s.dups, { s with dups := 0 })
  | 0x18 => (loWord s.jsn, s)
  | _ => (hiWord s.jsn, s)

/-- A read of a register (R14): its value and what the read clears or latches. `zone` is what PIN_STAT.ZONE samples. -/
def readReg (zone : BitVec 2) (n : RegName) (s : State) : Word × State :=
  match n with
  | .pin p off => readPin zone p off s
  | .timing p off => (readTiming p off s, s)
  | .pmu p off => (readPmu p off s, s)
  | .adc n => ((s.slice n).adc, s)
  | .tdc p off => readTdc p off s
  | .tiv n off => (readTiv n off s, s)
  | .eng e off => readEng e off (timerCatch e s)
  | .win n off => readWin n off s
  | .dps d off => readDps d off s
  | .mon m off => readMon m off s
  | .blk i off => (if off = 0 then (s.blk i).cfg else 0, s)
  | .awg k off => readAwg k off s
  | .dig k off => readDig k off s
  | .trg k off => readTrg k off s
  | .ag g off => readAg g off s
  | .port n off => readPort n off s
  | .fabric off => readFabric off s
  | .route i => (Tab.get 0x3F#32 s.routes i, s)
  | .mcast g => (Tab.get 0 s.mcast g, s)
  | .tim off => readTim off s
  | .tport n off => readTport n off s
  | .asym n e off => (readAsym n e off s, s)
  | .tpo i => (readTpo i s, s)
  | .tci i off => readTci i off s
  | .cal off => readCal off s
  | .flt off => (readFlt off s, s)
  | .fltSlot j => (spillSlot s j, s)
  | .fltAlarm w => (BitVec.ofNat 32 (alarmMap s / 2 ^ (32 * w)), s)
  | .fltSrc i second => (readFltSrc i second s, s)
  | .sup off => readSup off s
  | .bay k off => (readBay k off s, s)
  | .zone z off => readZone z off s
  | .td n => (signedWord (Tab.get ({} : Diode) s.thm.diodes n).temp, s)
  | .tdLim n => ((Tab.get ({} : Diode) s.thm.diodes n).lim, s)
  | .grn off => readGrn off s
  | .obs off => (readObs off s, s)
  | .obsCnt i hi => readCounter i hi s
  | .boot off => (readBoot off s, s)
  | .que off => readQue off s

/-! ## Writes that no row of their own makes -/

/-- The sites that hold a pin of a slice (R18). -/
def sitesOfSlice (s : State) (n : Nat) : List Nat := (slicePins n).filterMap (siteOfPin s)

/-- ADC_CTRL (R191, R209): the slice's ADC is under the sites of its pins (R20). -/
def writeAdc (a : Agent) (n : Nat) (v : Word) (s : State) : WRes :=
  let owned (t : Target) : Option Reason :=
    match sitesOfSlice s n with
    | [] => none
    | x :: l => when? (!(x :: l).any (fun y => t == .site y)) (rState Code.siteOwned x)
  let checks := match a with
    | .host c => [owned (c.target.getD .device), fenceCheck s [n] []]
    | .engine _ => []
  guarded checks (.done (s.updSlice n (fun x => { x with adc := v &&& 1#32 })))

/-- The checks of a Winnow write (R227): the site homed on the slice owns the unit; STREAM_ACTIVE while it is admitted. -/
def winChecks (a : Agent) (n : Nat) (s : State) : List (Option Reason) :=
  let reach := match a with
    | .host c => [siteOwned (c.target.getD .device) (siteOfHome s n) 0, fenceCheck s [n] []]
    | .engine _ => []
  reach ++ [when? (((siteOfHome s n).bind (siteAdmitted s)).isSome) (rState Code.streamActive)]

/-- Writes of a Winnow unit (R227). -/
def writeWin (a : Agent) (n off : Nat) (v : Word) (s : State) : WRes :=
  let put (f : Winnow → Winnow) : WRes := guarded (winChecks a n s) (.done (updWin n f s))
  let win (f : WinWindow → WinWindow) : WRes :=
    put (fun w => { w with windows := Tab.upd {} w.windows ((off - 0x080) / 32) f })
  match off with
  | 0x000 =>
    guarded [when? (decide (32 < fld v 20 6)) (badField 20)] (put (fun w => { w with ctrl := v &&& 0x03FF0001#32 }))
  | 0x008 => put (fun w => { w with pmask := setFld w.pmask 0 32 v.toNat })
  | 0x00C => put (fun w => { w with pmask := setFld w.pmask 32 32 v.toNat })
  | 0x010 => put (fun w => { w with seed := setFld w.seed 0 32 v.toNat })
  | 0x014 => put (fun w => { w with seed := setFld w.seed 32 32 v.toNat })
  | _ =>
    if 0x080 ≤ off ∧ off < 0x100 then
      match off % 32 with
      | 0x00 => win (fun x => { x with ws := setFld x.ws 0 32 v.toNat })
      | 0x04 => win (fun x => { x with ws := setFld x.ws 32 32 v.toNat })
      | 0x08 => win (fun x => { x with we := setFld x.we 0 32 v.toNat })
      | 0x0C => win (fun x => { x with we := setFld x.we 32 32 v.toNat })
      | 0x10 => win (fun x => { x with mode := v &&& 3#32 })
      | _ => put id
    else put id

/-- The fence row for an engine's registers (R361). -/
def engFence (a : Agent) (e : Nat) (s : State) : Option Reason :=
  match a with
  | .host _ => if e < 128 then fenceCheck s [e] [] else fenceCheck s [] [e - 128]
  | .engine _ => none

/-- A write of ENG_CTRL (R167, R187): EN acts at once, MODE and VEC wait for a boundary. -/
def writeEngCtrl (a : Agent) (e : Nat) (v : Word) (s : State) : WRes :=
  guarded [when? (decide (1 < fld v 16 2)) (badField 16), engFence a e s]
    (.done (s.updEng e (fun x => { x with ctrl := setBit x.ctrl 18 (bit v 18), ctrlPend := some (v &&& 0x00033FFF#32) })))

/-- Writes of an engine's registers (R167, R188). -/
def writeEng (a : Agent) (e off : Nat) (v : Word) (s : State) : WRes :=
  match off with
  | 0x000 => writeEngCtrl a e v s
  | 0x004 => guarded [engFence a e s] (.done (s.updEng e (fun x => { x with even := v &&& 0x3F#32 })))
  | 0x200 =>
    guarded [engFence a e s]
      (.done (s.updEng e (fun x => { x with mcInfo := if bit v 31 then setBit x.mcInfo 31 false else x.mcInfo })))
  | _ => guarded [engFence a e s] (.done s)

/-- Writes of the Granary's registers (R92, R116). -/
def writeGrn (off : Nat) (v : Word) (s : State) : WRes :=
  match off with
  | 0x010 => writeGrnRgn 0 v s
  | 0x014 => writeGrnRgn 1 v s
  | 0x050 =>
    guarded [when? (fld v 0 16 == 0) (badField 0)]
      (.done (s.updGrn (fun g => { g with scrub := setFld g.scrub 0 16 (fld v 0 16) })))
  | 0x054 => .done (s.updGrn (fun g => { g with warn := v &&& 0xFFFFF#32 }))
  | _ => .done s

/-- Writes of the supply registers (R461, R469, R480). -/
def writeSup (a : Agent) (off : Nat) (v : Word) (s : State) : WRes :=
  match off with
  | 0x000 => .done (s.updThm (fun t => { t with supCfg := v &&& 1#32 }))
  | 0x020 => writeSl0 a v s
  | _ => .done s

/-- Writes of a bay's sleep registers (R466, R468, R480). -/
def writeBay (k off : Nat) (v : Word) (s : State) : WRes :=
  match off with
  | 0x0 => guarded [when? (fld v 0 16 == 0) (badField 0)] (.done (s.updBay k (fun b => { b with cfg := v &&& 0xC000FFFF#32 })))
  | 0x8 => .done (s.updBay k (fun b => { b with wake := setFld b.wake 0 32 v.toNat }))
  | 0xC => .done (s.updBay k (fun b => { b with wake := setFld b.wake 32 32 v.toNat }))
  | _ => .done s

/-- A write of THM_TD_LIM (R32, R480), as THM.TD_LIMIT: LO not above HI. -/
def writeTdLim (n : Nat) (v : Word) (s : State) : WRes :=
  guarded [when? (decide (toSigned 16 (fld v 16 16) < toSigned 16 (fld v 0 16))) (badField 0)]
    (.done (s.updThm (fun t => { t with diodes := Tab.upd {} t.diodes n (fun d => { d with lim := v }) })))

/-- Writes of the queue registers (R329, R355). -/
def writeQue (off : Nat) (v : Word) (s : State) : WRes :=
  match off with
  | 0x00 => doDevPortroleWrite v s
  | 0x04 => doJournalLostClear v s
  | _ => .done s

/-- A write of a register (R13, R14): what its register's rule makes of it. -/
def writeReg (a : Agent) (n : RegName) (v : Word) (s : State) : WRes :=
  match n with
  | .pin p off => writePinReg a p off v s
  | .timing p off => writeTimingReg a p off v s
  | .pmu p off => writePmuReg a p off v s
  | .adc n => writeAdc a n v s
  | .tdc p off => writeTdcReg a p off v s
  | .tiv n _ => guarded [fenceCheck s [n] []] (.done s)
  | .eng e off => writeEng a e off v s
  | .win n off => writeWin a n off v s
  | .dps d off => writeDpsReg a d off v s
  | .mon m off => writeMonReg a m off v s
  | .blk i off => writeBlkReg i off v s
  | .awg k off => writeAwgReg a k off v s
  | .dig k off => writeDigReg k off v s
  | .trg k off => writeTrgReg k off v s
  | .ag g off => writeAgReg g off v s
  | .port n off => guarded [when? (portFenced s n) (rFault Code.fenced n)] (writePortReg n off v s)
  | .route i => writeRoute i v s
  | .mcast g => writeMcast g v s
  | .tim off => writeTimReg off v s
  | .tport n off => writeTportReg n off v s
  | .tci i off => writeTciReg i off v s
  | .cal off => writeCalReg off v s
  | .flt off => writeFltReg off v s
  | .fltAlarm w => .done (clearAlarms (v.toNat * 2 ^ (32 * w)) s)
  | .fltSrc i second => writeFltSrc i second v s
  | .sup off => writeSup a off v s
  | .bay k off => writeBay k off v s
  | .tdLim n => writeTdLim n v s
  | .grn off => writeGrn off v s
  | .que off => writeQue off v s
  | .fabric _ | .asym _ _ _ | .tpo _ | .fltSlot _ | .zone _ _ | .td _ | .obs _ | .obsCnt _ _ | .boot _ => .done s

/-! ## DEV.REG_READ and DEV.REG_WRITE (R364) -/

/-- A DEV.REG_READ: the prologue, then the read of the register that ADDR names; W6 its value. Reads are exempt from ownership and
from fences (R45, R361). -/
def hostRegRead (c : Cmd) (zone : BitVec 2) (s : State) : State :=
  runCmd { op := 0x001, scopes := 29 } c (fun s t => [lenCheck c 8, addrCheck s t (c.u 0 4)]) (fun _ _ => [])
    (fun _ s =>
      match regAt (c.u 0 4) with
      | none => s
      | some n =>
        let (v, s) := readReg zone n s
        complete c.key 0 0 0 v 0 [] s) s

/-- DEV.REG_READ. -/
def execDevRegRead (c : Cmd) (zone : BitVec 2) (s : State) : Host.Outcome State Fault Refusal := .next (hostRegRead c zone s)

/-- DEV.REG_WRITE of the register that ADDR names. -/
def doDevRegWrite (c : Cmd) (s : State) : State :=
  hostRegWrite c (fun s => match regAt (c.u 0 4) with
    | none => .done s
    | some n => writeReg (.host c) n (BitVec.ofNat 32 (c.u 4 4)) s) s

/-- DEV.REG_WRITE. -/
def execDevRegWrite (c : Cmd) (s : State) : Host.Outcome State Fault Refusal := .next (doDevRegWrite c s)

/-- TIM_TCI_LO_READ (R433): the DEV.REG_READ of TIM_TCI_LO of input i. -/
def doTimTciLoRead (c : Cmd) (i : Nat) (s : State) : State :=
  if regAt (c.u 0 4) = some (.tci i 0x8) then hostRegRead c 0 s else s

/-- TIM_TCI_LO_READ. -/
def execTimTciLoRead (c : Cmd) (i : Fin 4) (s : State) : Host.Outcome State Fault Refusal := .next (doTimTciLoRead c i.val s)

/-- ENG_CTRL_WRITE (R187). -/
def execEngCtrlWrite (a : Agent) (e : Fin 144) (v : BitVec 32) (s : State) : Host.Outcome State Fault Refusal :=
  .next (regRow (.eng e.val 0) v a noReach (writeEngCtrl a e.val v) s)

end Sys2Proof.Machine
end

