-- ==== Sys2Proof/Machine/Dump.lean ====
section
/-!
DEFINITION. The dump of a FATAL (R453 to R456): its sections, directory and header, and the end of its writing.
-/
namespace Sys2Proof.Machine

/-! ## Sections (R455) -/

/-- Sections of a dump. -/
def dumpSections : Nat := 11

/-- The most bytes of a section, by ID. -/
def sectionMax (id : Nat) : Nat :=
  match id with
  | 1 => 65536
  | 2 => 1048576
  | 3 => 16777216
  | 4 => 2097152
  | 5 => 262144
  | 6 => 25165824
  | 7 => 67108864
  | 8 => 1048576
  | 9 => 65536
  | 10 => 262144
  | _ => 1048576

/-- The register image of an address range: pairs of address and value, read without clearing. What the device measures then is
drawn anew for each register. -/
def regImage (s : State) (lo words : Nat) : List Byte :=
  (List.range words).flatMap (fun i =>
    let a := lo + 4 * i
    match regAt a with
    | none => []
    | some n => leBytes 4 a ++ leBytes 4 (readReg 0 n { s with freeNo := s.freeNo + a }).1.toNat)

/-- Every control-store entry as read, 136 bits in 32 bytes, by engine index. -/
def storeImage (s : State) : List Byte :=
  (List.range 144).flatMap (fun e =>
    (List.range (storeSize (isSliceEng e))).flatMap (fun a => leBytes 32 ((s.eng e).entry (BitVec.ofNat 14 a)).toNat))

/-- A section's bytes. Register images and control stores are the device's own; of the others the spec names the contents and
gives no layout, so their bytes and length are free within the bound (log entry 7). -/
def sectionBytes (s : State) (id : Nat) : List Byte :=
  match id with
  | 2 => regImage s 0x100 0x80 ++ regImage s 0x400 8 ++ regImage s 0x3000000 0x2500 ++ regImage s 0x3100000 0x500
      ++ regImage s 0x3200000 0x500 ++ regImage s 0x3300000 0xD0 ++ regImage s 0x4000000 0x16 ++ regImage s 0x5000000 0xC00
  | 3 => regImage s 0x1000000 0x200000
  | 4 => regImage s 0x2000000 0x400000
  | 6 => storeImage s
  | _ =>
    let n := fld s.flt.dump 16 16
    (List.range (Config.dumpLength n id % (sectionMax id + 1))).map (Config.dumpByte n id)

/-! ## Layout (R454) -/

/-- The first byte of a dump copy. -/
def dumpBase (s : State) (j : Nat) : Nat := ((j + 1) * slotsPerStack s - (if j = 0 then 576 else 544)) * slotSize

/-- The directory entry of a section. -/
def dirEntry (id status off : Nat) (b : List Byte) : List Byte :=
  leBytes 2 id ++ leBytes 1 status ++ leBytes 5 0 ++ leBytes 8 off ++ leBytes 8 b.length ++ leBytes 4 (crc32c b).toNat ++ leBytes 4 0

/-- Sections from an ID on with their offsets: the directory and the bytes from there. The first `k` sections are written. -/
def dumpBody (s : State) (k : Nat) : Nat → Nat → Nat → List Byte × List Byte
  | 0, _, _ => ([], [])
  | m + 1, id, off =>
    let b := if id ≤ k then sectionBytes s id else []
    let p := padMult 4096 b
    let r := dumpBody s k m (id + 1) (off + p.length)
    (dirEntry id (if id ≤ k then 0 else 1) off b ++ r.1, p ++ r.2)

/-- The header of a copy. -/
def dumpHeader (s : State) (j : Nat) (trunc single : Bool) : List Byte :=
  let f := s.flt
  let h := leBytes 4 0x5A444D50 ++ leBytes 2 1 ++ leBytes 2 dumpSections ++ leBytes 4 (fld f.dump 16 16) ++ leBytes 2 f.dumpSrc.toNat
    ++ leBytes 2 f.dumpEp.toNat ++ leBytes 8 f.dumpT.toNat ++ leBytes 4 f.dumpSeq.toNat ++ leBytes 1 j
    ++ leBytes 1 (trunc.toNat + 2 * single.toNat) ++ leBytes 2 s.devid.toNat ++ leBytes 4 s.boot.fwAct.toNat ++ leBytes 24 0
  h ++ leBytes 4 (crc32c h).toNat

/-- A copy: header, directory, sections from 0x1000. -/
def dumpImage (s : State) (j k : Nat) (trunc single : Bool) : List Byte :=
  let r := dumpBody s k dumpSections 1 0x1000
  padTo 0x1000 (dumpHeader s j trunc single ++ r.1) ++ r.2

/-! ## DUMP_COMPLETE (R453, R456) -/

/-- FLT_DUMP after a dump: NUMBER, VALID, LOCK, TRUNC, COPIES. -/
def dumpWord (w : Word) (trunc : Bool) (copies : Nat) : Word :=
  setFld (setBit (setBit (setBit (setFld w 16 16 (fld w 16 16 + 1)) 15 true) 14 true) 12 trunc) 10 2 copies

/-- The dump is written to the usable copies. How many sections a truncated one holds is free. -/
def writeDump (trunc : Bool) (s : State) : State :=
  let js := dumpStacks s
  let (v, s) := measure s
  let s := s.updFlt (fun f => { f with dump := dumpWord f.dump trunc (bitsToNat js) })
  let k := if trunc then v % dumpSections else dumpSections
  let t := forAll js (fun j t => grnStore (dumpBase s j) (dumpImage s j k trunc (js.length == 1)) t) s
  { t with freeNo := t.freeNo + 2 ^ 32 }

/-- DUMP_COMPLETE: at 50 ms or before; the warm reset follows, which RST_N holds while it is low (R492). -/
def doDumpComplete (trunc : Bool) (s : State) : State :=
  if s.flt.dumping then
    let (v, s) := measure s
    let s := writeDump trunc (advance (if trunc then 50 * msSteps else v % (50 * msSteps)) s)
    let low := s.flt.warmAfter
    let s := (countFatal s).updFlt (fun f => { f with dumping := false, warmAfter := false })
    if low then (beginWarm 4 s).updBoot (fun b => { b with held := true })
    else s.updBoot (fun b => { b with warmBusy := true, warmCause := 4 })
  else s

/-- DUMP_COMPLETE. -/
def execDumpComplete (truncated : Bool) (s : State) : Host.Outcome State Fault Refusal := .next (doDumpComplete truncated s)

end Sys2Proof.Machine
end

