-- ==== Sys2Proof/Machine/Eng.lean ====
section
/-!
DEFINITION. The ENG commands (R160, R173, R174, R368) and the engines' own events: calls taken, traps (R182 to R185), machine checks
(R179), the patrol and repairs (R181), loads (R175), MODE and VEC (R187).
-/
namespace Sys2Proof.Machine

/-! ## ENG.CALL (R160, R368) -/

/-- The engine that a slice or bay target names. -/
def Target.engNo : Target → Nat
  | .slice n => n
  | .bay k => 128 + k
  | _ => 0

/-- The engine of a command at slice or bay scope. -/
def engArg (c : Cmd) : Nat := (c.target.getD .device).engNo

/-- The fence row for an engine's slice or bay. -/
def engUnitFence (s : State) (e : Nat) : Option Reason := if e < 128 then fenceCheck s [e] [] else fenceCheck s [] [e - 128]

/-- Calls that the FIFO holds. -/
def callMax : Nat := 8

/-- The call that ENG.CALL asks for. -/
def callOf (c : Cmd) : Call :=
  let b := bufOf c 8
  { key := c.key, entry := BitVec.ofNat 14 (c.u 0 2), args := (List.range (c.u 2 1)).map (fun i => BitVec.ofNat 32 (c.u (0x10 + 4 * i) 4))
    first := b.first, count := b.count }

/-- ENG.CALL: the call waits in the FIFO, and completes when its routine ends it (R161). -/
def doEngCall (c : Cmd) (s : State) : State :=
  let e := engArg c
  let b := bufOf c 8
  runCmd { op := 0x400, scopes := 12 } c
    (fun s _ => [lenCheck c (0x10 + cdiv (4 * c.u 2 1) 8 * 8), when? (decide (storeSize (isSliceEng e) ≤ c.u 0 2)) (rFormat Code.entryRange 0),
      rng c 2 1 0 64, rsv c 3 5, bufField c 8 0 1024, bufRange s b])
    (fun s _ => [when? ((s.eng e).state == 3 && !(s.eng e).loading) (rState Code.engStopped), engUnitFence s e, bufFence s b,
      when? (!bit (s.eng e).ctrl 18) (rState Code.engDisabled), bufFree s b,
      when? (decide (callMax ≤ (s.eng e).calls.length)) (rResource Code.engCalls)])
    (fun _ s =>
      let s := if b.count = 0 then s else useStack c.key b.first (allocBuf b s)
      s.updEng e (fun x => { x with calls := x.calls ++ [callOf c] })) s

/-- ENG.CALL. -/
def execEngCall (c : Cmd) (s : State) : Host.Outcome State Fault Refusal := .next (doEngCall c s)

/-! ## ENG.STORE_MASTER (R173, R368) -/

/-- The engines that ENG.STORE_MASTER addresses, for an image of a kind (0 slice, 1 bay). -/
def storeEngines (t : Target) (kind : Nat) : List Nat :=
  match t with
  | .device => if kind = 0 then List.range 128 else (List.range 16).map (128 + ·)
  | t => [t.engNo]

/-- The kinds of image that a target takes. -/
def kindOk (t : Target) (kind : Nat) : Bool :=
  match t with
  | .device => decide (kind ≤ 1)
  | t => kind == (if isSliceEng t.engNo then 0 else 1)

/-- The first word that a store of this kind may not hold, by address (R151). -/
def firstBad (slice : Bool) : Nat → List MWord → Option Nat
  | _, [] => none
  | a, w :: l => if wordLegal slice w then firstBad slice (a + 1) l else some a

/-- The checks of an image, in the order of its header (R173): CS_IMAGE names the field's offset, UWORD the word's address. -/
def imageChecks (t : Target) (h : List Byte) (words : List Byte) : List (Option Reason) :=
  let kind := rdLe h 4 1
  let slice := kind == 0
  let n := rdLe h 8 4
  let bad (b : Bool) (o : Nat) : Option Reason := when? b (rFormat Code.csImage o)
  [bad (rdLe h 0 4 != 0x5A435331) 0, bad (!kindOk t kind) 4, bad (n == 0 || decide (storeSize slice < n)) 8,
   bad (crc32c (h.take 28) != BitVec.ofNat 32 (rdLe h 0x1C 4)) 0x1C, bad (crc32c words != BitVec.ofNat 32 (rdLe h 0x10 4)) 0x10,
   (firstBad slice 0 (wordsOf n words)).map (fun a => rFormat Code.uword a)]

/-- Bytes of an image's words, as its header counts them, at most a bay store. -/
def imageBytes (h : List Byte) : Nat := 16 * min (rdLe h 8 4) 16384

/-- ENG.STORE_MASTER: the unselected bank of every addressed engine. -/
def storeMaster (c : Cmd) (t : Target) (s : State) : State :=
  let a := c.u 0 4 * slotSize
  let s := useStack c.key (c.u 0 4) s
  let h := grnLoad a 32 s
  let n := imageBytes h
  let s := countUnits 690 a (32 + n) s
  match readUe s a (32 + n) with
  | some u => complete c.key 8 Code.memUe 0 (BitVec.ofNat 32 (32 * u)) (BitVec.ofNat 32 (32 * u / 2 ^ 32)) [] (foundUe u s)
  | none =>
    let words := grnLoad (a + 32) n s
    match firstFail (imageChecks t h words) with
    | some r => refuse c.key r s
    | none => completeOk c.key 0 (forAll (storeEngines t (rdLe h 4 1)) (fun e s => storeBank (!(s.eng e).bank) e h words s) s)

/-- ENG.STORE_MASTER. CS_BUSY while an addressed engine has a reload in progress. -/
def doEngStoreMaster (c : Cmd) (s : State) : State :=
  let slot := c.u 0 4
  let addressed (s : State) (t : Target) : List Nat := storeEngines t (rdLe (grnLoad (slot * slotSize) 32 s) 4 1)
  runCmd { op := 0x401, scopes := 13 } c
    (fun s _ => [lenCheck c 8, segSlot s slot 0])
    (fun s t => (match t with
        | .device => none
        | t => engUnitFence s t.engNo) :: readySlot s slot
      ++ [when? ((addressed s t).any (fun e => (s.eng e).reload.isSome)) (rState Code.csBusy)])
    (fun t s => storeMaster c t s) s

/-- ENG.STORE_MASTER. -/
def execEngStoreMaster (c : Cmd) (s : State) : Host.Outcome State Fault Refusal := .next (doEngStoreMaster c s)

/-! ## ENG.RELOAD (R174) and loads (R175) -/

/-- ENG.RELOAD: begins at once on an IDLE or STOPPED engine, else when the engine is next IDLE. -/
def doEngReload (c : Cmd) (s : State) : State :=
  let e := engArg c
  let busy (s : State) : Bool := (s.eng e).state == 1 || (s.eng e).state == 2
  let bank (s : State) : Bool := (s.eng e).bank != (c.u 0 1 == 1)
  runCmd { op := 0x402, scopes := 12 } c
    (fun _ _ => [lenCheck c 8, rng c 0 1 0 1, rng c 1 1 0 1])
    (fun s _ => [when? (busy s && c.u 1 1 == 0) (rState Code.engBusy), when? (!bankValid s (bank s) e) (rState Code.csEmpty),
      when? (s.eng e).reload.isSome (rState Code.csBusy)])
    (fun _ s =>
      let t := s.updEng e (fun x => { x with reload := some (bank s, c.key) })
      if busy s then t else beginLoad e t) s

/-- ENG.RELOAD. -/
def execEngReload (c : Cmd) (s : State) : Host.Outcome State Fault Refusal := .next (doEngReload c s)

/-- CS_LOAD_DONE: the load's attempts are over (R175); `ok1` and `ok2` say whether the store read back sound. -/
def doCsLoadDone (e : Nat) (ok1 ok2 : Bool) (s : State) : State :=
  let x := s.eng e
  if s.serving ∧ x.loading = true then
    match x.reload with
    | none => s
    | some (b, k) =>
      match loadAttempts s b e ok1 ok2 with
      | some r => complete k 0 0 0 r.2.1 r.2.2 [] (loadDone b e r s)
      | none => completeBad k 8 Code.csVerify 0 (loadFailed e s)
  else s

/-- CS_LOAD_DONE. -/
def execCsLoadDone (e : Fin 144) (ok1 ok2 : Bool) (s : State) : Host.Outcome State Fault Refusal := .next (doCsLoadDone e.val ok1 ok2 s)

/-! ## MODE and VEC (R187) -/

/-- A written MODE and VEC take effect. -/
def Engine.applyMode (x : Engine) : Engine :=
  match x.ctrlPend with
  | none => x
  | some v => { x with ctrl := (x.ctrl &&& 0x00040000#32) ||| (v &&& 0x00033FFF#32), ctrlPend := none }

/-- ENG_MODE_APPLY: at a word boundary with no group open and no handler running. -/
def doEngModeApply (e : Nat) (s : State) : State :=
  let x := s.eng e
  if x.state ≠ 2 ∧ x.group = false ∧ x.cur = none then s.updEng e Engine.applyMode else s

/-- ENG_MODE_APPLY. -/
def execEngModeApply (e : Fin 144) (s : State) : Host.Outcome State Fault Refusal := .next (doEngModeApply e.val s)

/-! ## Taking a call (R160) -/

/-- The routine of a call begins: the flags clear, the pc is its entry. -/
def takeCall (c : Call) (l : List Call) (next : Nat) (x : Engine) : Engine :=
  { x.applyMode with
    calls := l, open? := some { call := c, left := c.args }, z := false, n := false, c := false, v := false, uf := 0, partialFx := false
    sp := false, groupEnd := false, mustRun := false, cur := none, waiting := false, pc := c.entry, state := 1, nextAt := next }

/-- CALL_TAKE: the idle engine takes the oldest call; a pending event other than CALLQ is served first (R183). -/
def doCallTake (e : Nat) (s : State) : State :=
  let s := timerCatch e s
  let x := s.eng e
  if s.serving ∧ x.state = 0 ∧ x.reload = none ∧ takeable s e = 0 then
    match x.calls with
    | [] => s
    | c :: l => traceEngine 0 e 0 (s.updEng e (takeCall c l (nextCycle s 1)))
  else s

/-- CALL_TAKE. -/
def execCallTake (e : Fin 144) (s : State) : Host.Outcome State Fault Refusal := .next (doCallTake e.val s)

/-! ## Traps (R182 to R185) -/

/-- MODE is poll. -/
def Engine.poll (x : Engine) : Bool := fld x.ctrl 16 2 == 1

/-- SP of the entry at the pc: in a WAIT that holds, the safe point of the WAIT itself. -/
def Engine.heldSp (x : Engine) : Bool := x.waiting && mwSp ((x.entry x.pc).setWidth 128)

/-- The engine is at a boundary where it takes an event (R164, R183, R186): idle, or between words with no group open and, in poll
mode, after a safe point; a word that fails parity is a machine check first (R181). -/
def trapReady (s : State) (e : Nat) : Bool :=
  let x := (s.eng e).applyMode
  s.serving && x.reload.isNone &&
    (x.state == 0 ||
     (x.state == 1 && x.cur.isNone && !x.mustRun && !x.group && syndrome (x.entry x.pc) == 0 && !x.limitOver s.mono
        && (!x.poll || x.sp || x.heldSp)))

/-- The information word (R185). -/
def trapInfo (s : State) (e cause : Nat) : Word :=
  let x := (s.eng e).applyMode
  let idle := x.state == 0
  let origin := if idle then 2 else x.poll.toNat
  BitVec.ofNat 32 (origin * 2 ^ 30 + (!idle && x.partialFx).toNat * 2 ^ 29 + (!idle && x.groupEnd).toNat * 2 ^ 28 + x.waiting.toNat * 2 ^ 27
    + cause * 2 ^ 24 + pendOf s e * 2 ^ 18 + x.pc.toNat)

/-- The save area at an entry (R184): what is left of a WAIT's limit counts in cycles. -/
def saveOf (info : Word) (mono : Nat) (x : Engine) : SaveArea :=
  { info := info, flags := BitVec.ofNat 32 (x.uf.toNat * 16 + x.aluf)
    wait := if x.waiting && x.waitEnd != 0 then BitVec.ofNat 32 (cdiv (x.waitEnd - mono) eclkSteps) else 0
    sr := x.sr, lc := x.lc }

/-- The handler begins (R184): RUN_END and TIMER clear when they are taken (R182). -/
def enterHandler (e cause : Nat) (info : Word) (mono next : Nat) (x : Engine) : Engine :=
  let x := x.applyMode
  let y := { x with
    save := saveOf info mono x, z := false, n := false, c := false, v := false, idleOrigin := x.state == 0, state := 2
    waiting := false, waitEnd := 0, groupEnd := false, sp := false, cur := none, nextAt := next
    latched := if cause = 4 ∨ cause = 3 then setBit x.latched cause false else x.latched
    pc := engAddr e (fld x.ctrl 0 14) }
  y.setSr 15 info

/-- TRAP_ENTRY: at the boundary, the highest enabled pending event. -/
def doTrapEntry (e : Nat) (s : State) : State :=
  let t := groupCatch e (timerCatch e (if (s.eng e).state = 1 then advanceMono (s.eng e).nextAt s else s))
  match topEvent (takeable t e) with
  | none => s
  | some i =>
    if trapReady t e then
      let info := trapInfo t e i
      traceEngine 1 e info (t.updEng e (enterHandler e i info t.mono (nextCycle t 1)))
    else s

/-- TRAP_ENTRY. -/
def execTrapEntry (e : Fin 144) (s : State) : Host.Outcome State Fault Refusal := .next (doTrapEntry e.val s)

/-! ## Upsets of the control store (R169, R179, R181) -/

/-- An entry after an upset: some groups fail their check; which bits are inverted is free. -/
def upsetEntry (n : Nat) (x : BitVec 136) : BitVec 136 :=
  let y := x ^^^ Config.upset n
  if syndrome y = 0 then y ^^^ 1#136 else y

/-- The entry at an address fails parity: it already does, or an upset has struck it. -/
def spoilEntry (e : Nat) (a : BitVec 14) (s : State) : State :=
  if syndrome ((s.eng e).entry a) = 0 then
    let (n, s) := draw s
    s.updEng e (fun x => { x with store := Tab.set x.store a.toNat (upsetEntry n (x.entry a)) })
  else s

/-- MACHINE_CHECK: a word fetched for execution fails parity; nothing of it acts. -/
def doMachineCheck (e : Nat) (s : State) : State :=
  let x := s.eng e
  if engRunning s e ∧ x.cur = none ∧ x.waiting = false then
    let s := timerCatch e (advanceMono x.nextAt s)
    machineCheck e (spoilEntry e x.pc s)
  else s

/-- MACHINE_CHECK. -/
def execMachineCheck (e : Fin 144) (s : State) : Host.Outcome State Fault Refusal := .next (doMachineCheck e.val s)

/-- CS_PATROL: the patrol finds a bad entry; it waits for its repair and CS_PATROL is raised. -/
def doCsPatrol (e : Nat) (a : BitVec 14) (s : State) : State :=
  let x := s.eng e
  if s.serving ∧ x.loading = false ∧ a.toNat < storeSize (isSliceEng e) ∧ a ∉ x.repair then
    raise srcCsPatrol 0 0 ((spoilEntry e a s).updEng e (fun x => { x with repair := x.repair ++ [a] }))
  else s

/-- CS_PATROL. -/
def execCsPatrol (e : Fin 144) (addr : BitVec 14) (s : State) : Host.Outcome State Fault Refusal := .next (doCsPatrol e.val addr s)

/-- CS_REPAIR: on an idle engine the bad entries alone are rewritten from the selected bank, under the checks of R175. -/
def doCsRepair (e : Nat) (s : State) : State :=
  let x := s.eng e
  if s.serving ∧ x.state = 0 ∧ x.repair ≠ [] then
    match loadAttempts s x.bank e true true with
    | some r =>
      s.updEng e (fun x => { x with
        repair := [], store := x.repair.foldl (fun t a => Tab.set t a.toNat (entryOf (r.1.getD a.toNat haltWord))) x.store })
    | none => loadFailed e s
  else s

/-- CS_REPAIR. -/
def execCsRepair (e : Fin 144) (s : State) : Host.Outcome State Fault Refusal := .next (doCsRepair e.val s)

end Sys2Proof.Machine
end

