-- ==== Sys2Proof/Machine/Micro.lean ====
section
/-!
DEFINITION. The sequencer and the ALU of the engines (R152 to R156, R186): one part of a microword each. The ALU acts before the
interface, except where its operand is what the interface returns, and the sequencer acts last.
-/
namespace Sys2Proof.Machine

/-! ## The ALU (R155, R156) -/

/-- What an ALU operation gives: its result, carry and overflow. -/
structure AluOut where
  res : Word
  c : Bool := false
  v : Bool := false
  deriving DecidableEq, Repr

/-- The sum, its carry out and signed overflow. -/
def aluSum (a b : Word) : AluOut :=
  { res := a + b, c := decide (2 ^ 32 ≤ a.toNat + b.toNat), v := (a + b).toInt != a.toInt + b.toInt }

/-- The difference; C is no borrow. -/
def aluDiff (a b : Word) : AluOut :=
  { res := a - b, c := decide (b.toNat ≤ a.toNat), v := (a - b).toInt != a.toInt - b.toInt }

/-- The B operand (R156). -/
def aluB (w : MWord) (x : Engine) (ret : Word) : Word :=
  match mwBsel w with
  | 0 => x.srv (mwSb w)
  | 1 => BitVec.ofNat 32 (mwImm w)
  | 2 => ret
  | _ => x.lcv (mwSb w % 4)

/-- Writes the ALU's destination (R156). -/
def aluDest (w : MWord) (v : Word) (x : Engine) : Engine :=
  if mwDst w < 16 then x.setSr (mwDst w) v else x.setLc (mwDst w - 16) v

/-- The ALU's effect: the flags, the destination unless the operation only compares, and whether LC[LCS] is written. -/
def aluWrite (store : Bool) (w : MWord) (o : AluOut) (c : WordCur) (x : Engine) : Engine :=
  let y := { x with
    z := o.res == 0, n := bit o.res 31, c := o.c, v := o.v
    cur := some { c with aluDone := true, aluLc := store && mwDst w == 16 + mwLcs w } }
  if store then aluDest w o.res y else y

/-- A part of a word by the ALU: the word is begun, and the ALU acts when it may. -/
def aluRow (code : Nat) (store : Bool) (f : Word → Word → AluOut) (e : Nat) (w : MWord) (s : State) : State :=
  if wordAt s e w ∧ mwAlu w = code then
    let s := beginWord e w s
    match (s.eng e).cur with
    | none => s
    | some c =>
      if aluReady w c then
        s.updEng e (fun x => aluWrite store w (f (x.srv (mwSa w)) (aluB w x c.ret)) c x)
      else s
  else s

/-- ALU NOP: the word begins; flags and registers stay. -/
def doAluNop (e : Nat) (w : MWord) (s : State) : State := if wordAt s e w ∧ mwAlu w = 0 then beginWord e w s else s

/-- ALU_NOP. -/
def execAluNop (e : Fin 144) (w : BitVec 128) (s : State) : Host.Outcome State Fault Refusal := .next (doAluNop e.val w s)

/-- ALU_MOV. -/
def execAluMov (e : Fin 144) (w : BitVec 128) (s : State) : Host.Outcome State Fault Refusal :=
  .next (aluRow 1 true (fun _ b => { res := b }) e.val w s)

/-- ALU_ADD. -/
def execAluAdd (e : Fin 144) (w : BitVec 128) (s : State) : Host.Outcome State Fault Refusal := .next (aluRow 2 true aluSum e.val w s)

/-- ALU_SUB. -/
def execAluSub (e : Fin 144) (w : BitVec 128) (s : State) : Host.Outcome State Fault Refusal := .next (aluRow 3 true aluDiff e.val w s)

/-- ALU_CMP: A − B, flags only. -/
def execAluCmp (e : Fin 144) (w : BitVec 128) (s : State) : Host.Outcome State Fault Refusal := .next (aluRow 4 false aluDiff e.val w s)

/-- ALU_AND. -/
def execAluAnd (e : Fin 144) (w : BitVec 128) (s : State) : Host.Outcome State Fault Refusal :=
  .next (aluRow 5 true (fun a b => { res := a &&& b }) e.val w s)

/-- ALU_OR. -/
def execAluOr (e : Fin 144) (w : BitVec 128) (s : State) : Host.Outcome State Fault Refusal :=
  .next (aluRow 6 true (fun a b => { res := a ||| b }) e.val w s)

/-- ALU_XOR. -/
def execAluXor (e : Fin 144) (w : BitVec 128) (s : State) : Host.Outcome State Fault Refusal :=
  .next (aluRow 7 true (fun a b => { res := a ^^^ b }) e.val w s)

/-- ALU_SHL: A shifted left by B[4:0]. -/
def execAluShl (e : Fin 144) (w : BitVec 128) (s : State) : Host.Outcome State Fault Refusal :=
  .next (aluRow 8 true (fun a b => { res := a <<< fld b 0 5 }) e.val w s)

/-- ALU_SHR: A shifted right, logical, by B[4:0]. -/
def execAluShr (e : Fin 144) (w : BitVec 128) (s : State) : Host.Outcome State Fault Refusal :=
  .next (aluRow 9 true (fun a b => { res := a >>> fld b 0 5 }) e.val w s)

/-- ALU_SAR: A shifted right, arithmetic, by B[4:0]. -/
def execAluSar (e : Fin 144) (w : BitVec 128) (s : State) : Host.Outcome State Fault Refusal :=
  .next (aluRow 10 true (fun a b => { res := a.sshiftRight (fld b 0 5) }) e.val w s)

/-- ALU_MUL: the low 32 bits of the signed product. -/
def execAluMul (e : Fin 144) (w : BitVec 128) (s : State) : Host.Outcome State Fault Refusal :=
  .next (aluRow 11 true (fun a b => { res := a * b }) e.val w s)

/-! ## The sequencer (R153, R186) -/

/-- A part of a word by the sequencer: the word is begun, and once ALU and interface have acted it goes on. -/
def seqRow (code : Nat) (f : WordCur → State → State) (e : Nat) (w : MWord) (s : State) : State :=
  if wordAt s e w ∧ mwSeq w = code then
    let s := beginWord e w s
    match (s.eng e).cur with
    | none => s
    | some c => if c.aluDone && c.ifDone then f c s else s
  else s

/-- PC + 1. -/
def pcNext (s : State) (e : Nat) : Nat := (s.eng e).pc.toNat + 1

/-- SEQ_NEXT. -/
def execSeqNext (e : Fin 144) (w : BitVec 128) (s : State) : Host.Outcome State Fault Refusal :=
  .next (seqRow 0 (fun _ s => endWord e.val w true (pcNext s e.val) s) e.val w s)

/-- SEQ_JUMP: TGT if c, else PC + 1. -/
def execSeqJump (e : Fin 144) (w : BitVec 128) (s : State) : Host.Outcome State Fault Refusal :=
  .next (seqRow 1 (fun c s => endWord e.val w true (if c.cond then mwTgt w else pcNext s e.val) s) e.val w s)

/-- CALL: if c, SR[15] takes PC + 1 and the engine goes to TGT; else PC + 1. -/
def seqCallPart (e : Nat) (w : MWord) (c : WordCur) (s : State) : State :=
  let n := pcNext s e
  if c.cond then endWord e w true (mwTgt w) (s.updEng e (fun x => x.setSr 15 (BitVec.ofNat 32 n))) else endWord e w true n s

/-- SEQ_CALL. -/
def execSeqCall (e : Fin 144) (w : BitVec 128) (s : State) : Host.Outcome State Fault Refusal :=
  .next (seqRow 2 (seqCallPart e.val w) e.val w s)

/-- SEQ_RET: SR[15], low bits, if c; else PC + 1. -/
def execSeqRet (e : Fin 144) (w : BitVec 128) (s : State) : Host.Outcome State Fault Refusal :=
  .next (seqRow 3 (fun c s =>
    endWord e.val w true (if c.cond then ((s.eng e.val).srv 15).toNat else pcNext s e.val) s) e.val w s)

/-- LOOP: the counter's value at the word's start counts down, unless the ALU has written it; the branch is decided on it. -/
def seqLoopPart (e : Nat) (w : MWord) (c : WordCur) (s : State) : State :=
  let v := if c.lc = 0 then 0 else c.lc - 1
  let next := if v ≠ 0 ∧ c.cond then mwTgt w else pcNext s e
  endWord e w true next (if c.aluLc then s else s.updEng e (fun x => x.setLc (mwLcs w) v))

/-- SEQ_LOOP. -/
def execSeqLoop (e : Fin 144) (w : BitVec 128) (s : State) : Host.Outcome State Fault Refusal :=
  .next (seqRow 4 (seqLoopPart e.val w) e.val w s)

/-- SEQ_WAIT: holds at PC until c (`beginWord`), then PC + 1. -/
def execSeqWait (e : Fin 144) (w : BitVec 128) (s : State) : Host.Outcome State Fault Refusal :=
  .next (seqRow 5 (fun _ s => endWord e.val w true (pcNext s e.val) s) e.val w s)

/-- SEQ_DISP: if c, TGT with bits [3:0] from SR[SA]. -/
def execSeqDisp (e : Fin 144) (w : BitVec 128) (s : State) : Host.Outcome State Fault Refusal :=
  .next (seqRow 6 (fun c s =>
    endWord e.val w true
      (if c.cond then mwTgt w / 16 * 16 + fld ((s.eng e.val).srv (mwSa w)) 0 4 else pcNext s e.val) s) e.val w s)

/-- HALT: closes an open group, ends an open call OK with detail 0, and makes the engine idle, handler and routine together. It
chooses no next address: PC stays. -/
def seqHaltPart (e : Nat) (w : MWord) (_ : WordCur) (s : State) : State :=
  let s := endWord e w true (s.eng e).pc.toNat s
  traceEngine 3 e 0 (engIdle e (endCall e 0 0 0 s))

/-- SEQ_HALT. -/
def execSeqHalt (e : Fin 144) (w : BitVec 128) (s : State) : Host.Outcome State Fault Refusal :=
  .next (seqRow 7 (seqHaltPart e.val w) e.val w s)

/-- The save area comes back (R186); with `keep` SR[0] to SR[7] keep the handler's values. A holding WAIT holds again with the
count that was left. -/
def restoreSave (keep : Bool) (now : Nat) (x : Engine) : Engine :=
  let v := x.save
  let held := bit v.info 27
  { x with
    state := 1, pc := BitVec.ofNat 14 (fld v.info 0 14), lc := v.lc
    sr := (List.range 16).map (fun i => (i, if keep && decide (i < 8) then x.srv i else Tab.get 0 v.sr i))
    z := bit v.flags 3, n := bit v.flags 2, c := bit v.flags 1, v := bit v.flags 0, uf := BitVec.ofNat 4 (fld v.flags 4 4)
    waiting := held, waitEnd := if held && v.wait != 0 then now + v.wait.toNat * eclkSteps else 0
    partialFx := bit v.info 29, mustRun := true, cur := none }

/-- RESUME: the handler ends; after an entry from idle the engine is idle again, else the routine goes on. Outside a handler the
engine goes to PC + 1. -/
def seqResumePart (e : Nat) (w : MWord) (_ : WordCur) (s : State) : State :=
  if (s.eng e).state = 2 then
    let s := endWord e w true (pcNext s e) s
    let idle := (s.eng e).idleOrigin
    let s := s.updEng e (restoreSave (bit w 0) (s.eng e).nextAt)
    traceEngine 2 e 0 (if idle then engIdle e s else s)
  else endWord e w true (pcNext s e) s

/-- SEQ_RESUME. -/
def execSeqResume (e : Fin 144) (w : BitVec 128) (s : State) : Host.Outcome State Fault Refusal :=
  .next (seqRow 8 (seqResumePart e.val w) e.val w s)

/-- WAIT_TIMEOUT (R153): a WAIT that has run CNT cycles without its condition goes to TGT; its other parts do not act. -/
def doWaitTimeout (e : Nat) (w : MWord) (s : State) : State :=
  let x := s.eng e
  if engRunning s e ∧ syndrome (x.entry x.pc) = 0 ∧ (x.entry x.pc).setWidth 128 = w ∧ x.waiting = true ∧ x.waitEnd ≠ 0 then
    let s := timerCatch e (advanceMono x.waitEnd s)
    if x.limitOver s.mono || !condOf s e w then endWord e w false (mwTgt w) s else s
  else s

/-- WAIT_TIMEOUT. -/
def execWaitTimeout (e : Fin 144) (w : BitVec 128) (s : State) : Host.Outcome State Fault Refusal := .next (doWaitTimeout e.val w s)

/-- ENGINE_TIMER_ZERO (R154): the timer runs to 0. -/
def doEngineTimerZero (e : Nat) (s : State) : State :=
  if (s.eng e).timerEnd = 0 then s else timerCatch e (advanceMono (s.eng e).timerEnd s)

/-- ENGINE_TIMER_ZERO. -/
def execEngineTimerZero (e : Fin 144) (s : State) : Host.Outcome State Fault Refusal := .next (doEngineTimerZero e.val s)

/-- GROUP_OVERRUN (R163): the 64th cycle of an open group ends. -/
def doGroupOverrun (e : Nat) (s : State) : State :=
  if (s.eng e).group then groupCatch e (advanceMono ((s.eng e).groupAt + groupCycles * eclkSteps) s) else s

/-- GROUP_OVERRUN. -/
def execGroupOverrun (e : Fin 144) (s : State) : Host.Outcome State Fault Refusal := .next (doGroupOverrun e.val s)

end Sys2Proof.Machine
end

