-- ==== Sys2Proof/Machine/Ifu.lean ====
section
/-!
DEFINITION. The interface units of the engines (R148, R157 to R159): one operation of a microword each. An operation gives the value
that it returns and the state after it; an accepted operation clears REFUSE, a refused one sets it and changes nothing else, and a
read leaves it.
-/
namespace Sys2Proof.Machine

/-! ## The frame of an operation -/

/-- A part of a word by the interface: the word is begun, and the operation acts when it may. `vis` marks the visible effects of
R185. -/
def ifuRow (unit op : Nat) (vis : Bool) (f : State → Word × State) (e : Nat) (w : MWord) (s : State) : State :=
  if wordAt s e w ∧ mwIfu w = unit ∧ mwIfop w = op ∧ op < unitOps (isSliceEng e) unit then
    let s := beginWord e w s
    match (s.eng e).cur with
    | none => s
    | some c =>
      if ifReady w c then
        let r := f s
        r.2.updEng e (fun x => { x with cur := some { c with ret := r.1, ifDone := true }
                                        partialFx := x.partialFx || (vis && x.state == 1) })
      else s
  else s

/-- The operation is refused (R159). -/
def ifuNo (e : Nat) (s : State) : Word × State := (0, setRefuse e true s)

/-- The operation is accepted and returns `v`. -/
def ifuOk (e : Nat) (v : Word) (s : State) : Word × State := (v, setRefuse e false s)

/-- Accepted when every check passes, else refused. -/
def ifuGuard (e : Nat) (checks : List (Option Reason)) (f : State → State) (s : State) : Word × State :=
  if (firstFail checks).isSome then ifuNo e s else ifuOk e 0 (f s)

/-- The value of SR[IFA]. -/
def ifArg (s : State) (e : Nat) (w : MWord) : Word := (s.eng e).srv (mwIfa w)

/-! ## PIN and BAY -/

/-- The register that a PIN operation names (R157). -/
def ifuPinName (e : Nat) (w : MWord) : Option RegName :=
  if fld w 0 2 = 0 then sliceReg (if bit w 31 then fld w 24 7 else e) (fld w 0 12) else none

/-- The register that a BAY operation names. -/
def ifuBayName (e : Nat) (w : MWord) : Option RegName :=
  if fld w 0 2 = 0 then bayReg (if isSliceEng e then fld w 20 4 else engBay e) (fld w 0 20) else none

/-- The PIN unit reaches a register: those of the pins in reach, and what their slice's pins share (R148). -/
def pinUnitReach (s : State) (e : Nat) (n : RegName) : Bool :=
  match n with
  | .pin p _ | .timing p _ | .pmu p _ | .tdc p _ => engPin s e p
  | .adc n | .tiv n _ => engPin s e (2 * n) || engPin s e (2 * n + 1)
  | _ => false

/-- The BAY unit reaches a register (R148). -/
def bayUnitReach (s : State) (e : Nat) (n : RegName) : Bool :=
  match n with
  | .dps d _ => engDps s e d
  | .mon m _ => engMon s e m
  | .awg k _ | .dig k _ | .trg k _ => engBayUnit e k
  | .blk i _ => engBayUnit e (i / 4)
  | _ => false

/-- A read by an engine: the word stalls four cycles when it takes the value as its operand (R152, R166). -/
def ifuRead (e : Fin 144) (w : MWord) (zone : BitVec 2) (n : Option RegName) (reach : State → RegName → Bool) (s : State) : Word × State :=
  match n with
  | none => ifuNo e.val s
  | some n =>
    if reach s n then readReg zone n (if mwBsel w = 2 then advance (4 * eclkSteps) s else s) else ifuNo e.val s

/-- A write by an engine (R158). -/
def ifuWrite (e : Fin 144) (w : MWord) (n : Option RegName) (reach : State → RegName → Bool) (s : State) : Word × State :=
  match n with
  | none => ifuNo e.val s
  | some n =>
    if reach s n then
      match writeReg (.engine e) n (ifArg s e.val w) s with
      | .done t => ifuOk e.val 0 t
      | .later t => ifuOk e.val 0 t
      | .refused _ => ifuNo e.val s
    else ifuNo e.val s

/-- IFU_PIN_READ. -/
def execIfuPinRead (e : Fin 144) (w : BitVec 128) (zone : BitVec 2) (s : State) : Host.Outcome State Fault Refusal :=
  .next (ifuRow 1 0 false (fun s => ifuRead e w zone (ifuPinName e.val w) (fun s => pinUnitReach s e.val) s) e.val w s)

/-- IFU_PIN_WRITE. -/
def execIfuPinWrite (e : Fin 144) (w : BitVec 128) (s : State) : Host.Outcome State Fault Refusal :=
  .next (ifuRow 1 1 true (fun s => ifuWrite e w (ifuPinName e.val w) (fun s => pinUnitReach s e.val) s) e.val w s)

/-- IFU_BAY_READ. -/
def execIfuBayRead (e : Fin 144) (w : BitVec 128) (s : State) : Host.Outcome State Fault Refusal :=
  .next (ifuRow 10 0 false (fun s => ifuRead e w 0 (ifuBayName e.val w) (fun s => bayUnitReach s e.val) s) e.val w s)

/-- IFU_BAY_WRITE. -/
def execIfuBayWrite (e : Fin 144) (w : BitVec 128) (s : State) : Host.Outcome State Fault Refusal :=
  .next (ifuRow 10 1 true (fun s => ifuWrite e w (ifuBayName e.val w) (fun s => bayUnitReach s e.val) s) e.val w s)

/-! ## PMU (R189 to R202, R158) -/

/-- A command holds the pin's PMU. -/
def pmuTaken (s : State) (p : Nat) : Bool := (s.pin p).pmu.holder == 2

/-- PMU.CONN: the pin is selected; its PMU enters MV unless the engine holds it (R191). -/
def pmuConn (e : Nat) (w : MWord) (senseOpen : Bool) (s : State) : Word × State :=
  let p := 2 * e + (bit w 0).toNat
  if !engPin s e p || pmuTaken s p then ifuNo e s
  else
    let sel (s : State) : State := s.updEng e (fun x => { x with sel := bit w 0 })
    if (s.pin p).pmu.mode ≠ 0 then ifuOk e 0 (sel s)
    else ifuGuard e (pmuEnterChecks 1 3 0 p s)
      (fun s => sel (pmuEnter 1 3 (fld (s.pin p).pmu.ctrl 8 4) 0 senseOpen p s)) s

/-- PMU.DISC (R191, R195). -/
def pmuDisc (e : Nat) (s : State) : Word × State :=
  let p := selPin s e
  if !engPin s e p || pmuTaken s p then ifuNo e s
  else ifuOk e 0 (pmuOff p { cls := 6, code := Code.pmuReleased, detail := p } s)

/-- PMU.FV and PMU.FI: the ranges of R192, the checks of R190. From OFF the Kelvin check's outcome is measured (R194). -/
def pmuForce (mode : Nat) (ok : Nat → Int → Bool) (e : Nat) (w : MWord) (s : State) : Word × State :=
  let p := selPin s e
  let r := fld w 0 4
  let v := (ifArg s e w).toInt
  if !engPin s e p || decide (7 < r) || !ok r v then ifuNo e s
  else ifuGuard e (pmuEnterChecks 1 mode r p s)
    (fun s =>
      let (m, s) := if (s.pin p).pmu.mode = 0 ∧ bit (s.pin p).ctrl 19 then measure s else (0, s)
      pmuEnter 1 mode r v (decide (m % 2 = 1)) p s) s

/-- PMU.MEAS: IMM[0] the kind, IMM[15:8] the samples, 0 read as 1. -/
def pmuMeas (e : Nat) (w : MWord) (s : State) : Word × State :=
  let p := selPin s e
  let kind := bit w 0
  if !engPin s e p || pmuTaken s p || measModeBad kind (s.pin p) then ifuNo e s
  else ifuOk e 0 (measRequest kind (max (fld w 8 8) 1) none p s)

/-- The limit of a value that PMU.READ returns (R158). -/
def pmuReadMax : Int := 2147483647

/-- PMU.READ: clears PMU_RDY; SAT when the result saturated or passes the limit. -/
def pmuRead (e : Nat) (s : State) : Word × State :=
  let p := selPin s e
  if !engPin s e p || pmuTaken s p then ifuNo e s
  else
    let u := (s.pin p).pmu
    let v := max (-pmuReadMax) (min pmuReadMax u.res)
    (signedWord v, (s.updPin p (fun x => { x with pmu := { x.pmu with stat := setBit x.pmu.stat 2 false } })).updEng e
      (fun x => { x with sat := bit u.stat 1 || v != u.res }))

/-- IFU_PMU_CONN. -/
def execIfuPmuConn (e : Fin 144) (w : BitVec 128) (senseOpen : Bool) (s : State) : Host.Outcome State Fault Refusal :=
  .next (ifuRow 2 0 true (pmuConn e.val w senseOpen) e.val w s)

/-- IFU_PMU_DISC. -/
def execIfuPmuDisc (e : Fin 144) (w : BitVec 128) (s : State) : Host.Outcome State Fault Refusal :=
  .next (ifuRow 2 1 true (pmuDisc e.val) e.val w s)

/-- IFU_PMU_FV: SR[IFA] microvolts. -/
def execIfuPmuFv (e : Fin 144) (w : BitVec 128) (s : State) : Host.Outcome State Fault Refusal :=
  .next (ifuRow 2 2 true (pmuForce 1 (fun _ v => forceVOk v) e.val w) e.val w s)

/-- IFU_PMU_FI: SR[IFA] picoamperes. -/
def execIfuPmuFi (e : Fin 144) (w : BitVec 128) (s : State) : Host.Outcome State Fault Refusal :=
  .next (ifuRow 2 3 true (pmuForce 2 forceIOk e.val w) e.val w s)

/-- IFU_PMU_MEAS. -/
def execIfuPmuMeas (e : Fin 144) (w : BitVec 128) (s : State) : Host.Outcome State Fault Refusal :=
  .next (ifuRow 2 4 true (pmuMeas e.val w) e.val w s)

/-- IFU_PMU_READ. -/
def execIfuPmuRead (e : Fin 144) (w : BitVec 128) (s : State) : Host.Outcome State Fault Refusal :=
  .next (ifuRow 2 5 true (pmuRead e.val) e.val w s)

/-! ## TDC (R231) -/

/-- The pin of a TDC operation. -/
def ifuTdcPin (e : Nat) (w : MWord) : Nat := 2 * e + (bit w 0).toNat

/-- TDC.ARM: the polarities IMM[2:1] are enabled for the holding engine. -/
def tdcArm (e : Nat) (w : MWord) (s : State) : Word × State :=
  let p := ifuTdcPin e w
  if !engPin s e p || fld w 1 2 == 0 || (s.pin p).tdc.holder == 2 then ifuNo e s
  else ifuOk e 0 (s.updPin p (fun x => { x with tdc := { x.tdc with holder := 1, pol := BitVec.ofNat 2 (fld w 1 2) } }))

/-- TDC.DISARM: empties the FIFO and clears the holder. -/
def tdcDisarm (e : Nat) (w : MWord) (s : State) : Word × State :=
  let p := ifuTdcPin e w
  if !engPin s e p || (s.pin p).tdc.holder == 2 then ifuNo e s else ifuOk e 0 (tdcRelease p s)

/-- TDC.POPLO: pops the oldest stamp; bits [31:0]. -/
def tdcPopLo (e : Nat) (w : MWord) (s : State) : Word × State :=
  let p := ifuTdcPin e w
  let t := (s.pin p).tdc
  if !engPin s e p || t.holder == 2 then ifuNo e s
  else
    match t.fifo with
    | [] => ifuNo e s
    | a :: l =>
      ifuOk e (loWord a.full.toNat) (s.updPin p (fun x => { x with tdc := { x.tdc with fifo := l, popped := a } }))

/-- TDC.POPHI: bits [63:32] of the last popped stamp of pin IMM[0]. -/
def tdcPopHi (e : Nat) (w : MWord) (s : State) : Word × State :=
  let p := ifuTdcPin e w
  if !engPin s e p then ifuNo e s else (hiWord ((s.pin p).tdc.popped.full.toNat % 2 ^ 64), s)

/-- IFU_TDC_ARM. -/
def execIfuTdcArm (e : Fin 144) (w : BitVec 128) (s : State) : Host.Outcome State Fault Refusal :=
  .next (ifuRow 3 0 true (tdcArm e.val w) e.val w s)

/-- IFU_TDC_DISARM. -/
def execIfuTdcDisarm (e : Fin 144) (w : BitVec 128) (s : State) : Host.Outcome State Fault Refusal :=
  .next (ifuRow 3 1 true (tdcDisarm e.val w) e.val w s)

/-- IFU_TDC_POPLO. -/
def execIfuTdcPoplo (e : Fin 144) (w : BitVec 128) (s : State) : Host.Outcome State Fault Refusal :=
  .next (ifuRow 3 2 true (tdcPopLo e.val w) e.val w s)

/-- IFU_TDC_POPHI. -/
def execIfuTdcPophi (e : Fin 144) (w : BitVec 128) (s : State) : Host.Outcome State Fault Refusal :=
  .next (ifuRow 3 3 true (tdcPopHi e.val w) e.val w s)

/-! ## WIN (R211, R213, R223) -/

/-- An operation on the site whose home slice the engine is; elsewhere it is refused (R148). -/
def onHome (e : Nat) (f : Nat → State → Word × State) (s : State) : Word × State :=
  match homeSite s e with
  | none => ifuNo e s
  | some x => f x s

/-- WIN.COUNT: the fail counter's low 32 bits. -/
def winCount (e _x : Nat) (s : State) : Word × State := (loWord (s.slice e).win.fcnt.toNat, s)

/-- WIN.CLEAR: FAIL and ITER. -/
def winClear (e _x : Nat) (s : State) : Word × State := ifuOk e 0 (updWin e (fun w => { w with fail := false, iter := false }) s)

/-- WIN.MARK: SR[IFA] as a marker record, with the site's progress (R222, R223). -/
def winMark (w : MWord) (e x : Nat) (s : State) : Word × State :=
  match siteAdmitted s x with
  | none => ifuNo e s
  | some r =>
    if (s.slice e).win.logRate = 0 then ifuNo e s
    else
      let q := r.2.site x
      ifuOk e 0 (updWin e (fun y => y.offer (eventRecord 3 q.priv (ifArg s e w).toNat q.idx s.now)) s)

/-- IFU_WIN_COUNT. -/
def execIfuWinCount (e : Fin 144) (w : BitVec 128) (s : State) : Host.Outcome State Fault Refusal :=
  .next (ifuRow 4 0 false (onHome e.val (winCount e.val)) e.val w s)

/-- IFU_WIN_CLEAR. -/
def execIfuWinClear (e : Fin 144) (w : BitVec 128) (s : State) : Host.Outcome State Fault Refusal :=
  .next (ifuRow 4 1 true (onHome e.val (winClear e.val)) e.val w s)

/-- IFU_WIN_MARK. -/
def execIfuWinMark (e : Fin 144) (w : BitVec 128) (s : State) : Host.Outcome State Fault Refusal :=
  .next (ifuRow 4 2 true (onHome e.val (winMark w e.val)) e.val w s)

/-! ## STR (R126, R132, R138 to R141) -/

/-- Sets or clears the site's match flag. -/
def strMatch (b : Bool) (e x : Nat) (s : State) : Word × State := ifuOk e 0 { s with match? := setBit s.match? x b }

/-- Cycles from the start of a one-cycle word to the arrival of its request (R139, R166). -/
def reqCycles : Nat := 3

/-- STR.JREQ: a jump request of the site's Sheaf, target SR[IFA]. -/
def strJreq (w : MWord) (e x : Nat) (s : State) : Word × State :=
  match siteAdmitted s x with
  | none => ifuNo e s
  | some r =>
    let t := (ifArg s e w).toNat
    let arrive (j : JumpReq) : JumpReq := { j with cycle := j.cycle + reqCycles }
    ifuGuard e (jumpChecks s r.1 t)
      (fun s => (requestJump none r.1 t s).updRun r.1 (fun y => { y with jump := y.jump.map arrive })) s

/-- The refusals of a scheduled jump (R138, R140): position n, row k, target t. -/
def schedBad (r : Run) (n k t : Nat) : Bool :=
  decide (r.poss.length ≤ n) || decide (r.poss.length ≤ t) || !(posAt r.poss t).jtgt || decide (k < 511)
    || decide (r.rows n ≤ k) || r.inBody n k || decide (4 ≤ r.scheds.length)

/-- STR.JSCHED: position SR[IFA], row SR[IFA + 1], target IMM[15:0]. -/
def strJsched (w : MWord) (e x : Nat) (s : State) : Word × State :=
  match siteAdmitted s x with
  | none => ifuNo e s
  | some r =>
    let n := (ifArg s e w).toNat
    let k := ((s.eng e).srv (mwIfa w + 1)).toNat
    let t := fld w 0 16
    if schedBad r.2 n k t then ifuNo e s
    else ifuOk e 0 (s.updRun r.1 (fun y => { y with scheds := y.scheds ++ [(n, k, t)] }))

/-- STR.PROG: the site's progress, low 32 bits. -/
def strProg (_e x : Nat) (s : State) : Word × State :=
  (loWord (((runOfSite s x).map (fun r => (r.2.site x).idx)).getD 0), s)

/-- IFU_STR_MSET. -/
def execIfuStrMset (e : Fin 144) (w : BitVec 128) (s : State) : Host.Outcome State Fault Refusal :=
  .next (ifuRow 5 0 true (onHome e.val (strMatch true e.val)) e.val w s)

/-- IFU_STR_MCLR. -/
def execIfuStrMclr (e : Fin 144) (w : BitVec 128) (s : State) : Host.Outcome State Fault Refusal :=
  .next (ifuRow 5 1 true (onHome e.val (strMatch false e.val)) e.val w s)

/-- IFU_STR_JREQ. -/
def execIfuStrJreq (e : Fin 144) (w : BitVec 128) (s : State) : Host.Outcome State Fault Refusal :=
  .next (ifuRow 5 2 true (fun s => onHome e.val (strJreq w e.val) (takeCommits s)) e.val w s)

/-- IFU_STR_JSCHED. -/
def execIfuStrJsched (e : Fin 144) (w : BitVec 128) (s : State) : Host.Outcome State Fault Refusal :=
  .next (ifuRow 5 3 true (onHome e.val (strJsched w e.val)) e.val w s)

/-- IFU_STR_PROG. -/
def execIfuStrProg (e : Fin 144) (w : BitVec 128) (s : State) : Host.Outcome State Fault Refusal :=
  .next (ifuRow 5 4 false (onHome e.val (strProg e.val)) e.val w s)

/-! ## TRG (R305, R308) -/

/-- TRG.FIRE: the engine's line into its bay's sequencer, 2 cycles after the word. -/
def trgFire (e : Nat) (s : State) : Word × State := ifuOk e 0 (pushPulse (engBay e) (1 + lineOf e) 3 s.cycleStamp s)

/-- TRG.TAKE: the state number of the pending event; the latch clears. -/
def trgTake (e : Nat) (s : State) : Word × State :=
  let k := engBay e
  ifuOk e ((Tab.get (0 : BitVec 3) (s.trg k).pend (lineOf e)).setWidth 32)
    (s.updTrg k (fun x => { x with set := setBit x.set (lineOf e) false }))

/-- IFU_TRG_FIRE. -/
def execIfuTrgFire (e : Fin 144) (w : BitVec 128) (s : State) : Host.Outcome State Fault Refusal :=
  .next (ifuRow 6 0 true (trgFire e.val) e.val w s)

/-- IFU_TRG_TAKE. -/
def execIfuTrgTake (e : Fin 144) (w : BitVec 128) (s : State) : Host.Outcome State Fault Refusal :=
  .next (ifuRow 6 1 true (trgTake e.val) e.val w s)

/-! ## EVT -/

/-- Payloads that a peer FIFO holds. -/
def peerMax : Nat := 4

/-- The receivers of EVT.SEND: a slice engine's bay engine, or the slices that IMM[7:0] sets. -/
def evtTo (e : Nat) (w : MWord) : List Nat := if isSliceEng e then [128 + e / 8] else (bitsOf 8 (fld w 0 8)).map (8 * engBay e + ·)

/-- EVT.SEND: a full FIFO discards the payload and sets REFUSE. -/
def evtSend (e : Nat) (w : MWord) (s : State) : Word × State :=
  let v := ifArg s e w
  let full (i : Nat) : Bool := decide (peerMax ≤ (s.eng i).peer.length)
  let l := evtTo e w
  let t := forAll (l.filter (fun i => !full i)) (fun i s => s.updEng i (fun x => { x with peer := x.peer ++ [v] })) s
  if l.any full then ifuNo e t else ifuOk e 0 t

/-- EVT.TAKE: removes the oldest payload; 0 when there is none. -/
def evtTake (e : Nat) (s : State) : Word × State :=
  ifuOk e ((s.eng e).peer.headD 0) (s.updEng e (fun x => { x with peer := x.peer.drop 1 }))

/-- IFU_EVT_SEND. -/
def execIfuEvtSend (e : Fin 144) (w : BitVec 128) (s : State) : Host.Outcome State Fault Refusal :=
  .next (ifuRow 7 0 true (evtSend e.val w) e.val w s)

/-- IFU_EVT_TAKE. -/
def execIfuEvtTake (e : Fin 144) (w : BitVec 128) (s : State) : Host.Outcome State Fault Refusal :=
  .next (ifuRow 7 1 true (evtTake e.val) e.val w s)

/-! ## QUE (R161, R162) -/

/-- An operation on the open call; with none open it is refused. -/
def onCall (e : Nat) (f : OpenCall → State → Word × State) (s : State) : Word × State :=
  match (s.eng e).open? with
  | none => ifuNo e s
  | some o => f o s

/-- QUE.ARG: the next argument; beyond the supplied ones it is refused. -/
def queArg (e : Nat) (o : OpenCall) (s : State) : Word × State :=
  match o.left with
  | [] => ifuNo e s
  | v :: l => ifuOk e v (s.updEng e (fun x => { x with open? := some { o with left := l } }))

/-- Words that a call returns (R162). -/
def putMax (c : Call) : Nat := if c.count = 0 then 2 else 1024

/-- QUE.PUT: appends SR[IFA]; beyond the capacity it is refused. -/
def quePut (e : Nat) (w : MWord) (o : OpenCall) (s : State) : Word × State :=
  if putMax o.call ≤ o.put.length then ifuNo e s
  else ifuOk e 0 (s.updEng e (fun x => { x with open? := some { o with put := o.put ++ [ifArg s e w] } }))

/-- QUE.DONE: completes the call OK or, with IMM[16], OK_QUALIFIED, detail IMM[15:0]. -/
def queDone (e : Nat) (w : MWord) (_o : OpenCall) (s : State) : Word × State :=
  ifuOk e 0 (endCall e (bit w 16).toNat 0 (fld w 0 16) s)

/-- IFU_QUE_ARG. -/
def execIfuQueArg (e : Fin 144) (w : BitVec 128) (s : State) : Host.Outcome State Fault Refusal :=
  .next (ifuRow 8 0 true (onCall e.val (queArg e.val)) e.val w s)

/-- IFU_QUE_PUT. -/
def execIfuQuePut (e : Fin 144) (w : BitVec 128) (s : State) : Host.Outcome State Fault Refusal :=
  .next (ifuRow 8 1 true (onCall e.val (quePut e.val w)) e.val w s)

/-- IFU_QUE_DONE. -/
def execIfuQueDone (e : Fin 144) (w : BitVec 128) (s : State) : Host.Outcome State Fault Refusal :=
  .next (ifuRow 8 2 true (onCall e.val (queDone e.val w)) e.val w s)

/-! ## TMR (R154, R157) -/

/-- TMR.LOAD: SR[IFA] cycles; TIMER clears. A load of 0 cycles is at 0 at once. -/
def tmrLoad (e : Nat) (w : MWord) (s : State) : Word × State :=
  let n := (ifArg s e w).toNat
  ifuOk e 0 (s.updEng e (fun x =>
    if n = 0 then x.timerHit else { x with timerEnd := s.mono + n * eclkSteps, timerZero := false }))

/-- TMR.READ: the cycles that remain. -/
def tmrRead (e : Nat) (s : State) : Word × State := (BitVec.ofNat 32 ((s.eng e).timerLeft s.mono), s)

/-- IFU_TMR_LOAD. -/
def execIfuTmrLoad (e : Fin 144) (w : BitVec 128) (s : State) : Host.Outcome State Fault Refusal :=
  .next (ifuRow 9 0 true (tmrLoad e.val w) e.val w s)

/-- IFU_TMR_READ. -/
def execIfuTmrRead (e : Fin 144) (w : BitVec 128) (s : State) : Host.Outcome State Fault Refusal :=
  .next (ifuRow 9 1 false (tmrRead e.val) e.val w s)

end Sys2Proof.Machine
end

