-- ==== Sys2Proof/Machine/Reset.lean ====
section
/-!
DEFINITION. The DEV commands besides register accesses (R364), firmware and the management pairs (R483, R485, R493 to R495), resets and
starts (R481 to R492), and the exit from SL0 (R469).
-/
namespace Sys2Proof.Machine

/-! ## DEV.INFO and resets by command (R364, R490) -/

/-- DEV.INFO: silicon revision, DEVID, PART; the active firmware's version. -/
def doDevInfo (c : Cmd) (s : State) : State :=
  runCmd { op := 0x000, scopes := 1 } c (fun _ _ => [lenCheck c 0]) (fun _ _ => [])
    (fun _ s => complete c.key 0 0 0
      (BitVec.ofNat 32 (Config.siliconRevision.toNat * 65536 + s.devid.toNat * 16 + (if s.part16 then 2 else 1))) s.boot.fwAct [] s) s

/-- DEV.INFO. -/
def execDevInfo (c : Cmd) (s : State) : Host.Outcome State Fault Refusal := .next (doDevInfo c s)

/-- DEV.RESET_SLICE: completes once the pins are SAFE and the slice's work has completed. -/
def doDevResetSlice (c : Cmd) (s : State) : State :=
  runCmd { op := 0x010, scopes := 8 } c (fun _ _ => [lenCheck c 0]) (fun _ _ => [])
    (fun t s => completeOk c.key 0 (resetSlice t.engNo s)) s

/-- DEV.RESET_SLICE. -/
def execDevResetSlice (c : Cmd) (s : State) : Host.Outcome State Fault Refusal := .next (doDevResetSlice c s)

/-- DEV.RESET_BAY. -/
def doDevResetBay (c : Cmd) (s : State) : State :=
  runCmd { op := 0x011, scopes := 4 } c (fun _ _ => [lenCheck c 0]) (fun _ _ => [])
    (fun t s => completeOk c.key 0 (resetBay t.bayNo s)) s

/-- DEV.RESET_BAY. -/
def execDevResetBay (c : Cmd) (s : State) : Host.Outcome State Fault Refusal := .next (doDevResetBay c s)

/-- A warm reset begins at the next WARM_RESET. -/
def askWarm (cause : BitVec 4) (s : State) : State := s.updBoot (fun b => { b with warmBusy := true, warmCause := cause })

/-- DEV.RESET_WARM: its completion is journaled before the reset begins. -/
def doDevResetWarm (c : Cmd) (s : State) : State :=
  runCmd { op := 0x012, scopes := 1 } c (fun _ _ => [lenCheck c 0]) (fun _ _ => [])
    (fun _ s => askWarm 3 (completeOk c.key 0 s)) s

/-- DEV.RESET_WARM. -/
def execDevResetWarm (c : Cmd) (s : State) : Host.Outcome State Fault Refusal := .next (doDevResetWarm c s)

/-! ## Firmware (R485, R493 to R495) -/

/-- The image that a firmware image's header spans: header, body and signature; none when the header is not one. -/
def fwImage (room : Nat) (b : List Byte) : Option (List Byte) :=
  let n := 32 + rdLe b 8 4 + 96
  if rdLe b 0 4 = 0x5A465731 ∧ rdLe b 12 20 = 0 ∧ n ≤ room then some (b.take n) else none

/-- A firmware image passes its check: its form and its signature. -/
def fwGood (room : Nat) (b : List Byte) : Bool :=
  match fwImage room b with
  | none => false
  | some i => Config.signatureOk i

/-- A verified image is installed: in the standby, or in recovery in both pairs, which ends it (R483, R493). -/
def installFw (v : Word) (b : Boot) : Boot :=
  if b.recovery then { b with fwAct := v, fwStby := v, stbyImg := true, recovery := false } else { b with fwStby := v, stbyImg := true }

/-- DEV.FW_STAGE: COUNT slots from SLOT on hold the image. -/
def doDevFwStage (c : Cmd) (s : State) : State :=
  let slot := c.u 0 4
  let n := c.u 4 4
  let slots := (List.range (min n 16)).map (slot + ·)
  let a := slot * slotSize
  runCmd { op := 0x020, scopes := 1 } c
    (fun s _ => [lenCheck c 8] ++ slots.map (fun x => segSlot s x 0) ++ [rng c 4 4 1 16])
    (fun s _ => when? (s.boot.stbyFailed || s.boot.switching) (rState Code.fwStandby) :: slots.flatMap (readySlot s))
    (fun _ s =>
      let s := slots.foldl (fun s x => useStack c.key x s) s
      let s := countUnits 690 a (n * slotSize) s
      match readUe s a (n * slotSize) with
      | some u => complete c.key 8 Code.memUe 0 (BitVec.ofNat 32 (32 * u)) (BitVec.ofNat 32 (32 * u / 2 ^ 32)) [] (foundUe u s)
      | none =>
        let b := grnLoad a (n * slotSize) s
        if fwGood (n * slotSize) b then
          let v := BitVec.ofNat 32 (rdLe b 4 4)
          complete c.key 0 0 0 v 0 [] (s.updBoot (installFw v))
        else refuse c.key (rFormat Code.fwSignature) s) s

/-- DEV.FW_STAGE. -/
def execDevFwStage (c : Cmd) (s : State) : Host.Outcome State Fault Refusal := .next (doDevFwStage c s)

/-- The other pair becomes the active one, with its image. -/
def swapPairs (b : Boot) : Boot := { b with active := !b.active, fwAct := b.fwStby, fwStby := b.fwAct }

/-- DEV.FW_SWITCH: steps 1 to 3 of R494; it completes when probation ends. -/
def doDevFwSwitch (c : Cmd) (s : State) : State :=
  runCmd { op := 0x021, scopes := 1 } c (fun _ _ => [lenCheck c 0])
    (fun s _ => [when? (!s.boot.stbyImg) (rState Code.fwNotStaged), when? (s.boot.stbyFailed || s.boot.switching) (rState Code.fwStandby)])
    (fun _ s => (advance (2 * msSteps) s).updBoot (fun b => { swapPairs b with switching := true, switchKey := some c.key })) s

/-- DEV.FW_SWITCH. -/
def execDevFwSwitch (c : Cmd) (s : State) : Host.Outcome State Fault Refusal := .next (doDevFwSwitch c s)

/-- FW_PROBATION_END: 1 s after the hand-over the switch completes; the image goes into the flash in the background. -/
def doFwProbationEnd (s : State) : State :=
  if s.boot.switching ∧ s.serving then
    let s := advance (1000 * msSteps) s
    let k := s.boot.switchKey
    let s := s.updBoot (fun b => { b with switching := false, switchKey := none, flashWb := b.flashOk })
    match k with
    | none => s
    | some k => complete k 0 0 0 s.boot.fwAct 0 [] s
  else s

/-- FW_PROBATION_END. -/
def execFwProbationEnd (s : State) : Host.Outcome State Fault Refusal := .next (doFwProbationEnd s)

/-- The flash copy that a write-back goes to: the one with the lower VERSION, copy 1 of two equal ones. -/
def wbCopy (b : Boot) : Bool := !decide (b.fwVer0.toNat < b.fwVer1.toNat)

/-- FW_WRITEBACK_DONE (R495). -/
def doFwWritebackDone (s : State) : State :=
  if s.boot.flashWb then
    s.updBoot (fun b =>
      if wbCopy b then { b with flashWb := false, fwVer1 := b.fwAct, fwBad1 := false }
      else { b with flashWb := false, fwVer0 := b.fwAct, fwBad0 := false })
  else s

/-- FW_WRITEBACK_DONE. -/
def execFwWritebackDone (s : State) : Host.Outcome State Fault Refusal := .next (doFwWritebackDone s)

/-! ## The management pairs (R33, R352, R495) -/

/-- A slow-path command in progress: started and not past its release point (R352). -/
def Work.slow (w : Work) : Bool := w.started && !w.released && slowOpcodes.contains w.op.toNat

/-- What waits for slow-path commands in progress is gone with them. -/
def dropSlow (ks : List Key) (s : State) : State :=
  let gone (k : Key) : Bool := ks.contains k
  let s := { s with
    starts := s.starts.filter (fun q => !gone q.key), seqs := s.seqs.filter (fun q => !gone q.2.key)
    engines := Tab.mapVals s.engines (fun _ x =>
      if !x.loading && (x.reload.map (fun (r : Bool × Key) => gone r.2)).getD false then { x with reload := none } else x) }
  let s := s.updGrn (fun g => { g with seals := g.seals.filter (fun x => !gone x.key) })
  s.updTim (fun t => { t with
    setPend := t.setPend.filter (fun p => !gone p.1), cal := t.cal.filter (fun x => !gone x.key) })

/-- Slow-path commands in progress complete FAILED_FAULT with code MGMT_FAILOVER; DEV.FW_SWITCH gives the version now active. -/
def failSlow (s : State) : State :=
  let ks := (s.works.filter Work.slow).map (·.key)
  ks.foldl (fun s k =>
    let w6 := if s.boot.switchKey = some k then s.boot.fwAct else 0
    complete k 8 Code.mgmtFailover 0 w6 0 [] s) (dropSlow ks s)

/-- MGMT_FAILOVER: a lockstep mismatch of the active pair. In probation control returns and the failed image is discarded; else the
standby takes over and the failed pair is fenced. With no standby to take over nothing is served: the row does not arise. -/
def doMgmtFailover (s : State) : State :=
  if s.boot.switching then
    let s := advance (2 * msSteps) s
    let s := failSlow (s.updBoot (fun b => { swapPairs b with stbyImg := false }))
    raise srcMgmtActive 0 0 (s.updBoot (fun b => { b with switching := false, switchKey := none }))
  else if s.serving ∧ s.boot.stbyFailed = false ∧ s.boot.stbyImg = true then
    raise srcMgmtActive 0 0 (failSlow (s.updBoot (fun b => { swapPairs b with stbyFailed := true })))
  else s

/-- MGMT_FAILOVER. -/
def execMgmtFailover (s : State) : Host.Outcome State Fault Refusal := .next (doMgmtFailover s)

/-- STANDBY_PAIR_FAIL: the standby pair is fenced; no work is affected. -/
def doStandbyPairFail (s : State) : State := raise srcMgmtStandby 0 0 (s.updBoot (fun b => { b with stbyFailed := true }))

/-- STANDBY_PAIR_FAIL. -/
def execStandbyPairFail (s : State) : Host.Outcome State Fault Refusal := .next (doStandbyPairFail s)

/-! ## RST_N and warm resets (R488, R491, R492) -/

/-- RST_N_LOW: low for 1 µs. A dump runs to its end first. -/
def doRstNLow (s : State) : State :=
  if s.flt.dumping then s.updFlt (fun f => { f with warmAfter := true })
  else if s.powered then (beginWarm 2 (advance usSteps s)).updBoot (fun b => { b with held := true })
  else s

/-- RST_N_LOW. -/
def execRstNLow (s : State) : Host.Outcome State Fault Refusal := .next (doRstNLow s)

/-- RST_N_RISE: the held warm reset goes on. -/
def doRstNRise (s : State) : State :=
  if s.flt.dumping then s.updFlt (fun f => { f with warmAfter := false })
  else if s.boot.coldPend = false ∧ s.boot.warmBusy = true ∧ s.boot.held = true then finishWarm true s
  else s

/-- RST_N_RISE. -/
def execRstNRise (s : State) : Host.Outcome State Fault Refusal := .next (doRstNRise s)

/-- WARM_RESET: the warm reset that DEV.RESET_WARM or a FATAL has asked for. -/
def doWarmReset (s : State) : State :=
  if s.boot.warmBusy = true ∧ s.boot.held = false ∧ s.boot.coldPend = false then warmReset s.boot.warmCause s else s

/-- WARM_RESET. -/
def execWarmReset (s : State) : Host.Outcome State Fault Refusal := .next (doWarmReset s)

/-- COLD_RESET: RST_N low for 10 ms; a dump stops. Queued fault entries are written and every output is off (R279, R457). -/
def doColdReset (s : State) : State :=
  if s.boot.off || s.thm.shutdown then s
  else
    let s := (flushEntries s).2
    let s := forAll (List.range 32) gateOff (forAll (List.range 64) disableMon s)
    let s := forAll (List.range 256) pinHeld (forAll (List.range 16) awgSafe s)
    (s.updFlt (fun f => { f with dumping := false, warmAfter := false })).updBoot (fun b =>
      { b with coldPend := true, warmBusy := true, held := false })

/-- COLD_RESET. -/
def execColdReset (s : State) : Host.Outcome State Fault Refusal := .next (doColdReset s)

/-! ## Cold starts (R481 to R487) -/

/-- What a cold start keeps of the flash: the sections and whether they verify. A write-back that was cut short leaves its copy bad. -/
def keptBoot (b : Boot) : Boot :=
  let cut (i : Bool) : Bool := b.flashWb && wbCopy b == i
  { flashOk := b.flashOk, sliceImg := b.sliceImg, bayImg := b.bayImg, mcVersion := b.mcVersion, mcFirstBad := b.mcFirstBad
    mcSecondBad := b.mcSecondBad, fwVer0 := b.fwVer0, fwVer1 := b.fwVer1, fwBad0 := b.fwBad0 || cut false
    fwBad1 := b.fwBad1 || cut true, coefBad := b.coefBad, coefNom := b.coefBad }

/-- The fault system after a cold reset with the Gleaner kept (R457): records that were not copied stay in the Gleaner only. -/
def keptFaults (f : Faults) : Faults :=
  { gleaner := f.gleaner.map (fun r => { r with copied := true }), snap := f.snap, snapStamp := f.snapStamp, seq := f.seq }

/-- The time block over an exit from SL0 without retention: system time and what it was locked to are kept (R469). -/
def keptTime (t : Time) : Time := { tq := if t.tq = 3 then 2 else t.tq, lockHist := t.lockHist }

/-- The firmware copy that loads (R485): the higher VERSION of those that verify, copy 0 of two equal ones. -/
def fwCopyOf (b : Boot) : Option Bool :=
  match b.fwBad0, b.fwBad1 with
  | true, true => none
  | true, false => some true
  | false, true => some false
  | false, false => some (decide (b.fwVer0.toNat < b.fwVer1.toNat))

/-- Firmware goes into both pairs, pair 0 active; without a copy the device is in recovery (R483). -/
def loadFw (b : Boot) : Boot :=
  match fwCopyOf b with
  | none => { b with recovery := true, stbyImg := false }
  | some c =>
    let v := if c then b.fwVer1 else b.fwVer0
    { b with fwCopy := c, fwAct := v, fwStby := v }

/-- The control stores load from the seed image (R172). -/
def loadStores (s : State) : State :=
  let b := s.boot
  let image (e : Nat) : List MWord := if isSliceEng e then b.sliceImg else b.bayImg
  let s := if b.mcFirstBad then raiseAt (if b.mcSecondBad then 2 else 0) srcSeedMc 0 0 s else s
  forAll (List.range 144) (fun e s =>
    if b.mcFirstBad && b.mcSecondBad then s.updEng e (fun x => { x with ctrl := setBit x.ctrl 18 false })
    else
      let l := image e
      storeBank false e (imageHeader (isSliceEng e) l b.mcVersion) (wordBytes l)
        (s.updEng e (fun x => { x with store := storeOf l, ver := b.mcVersion, crc := crc32c (wordBytes l) }))) s

/-- Which VIN inputs are good, and the active one (R459): VIN_A when it is good. What the inputs are is measured. -/
def vinState (s : State) : State :=
  let (v, s) := measure s
  s.updThm (fun t => { t with supStat := setBit (setFld t.supStat 0 2 (v % 4)) 2 (v % 2 == 0) })

/-- Steps 1 to 4 of a cold start on a state already at reset (R481 to R483). -/
def startUp (vpe ref : Bool) (s : State) : State :=
  let s := advance (2 * msSteps) s
  if !s.boot.flashOk then
    let s := (flushEntries (raise srcFlash 0 0 s)).2
    (setSl 0 s).updFlt (fun f => { f with asserted := true, pin := setBit f.pin 30 true })
  else
    let s := loadStores (s.updBoot loadFw)
    let s := raise srcJournalLost 0 0 s
    let s := s.updTim (fun t => { t with refPresent := ref, refIosc := !ref })
    if vpe then s.updThm (fun t => { t with supStat := setFld t.supStat 4 2 3 }) else doVpeLoss s

/-- The Granary at a cold start: the reset sizes of its regions are the part's (R91). -/
def coldGrn (part16 : Bool) : Granary := if part16 then { rgn0 := 0x08000040#32, rgn1 := 0x08000040#32 } else {}

/-- What no start changes: the queue of commands, the clock that is never set, the part, the strap, what has been sent. -/
def freshState (s : State) (b : Boot) (f : Faults) : State :=
  { grn := coldGrn s.part16, pending := s.pending, mono := s.mono, part16 := s.part16, devid := s.devid, out := s.out, freeNo := s.freeNo, boot := b, flt := f }

/-- A cold start after power came back: everything lost. -/
def powerStart (vpe ref : Bool) (s : State) : State := startUp vpe ref (vinState (freshState s (keptBoot s.boot) {}))

/-- A cold start by RST_N: the Gleaner and the state of the inputs are kept. -/
def rstStart (vpe ref : Bool) (s : State) : State :=
  let t := freshState s { keptBoot s.boot with cause := 1 } (keptFaults s.flt)
  startUp vpe ref (t.updThm (fun x => { x with supStat := s.thm.supStat &&& 7#32 }))

/-- COLD_START: VIN arrives after both inputs were gone, or RST_N rises after a cold reset. -/
def doColdStart (vpe ref : Bool) (s : State) : State :=
  if s.boot.off then powerStart vpe ref s else if s.boot.coldPend then rstStart vpe ref s else s

/-- COLD_START. -/
def execColdStart (vpe ref : Bool) (s : State) : Host.Outcome State Fault Refusal := .next (doColdStart vpe ref s)

/-- STARTUP_CAL_DONE (step 6 of R481): the tables commit, CE is no longer 0; SL2, or SL1-time without REFCLK. How many tables have been
committed is not said. -/
def doStartupCalDone (s : State) : State :=
  let b := s.boot
  if s.serving ∧ b.sl = 1 ∧ b.calDone = false ∧ b.recovery = false ∧ b.coefNom = false ∧ s.peRail = false then
    let (v, s) := measure s
    let s := s.updBoot (fun b => { b with calDone := true })
    gmLock (setSl (fullSl s) { s with ce := BitVec.ofNat 16 (v % 65535 + 1) })
  else s

/-- STARTUP_CAL_DONE. -/
def execStartupCalDone (s : State) : Host.Outcome State Fault Refusal := .next (doStartupCalDone s)

/-! ## Exit from SL0 (R469) -/

/-- Ports that are to be up train again (R391). -/
def retrain (s : State) : State :=
  forAll ((List.range 6).filter (fun n => fld (s.port n).cfg 0 2 != 0)) startTraining s

/-- With retention the stacks leave self-refresh and the warm-reset path runs. -/
def wakeWarm (s : State) : State :=
  let up (w : Word) (j : Nat) : Word := if fld w (2 * j) 2 = 1 then setFld w (2 * j) 2 0 else w
  let s := (s.updThm (fun t => { t with inSl0 := false })).updGrn (fun g => { g with stat := up (up g.stat 0) 1 })
  finishWarm false (beginWarm 5 (retrain s))

/-- Without retention the device starts cold, with system time and the Gleaner. -/
def wakeCold (s : State) : State :=
  let t := freshState s { keptBoot s.boot with cause := 6 } (keptFaults s.flt)
  let t := { t with now := s.now, tim := keptTime s.tim }
  startUp (!s.peRail) s.tim.refPresent (t.updThm (fun x => { x with supStat := s.thm.supStat &&& 7#32 }))

/-- SL0_EXIT: a wake time, a monitor's WAKE alarm, or MCS_N low. -/
def doSl0Exit (s : State) : State :=
  if s.thm.inSl0 && !s.boot.off then
    if bit s.thm.sl0 1 then wakeWarm s else wakeCold s
  else s

/-- SL0_EXIT. -/
def execSl0Exit (s : State) : Host.Outcome State Fault Refusal := .next (doSl0Exit s)

end Sys2Proof.Machine
end

