-- ==== Sys2Proof/Machine/Dispatch.lean ====
section
/-! DEFINITION. The dispatch of the commands of the opcode table to their meanings, one arm per row. -/

namespace Sys2Proof.Machine

open Sys2Proof

/-- The effect of the command `i` on everything but the queue of waiting commands. -/
def exec (i : Instr) (s : State) : Host.Outcome State Fault Refusal :=
  match i with
  | .devInfo c => Sys2Proof.Machine.execDevInfo c s
  | .devRegRead c zone => Sys2Proof.Machine.execDevRegRead c zone s
  | .devRegWrite c => Sys2Proof.Machine.execDevRegWrite c s
  | .devResetSlice c => Sys2Proof.Machine.execDevResetSlice c s
  | .devResetBay c => Sys2Proof.Machine.execDevResetBay c s
  | .devResetWarm c => Sys2Proof.Machine.execDevResetWarm c s
  | .devFwStage c => Sys2Proof.Machine.execDevFwStage c s
  | .devFwSwitch c => Sys2Proof.Machine.execDevFwSwitch c s
  | .queCreate c => Sys2Proof.Machine.execQueCreate c s
  | .queDelete c => Sys2Proof.Machine.execQueDelete c s
  | .queResume c => Sys2Proof.Machine.execQueResume c s
  | .queStatus c => Sys2Proof.Machine.execQueStatus c s
  | .queCqCreate c => Sys2Proof.Machine.execQueCqCreate c s
  | .queCqDelete c => Sys2Proof.Machine.execQueCqDelete c s
  | .grnRead c => Sys2Proof.Machine.execGrnRead c s
  | .grnWrite c => Sys2Proof.Machine.execGrnWrite c s
  | .grnSeal c => Sys2Proof.Machine.execGrnSeal c s
  | .sealCheckDone slot => Sys2Proof.Machine.execSealCheckDone slot s
  | .grnRelease c => Sys2Proof.Machine.execGrnRelease c s
  | .grnSegStatus c => Sys2Proof.Machine.execGrnSegStatus c s
  | .grnCapFree c => Sys2Proof.Machine.execGrnCapFree c s
  | .grnStackRejoin c trainOk => Sys2Proof.Machine.execGrnStackRejoin c trainOk s
  | .stackRejoinCopyDone j => Sys2Proof.Machine.execStackRejoinCopyDone j s
  | .strSite c => Sys2Proof.Machine.execStrSite c s
  | .strSiteRelease c => Sys2Proof.Machine.execStrSiteRelease c s
  | .strSheaf c => Sys2Proof.Machine.execStrSheaf c s
  | .strStart c => Sys2Proof.Machine.execStrStart c s
  | .strStop c => Sys2Proof.Machine.execStrStop c s
  | .strJump c => Sys2Proof.Machine.execStrJump c s
  | .strStatus c => Sys2Proof.Machine.execStrStatus c s
  | .engCall c => Sys2Proof.Machine.execEngCall c s
  | .engStoreMaster c => Sys2Proof.Machine.execEngStoreMaster c s
  | .engReload c => Sys2Proof.Machine.execEngReload c s
  | .csLoadDone e ok1 ok2 => Sys2Proof.Machine.execCsLoadDone e ok1 ok2 s
  | .pinLevels c => Sys2Proof.Machine.execPinLevels c s
  | .pinThresh c => Sys2Proof.Machine.execPinThresh c s
  | .pinLoad c => Sys2Proof.Machine.execPinLoad c s
  | .pinClamp c => Sys2Proof.Machine.execPinClamp c s
  | .pinCtrl c => Sys2Proof.Machine.execPinCtrl c s
  | .pinTset c => Sys2Proof.Machine.execPinTset c s
  | .dacSettled p => Sys2Proof.Machine.execDacSettled p s
  | .pinCtrlWrite a p v => Sys2Proof.Machine.execPinCtrlWrite a p v s
  | .pinThcWrite a p v => Sys2Proof.Machine.execPinThcWrite a p v s
  | .clampConduct p high => Sys2Proof.Machine.execClampConduct p high s
  | .drvLimitSafe p => Sys2Proof.Machine.execDrvLimitSafe p s
  | .pmuFv c senseOpen => Sys2Proof.Machine.execPmuFv c senseOpen s
  | .pmuFi c senseOpen => Sys2Proof.Machine.execPmuFi c senseOpen s
  | .pmuMv c senseOpen => Sys2Proof.Machine.execPmuMv c senseOpen s
  | .pmuMeas c => Sys2Proof.Machine.execPmuMeas c s
  | .pmuDisc c => Sys2Proof.Machine.execPmuDisc c s
  | .pmuSettled p => Sys2Proof.Machine.execPmuSettled p s
  | .pmuMeasDone p mean flags => Sys2Proof.Machine.execPmuMeasDone p mean flags s
  | .pmuCompliance p => Sys2Proof.Machine.execPmuCompliance p s
  | .pmuCalCommit p => Sys2Proof.Machine.execPmuCalCommit p s
  | .tdcCapture c => Sys2Proof.Machine.execTdcCapture c s
  | .tdcInterval c => Sys2Proof.Machine.execTdcInterval c s
  | .tdcFreq c => Sys2Proof.Machine.execTdcFreq c s
  | .tdcStop c => Sys2Proof.Machine.execTdcStop c s
  | .tdcCalRead c => Sys2Proof.Machine.execTdcCalRead c s
  | .tdcEdge p rise cycle code => Sys2Proof.Machine.execTdcEdge p rise cycle code s
  | .tdcCaptureEnd slot => Sys2Proof.Machine.execTdcCaptureEnd slot s
  | .tdcIntervalTimeout n => Sys2Proof.Machine.execTdcIntervalTimeout n s
  | .tdcFreqGateClose p => Sys2Proof.Machine.execTdcFreqGateClose p s
  | .tdcFreqNoSignal p => Sys2Proof.Machine.execTdcFreqNoSignal p s
  | .tdcCalRoundStart => Sys2Proof.Machine.execTdcCalRoundStart s
  | .tdcTableCheck p hits => Sys2Proof.Machine.execTdcTableCheck p hits s
  | .tdcCalCommit => Sys2Proof.Machine.execTdcCalCommit s
  | .pwrOn c => Sys2Proof.Machine.execPwrOn c s
  | .pwrOff c => Sys2Proof.Machine.execPwrOff c s
  | .pwrSet c => Sys2Proof.Machine.execPwrSet c s
  | .pwrSeq c => Sys2Proof.Machine.execPwrSeq c s
  | .pwrSeqStep x => Sys2Proof.Machine.execPwrSeqStep x s
  | .pwrMeas c uv ua => Sys2Proof.Machine.execPwrMeas c uv ua s
  | .pwrGang c => Sys2Proof.Machine.execPwrGang c s
  | .dpsCtrlWrite a d v => Sys2Proof.Machine.execDpsCtrlWrite a d v s
  | .dpsRampEnd d => Sys2Proof.Machine.execDpsRampEnd d s
  | .dpsPowerGood d => Sys2Proof.Machine.execDpsPowerGood d s
  | .dpsPgTimeout d => Sys2Proof.Machine.execDpsPgTimeout d s
  | .dpsOffDone d => Sys2Proof.Machine.execDpsOffDone d s
  | .dpsCurrentLimit d => Sys2Proof.Machine.execDpsCurrentLimit d s
  | .dpsLimOff d => Sys2Proof.Machine.execDpsLimOff d s
  | .dpsTripClear a d v => Sys2Proof.Machine.execDpsTripClear a d v s
  | .monAlarm m zone => Sys2Proof.Machine.execMonAlarm m zone s
  | .monCfgWrite a m v => Sys2Proof.Machine.execMonCfgWrite a m v s
  | .monThrWrite a m v => Sys2Proof.Machine.execMonThrWrite a m v s
  | .monResolve m zone => Sys2Proof.Machine.execMonResolve m zone s
  | .monEvtAck a m v => Sys2Proof.Machine.execMonEvtAck a m v s
  | .blkGo a u v => Sys2Proof.Machine.execBlkGo a u v s
  | .blankEnd u => Sys2Proof.Machine.execBlankEnd u s
  | .anaLoad c => Sys2Proof.Machine.execAnaLoad c s
  | .anaSource c => Sys2Proof.Machine.execAnaSource c s
  | .anaSourceStop c => Sys2Proof.Machine.execAnaSourceStop c s
  | .anaSpan c => Sys2Proof.Machine.execAnaSpan c s
  | .anaCapture c => Sys2Proof.Machine.execAnaCapture c s
  | .anaCaptureStop c => Sys2Proof.Machine.execAnaCaptureStop c s
  | .awgStart k => Sys2Proof.Machine.execAwgStart k s
  | .awgPassEnd k => Sys2Proof.Machine.execAwgPassEnd k s
  | .spanHoldEnd k => Sys2Proof.Machine.execSpanHoldEnd k s
  | .awgDdsWrite a k r v => Sys2Proof.Machine.execAwgDdsWrite a k r v s
  | .awgLegLimit k => Sys2Proof.Machine.execAwgLegLimit k s
  | .anaShortSafe k => Sys2Proof.Machine.execAnaShortSafe k s
  | .anaCaptureEnd k samples clamped => Sys2Proof.Machine.execAnaCaptureEnd k samples clamped s
  | .anaCalCommit k => Sys2Proof.Machine.execAnaCalCommit k s
  | .trgArm c => Sys2Proof.Machine.execTrgArm c s
  | .trgDisarm c => Sys2Proof.Machine.execTrgDisarm c s
  | .trgFire c => Sys2Proof.Machine.execTrgFire c s
  | .trgAcquire c => Sys2Proof.Machine.execTrgAcquire c s
  | .trgAcqStop c => Sys2Proof.Machine.execTrgAcqStop c s
  | .trgCtrlEn a k v => Sys2Proof.Machine.execTrgCtrlEn a k v s
  | .trgStateMove k pulses t => Sys2Proof.Machine.execTrgStateMove k pulses t s
  | .agReady g => Sys2Proof.Machine.execAgReady g s
  | .agTriggerDecide g => Sys2Proof.Machine.execAgTriggerDecide g s
  | .agBusyEnd g => Sys2Proof.Machine.execAgBusyEnd g s
  | .agRearmEnd g => Sys2Proof.Machine.execAgRearmEnd g s
  | .trgMessageRx m => Sys2Proof.Machine.execTrgMessageRx m s
  | .acqRecordDone k samples clamped => Sys2Proof.Machine.execAcqRecordDone k samples clamped s
  | .timSet c => Sys2Proof.Machine.execTimSet c s
  | .timSetTimeout => Sys2Proof.Machine.execTimSetTimeout s
  | .timPulse c => Sys2Proof.Machine.execTimPulse c s
  | .tpoPulse u => Sys2Proof.Machine.execTpoPulse u s
  | .timTci c => Sys2Proof.Machine.execTimTci c s
  | .tciEdge u rise t => Sys2Proof.Machine.execTciEdge u rise t s
  | .timTciLoRead c u => Sys2Proof.Machine.execTimTciLoRead c u s
  | .timSyncCal c => Sys2Proof.Machine.execTimSyncCal c s
  | .timRelease c => Sys2Proof.Machine.execTimRelease c s
  | .timAsym c => Sys2Proof.Machine.execTimAsym c s
  | .timStatus c => Sys2Proof.Machine.execTimStatus c s
  | .timRefWrite a v => Sys2Proof.Machine.execTimRefWrite a v s
  | .timPortWrite a n v => Sys2Proof.Machine.execTimPortWrite a n v s
  | .syncOutPulse => Sys2Proof.Machine.execSyncOutPulse s
  | .syncInEdge t => Sys2Proof.Machine.execSyncInEdge t s
  | .syncMiss => Sys2Proof.Machine.execSyncMiss s
  | .ptpSyncSend n t replayed => Sys2Proof.Machine.execPtpSyncSend n t replayed s
  | .ptpDelayReqSend n t replayed => Sys2Proof.Machine.execPtpDelayReqSend n t replayed s
  | .ptpAnnounceSend n => Sys2Proof.Machine.execPtpAnnounceSend n s
  | .ptpSyncReceive n m t => Sys2Proof.Machine.execPtpSyncReceive n m t s
  | .ptpFollowUpReceive n m => Sys2Proof.Machine.execPtpFollowUpReceive n m s
  | .ptpDelayReqReceive n m t => Sys2Proof.Machine.execPtpDelayReqReceive n m t s
  | .ptpDelayRespReceive n m => Sys2Proof.Machine.execPtpDelayRespReceive n m s
  | .ptpAnnounceReceive n m => Sys2Proof.Machine.execPtpAnnounceReceive n m s
  | .ptpMatchTimeout n => Sys2Proof.Machine.execPtpMatchTimeout n s
  | .refLoss => Sys2Proof.Machine.execRefLoss s
  | .refReturn => Sys2Proof.Machine.execRefReturn s
  | .refMoveDone => Sys2Proof.Machine.execRefMoveDone s
  | .lnkTrain c => Sys2Proof.Machine.execLnkTrain c s
  | .lnkPort c => Sys2Proof.Machine.execLnkPort c s
  | .lnkRoute c => Sys2Proof.Machine.execLnkRoute c s
  | .lnkMcast c => Sys2Proof.Machine.execLnkMcast c s
  | .lnkStatus c => Sys2Proof.Machine.execLnkStatus c s
  | .portTrained n u => Sys2Proof.Machine.execPortTrained n u s
  | .trainFail n cause => Sys2Proof.Machine.execTrainFail n cause s
  | .trainRetry n => Sys2Proof.Machine.execTrainRetry n s
  | .codewordReceive n w => Sys2Proof.Machine.execCodewordReceive n w s
  | .replayTimeout n => Sys2Proof.Machine.execReplayTimeout n s
  | .fencedRetrain n => Sys2Proof.Machine.execFencedRetrain n s
  | .adaptWindow n lane levels => Sys2Proof.Machine.execAdaptWindow n lane levels s
  | .retrainInPlace n => Sys2Proof.Machine.execRetrainInPlace n s
  | .lpiWake n => Sys2Proof.Machine.execLpiWake n s
  | .fckRxLoss n => Sys2Proof.Machine.execFckRxLoss n s
  | .fltAck c => Sys2Proof.Machine.execFltAck c s
  | .fltSource c => Sys2Proof.Machine.execFltSource c s
  | .fltSrcCfgWrite a u second v => Sys2Proof.Machine.execFltSrcCfgWrite a u second v s
  | .fltRead c => Sys2Proof.Machine.execFltRead c s
  | .fltAlarms c => Sys2Proof.Machine.execFltAlarms c s
  | .fltAlarmClr c => Sys2Proof.Machine.execFltAlarmClr c s
  | .fltAlarmWrite a w v => Sys2Proof.Machine.execFltAlarmWrite a w v s
  | .fltSnapRelease c => Sys2Proof.Machine.execFltSnapRelease c s
  | .fltSpillHeadWrite a v => Sys2Proof.Machine.execFltSpillHeadWrite a v s
  | .fltDumpWrite a v => Sys2Proof.Machine.execFltDumpWrite a v s
  | .faultRecordWrite => Sys2Proof.Machine.execFaultRecordWrite s
  | .faultHoldoffEnd u => Sys2Proof.Machine.execFaultHoldoffEnd u s
  | .spillCopy => Sys2Proof.Machine.execSpillCopy s
  | .alarmSend => Sys2Proof.Machine.execAlarmSend s
  | .faultNPulseEnd => Sys2Proof.Machine.execFaultNPulseEnd s
  | .dumpComplete truncated => Sys2Proof.Machine.execDumpComplete truncated s
  | .thmStatus c => Sys2Proof.Machine.execThmStatus c s
  | .thmBaySleep c => Sys2Proof.Machine.execThmBaySleep c s
  | .thmBayWake c => Sys2Proof.Machine.execThmBayWake c s
  | .thmBayPin c => Sys2Proof.Machine.execThmBayPin c s
  | .thmVinMode c => Sys2Proof.Machine.execThmVinMode c s
  | .thmTdLimit c => Sys2Proof.Machine.execThmTdLimit c s
  | .bayAutoSleep k => Sys2Proof.Machine.execBayAutoSleep k s
  | .bayWakeTime k => Sys2Proof.Machine.execBayWakeTime k s
  | .bayWakeGrant k => Sys2Proof.Machine.execBayWakeGrant k s
  | .sequenceGrant h => Sys2Proof.Machine.execSequenceGrant h s
  | .sclkStop => Sys2Proof.Machine.execSclkStop s
  | .thmSl0Enter a v => Sys2Proof.Machine.execThmSl0Enter a v s
  | .sl0Exit => Sys2Proof.Machine.execSl0Exit s
  | .vinSwitchover otherFailed otherHigher => Sys2Proof.Machine.execVinSwitchover otherFailed otherHigher s
  | .vinRevert => Sys2Proof.Machine.execVinRevert s
  | .powerFail => Sys2Proof.Machine.execPowerFail s
  | .vpeLoss => Sys2Proof.Machine.execVpeLoss s
  | .vpeReturn => Sys2Proof.Machine.execVpeReturn s
  | .sensorSample z temps => Sys2Proof.Machine.execSensorSample z temps s
  | .sensorReadmit z u => Sys2Proof.Machine.execSensorReadmit z u s
  | .exclHoldEnd z => Sys2Proof.Machine.execExclHoldEnd z s
  | .throttleBoundary z b up => Sys2Proof.Machine.execThrottleBoundary z b up s
  | .flaplockEnd z => Sys2Proof.Machine.execFlaplockEnd z s
  | .stepFactorTick z => Sys2Proof.Machine.execStepFactorTick z s
  | .thermalWarn z => Sys2Proof.Machine.execThermalWarn z s
  | .thermalShutdown z => Sys2Proof.Machine.execThermalShutdown z s
  | .derateStep j up => Sys2Proof.Machine.execDerateStep j up s
  | .tdSample n temp => Sys2Proof.Machine.execTdSample n temp s
  | .compensationTick => Sys2Proof.Machine.execCompensationTick s
  | .obsTrace c => Sys2Proof.Machine.execObsTrace c s
  | .obsCounters c => Sys2Proof.Machine.execObsCounters c s
  | .traceSend lane => Sys2Proof.Machine.execTraceSend lane s
  | .packetIntake src obs bytes => Sys2Proof.Machine.execPacketIntake src obs bytes s
  | .intakeTurn q => Sys2Proof.Machine.execIntakeTurn q s
  | .doorbell src bytes => Sys2Proof.Machine.execDoorbell src bytes s
  | .spiDbWrite bytes v => Sys2Proof.Machine.execSpiDbWrite bytes v s
  | .spiCplRead => Sys2Proof.Machine.execSpiCplRead s
  | .devPortroleWrite a v => Sys2Proof.Machine.execDevPortroleWrite a v s
  | .journalLostClear a v => Sys2Proof.Machine.execJournalLostClear a v s
  | .grnRgnWrite a j v => Sys2Proof.Machine.execGrnRgnWrite a j v s
  | .commandStart q seq => Sys2Proof.Machine.execCommandStart q seq s
  | .completionPost => Sys2Proof.Machine.execCompletionPost s
  | .runFirstVector h => Sys2Proof.Machine.execRunFirstVector h s
  | .vector x obs => Sys2Proof.Machine.execVector x obs s
  | .commitPoint h => Sys2Proof.Machine.execCommitPoint h s
  | .refillWarn h pos => Sys2Proof.Machine.execRefillWarn h pos s
  | .logFifoDrain x => Sys2Proof.Machine.execLogFifoDrain x s
  | .verdictWrite x => Sys2Proof.Machine.execVerdictWrite x s
  | .scrubPass errs late => Sys2Proof.Machine.execScrubPass errs late s
  | .stackFence j => Sys2Proof.Machine.execStackFence j s
  | .callTake e => Sys2Proof.Machine.execCallTake e s
  | .trapEntry e => Sys2Proof.Machine.execTrapEntry e s
  | .machineCheck e => Sys2Proof.Machine.execMachineCheck e s
  | .groupOverrun e => Sys2Proof.Machine.execGroupOverrun e s
  | .engineTimerZero e => Sys2Proof.Machine.execEngineTimerZero e s
  | .waitTimeout e w => Sys2Proof.Machine.execWaitTimeout e w s
  | .csPatrol e addr => Sys2Proof.Machine.execCsPatrol e addr s
  | .csRepair e => Sys2Proof.Machine.execCsRepair e s
  | .engCtrlWrite a e v => Sys2Proof.Machine.execEngCtrlWrite a e v s
  | .engModeApply e => Sys2Proof.Machine.execEngModeApply e s
  | .seqNext e w => Sys2Proof.Machine.execSeqNext e w s
  | .seqJump e w => Sys2Proof.Machine.execSeqJump e w s
  | .seqCall e w => Sys2Proof.Machine.execSeqCall e w s
  | .seqRet e w => Sys2Proof.Machine.execSeqRet e w s
  | .seqLoop e w => Sys2Proof.Machine.execSeqLoop e w s
  | .seqWait e w => Sys2Proof.Machine.execSeqWait e w s
  | .seqDisp e w => Sys2Proof.Machine.execSeqDisp e w s
  | .seqHalt e w => Sys2Proof.Machine.execSeqHalt e w s
  | .seqResume e w => Sys2Proof.Machine.execSeqResume e w s
  | .aluNop e w => Sys2Proof.Machine.execAluNop e w s
  | .aluMov e w => Sys2Proof.Machine.execAluMov e w s
  | .aluAdd e w => Sys2Proof.Machine.execAluAdd e w s
  | .aluSub e w => Sys2Proof.Machine.execAluSub e w s
  | .aluCmp e w => Sys2Proof.Machine.execAluCmp e w s
  | .aluAnd e w => Sys2Proof.Machine.execAluAnd e w s
  | .aluOr e w => Sys2Proof.Machine.execAluOr e w s
  | .aluXor e w => Sys2Proof.Machine.execAluXor e w s
  | .aluShl e w => Sys2Proof.Machine.execAluShl e w s
  | .aluShr e w => Sys2Proof.Machine.execAluShr e w s
  | .aluSar e w => Sys2Proof.Machine.execAluSar e w s
  | .aluMul e w => Sys2Proof.Machine.execAluMul e w s
  | .ifuPinRead e w zone => Sys2Proof.Machine.execIfuPinRead e w zone s
  | .ifuPinWrite e w => Sys2Proof.Machine.execIfuPinWrite e w s
  | .ifuPmuConn e w senseOpen => Sys2Proof.Machine.execIfuPmuConn e w senseOpen s
  | .ifuPmuDisc e w => Sys2Proof.Machine.execIfuPmuDisc e w s
  | .ifuPmuFv e w => Sys2Proof.Machine.execIfuPmuFv e w s
  | .ifuPmuFi e w => Sys2Proof.Machine.execIfuPmuFi e w s
  | .ifuPmuMeas e w => Sys2Proof.Machine.execIfuPmuMeas e w s
  | .ifuPmuRead e w => Sys2Proof.Machine.execIfuPmuRead e w s
  | .ifuTdcArm e w => Sys2Proof.Machine.execIfuTdcArm e w s
  | .ifuTdcDisarm e w => Sys2Proof.Machine.execIfuTdcDisarm e w s
  | .ifuTdcPoplo e w => Sys2Proof.Machine.execIfuTdcPoplo e w s
  | .ifuTdcPophi e w => Sys2Proof.Machine.execIfuTdcPophi e w s
  | .ifuWinCount e w => Sys2Proof.Machine.execIfuWinCount e w s
  | .ifuWinClear e w => Sys2Proof.Machine.execIfuWinClear e w s
  | .ifuWinMark e w => Sys2Proof.Machine.execIfuWinMark e w s
  | .ifuStrMset e w => Sys2Proof.Machine.execIfuStrMset e w s
  | .ifuStrMclr e w => Sys2Proof.Machine.execIfuStrMclr e w s
  | .ifuStrJreq e w => Sys2Proof.Machine.execIfuStrJreq e w s
  | .ifuStrJsched e w => Sys2Proof.Machine.execIfuStrJsched e w s
  | .ifuStrProg e w => Sys2Proof.Machine.execIfuStrProg e w s
  | .ifuTrgFire e w => Sys2Proof.Machine.execIfuTrgFire e w s
  | .ifuTrgTake e w => Sys2Proof.Machine.execIfuTrgTake e w s
  | .ifuEvtSend e w => Sys2Proof.Machine.execIfuEvtSend e w s
  | .ifuEvtTake e w => Sys2Proof.Machine.execIfuEvtTake e w s
  | .ifuQueArg e w => Sys2Proof.Machine.execIfuQueArg e w s
  | .ifuQuePut e w => Sys2Proof.Machine.execIfuQuePut e w s
  | .ifuQueDone e w => Sys2Proof.Machine.execIfuQueDone e w s
  | .ifuTmrLoad e w => Sys2Proof.Machine.execIfuTmrLoad e w s
  | .ifuTmrRead e w => Sys2Proof.Machine.execIfuTmrRead e w s
  | .ifuBayRead e w => Sys2Proof.Machine.execIfuBayRead e w s
  | .ifuBayWrite e w => Sys2Proof.Machine.execIfuBayWrite e w s
  | .mgmtFailover => Sys2Proof.Machine.execMgmtFailover s
  | .fwProbationEnd => Sys2Proof.Machine.execFwProbationEnd s
  | .fwWritebackDone => Sys2Proof.Machine.execFwWritebackDone s
  | .coldStart vpe ref => Sys2Proof.Machine.execColdStart vpe ref s
  | .startupCalDone => Sys2Proof.Machine.execStartupCalDone s
  | .rstNLow => Sys2Proof.Machine.execRstNLow s
  | .coldReset => Sys2Proof.Machine.execColdReset s
  | .rstNRise => Sys2Proof.Machine.execRstNRise s
  | .warmReset => Sys2Proof.Machine.execWarmReset s
  | .epochWrap => Sys2Proof.Machine.execEpochWrap s
  | .drvLimitOnset p => Sys2Proof.Machine.execDrvLimitOnset p s
  | .pmuLimitRelease p => Sys2Proof.Machine.execPmuLimitRelease p s
  | .dpsLimitRelease d => Sys2Proof.Machine.execDpsLimitRelease d s
  | .digCaptureStart k => Sys2Proof.Machine.execDigCaptureStart k s
  | .syncRetEdge rt => Sys2Proof.Machine.execSyncRetEdge rt s
  | .standbyPairFail => Sys2Proof.Machine.execStandbyPairFail s
  | .unitFence u => Sys2Proof.Machine.execUnitFence u s
  | .flashFail => Sys2Proof.Machine.execFlashFail s
  | .coreFault rail => Sys2Proof.Machine.execCoreFault rail s
  | .warnClear z => Sys2Proof.Machine.execWarnClear z s
  | .vinInputFail b => Sys2Proof.Machine.execVinInputFail b s
  | .lpiExitTimeout n => Sys2Proof.Machine.execLpiExitTimeout n s
  | .fineDelayCalCommit => Sys2Proof.Machine.execFineDelayCalCommit s

end Sys2Proof.Machine
end

