-- ==== Sys2Proof/Safety.lean ====
section
/-!
DEFINITION. The terms in which the statements speak of a run: when a host command has its effect, what its completion
leaves in the books, what else a command may change, the invariants of the block.
-/
namespace Sys2Proof.Machine

/-- A host command runs now (R329, R342, R357, R358, R483): the device serves commands, the journal holds the command as started (or
never held it) and not as one that QUE.RESUME executes again, its scope is one of the opcode's (`scopes`) and names the target
`tg`, it may change the device from where it arrived, and no recovery keeps its opcode from being served. -/
structure Runs (op scopes : Nat) (c : Cmd) (tg : Target) (s : State) : Prop where
  serving : s.serving = true
  started : mayRun op c s = true
  once : (s.entry? c.key).bind (·.retry) = none
  target : c.target = some tg
  scope : scopes &&& tg.scopeBit ≠ 0
  role : c.obs = false ∨ op ∈ readingOpcodes
  firmware : s.boot.recovery = false ∨ op ∉ slowOpcodes ∨ op = 0x020

/-- `u` with the books of `t`: the work in progress, the completions in the journal and those that wait to be posted, the data
that an SPI submission finds in SPI_CMD, the trace buffer and the counters. `t = book t u` says that `t` is `u` but for them. -/
def book (t u : State) : State :=
  { u with
    works := t.works, compl := t.compl, journal := t.journal, spi := { u.spi with cmd := t.spi.cmd }
    obs := { u.obs with
      drop := t.obs.drop, tseq := t.obs.tseq, buffer := t.obs.buffer, dropped := t.obs.dropped
      dropFirst := t.obs.dropFirst, dropStamp := t.obs.dropStamp, counters := t.obs.counters } }

/-- The command is answered OK, or OK_QUALIFIED, with this result in W6 and W7, and with this data (R344, R346, R362): one completion record is
added to those that wait to be posted, after `before` of other commands that ended with it; the command's work is over. -/
def AnsweredAfter (before : List Cpl) (c : Cmd) (s t : State) (detail res : Nat) (data : List Byte) : Prop :=
  t.work? c.key = none ∧
    ∃ r : Cpl, t.compl = s.compl ++ before ++ [r] ∧ r.key = c.key ∧ (r.cls = 0 ∧ r.code = 0 ∨ r.cls = 1) ∧
      r.detail = BitVec.ofNat 16 detail ∧ r.w6 = BitVec.ofNat 32 res ∧ r.w7 = BitVec.ofNat 32 (res / 2 ^ 32) ∧
      r.data = data ∧ r.stamp = t.stamp

/-- The command alone is answered OK, or OK_QUALIFIED. -/
def Answered (c : Cmd) (s t : State) (detail res : Nat) (data : List Byte) : Prop := AnsweredAfter [] c s t detail res data

/-- `u` with the books of `t` and the queues of `t`: a completion may halt its queue, and one that QUE.RESUME executes again reopens
it (R350, R351). -/
def bookQ (t u : State) : State := { book t u with queues := t.queues }

/-- A write of the register `n` with the value `v` is made now: by the host as a DEV.REG_WRITE within its scope (R358, R364), or by
an engine that runs and reaches the register (R148). -/
def WriteRuns (n : RegName) (v : Word) (a : Agent) (reach : Nat → State → Bool) (s : State) : Prop :=
  match a with
  | .host c => (∃ tg, Runs 0x002 29 c tg s ∧ regScope s tg n = none) ∧ c.params.length = 8 ∧ regAt (c.u 0 4) = some n ∧
      c.u 4 4 = v.toNat
  | .engine e => engRunning s e.val = true ∧ reach e.val s = true

/-- A register write that gave the state `u` is over in `t`: a host write is answered (R364), an engine's clears REFUSE (R159). -/
def Written (a : Agent) (s t u : State) : Prop :=
  match a with
  | .host c => Answered c s t 0 0 [] ∧ t = book t u
  | .engine e => t = setRefuse e.val false u

/-- An event of fault source `i` has reached the Sieve (R440, R442, R448): its alarm bit is set, its queued entry carries the event's cause
and stamp; the alarm bits of the other sources and the records of the Gleaner are unchanged. -/
structure Raised (i cause : Nat) (s t : State) : Prop where
  alarm : (t.source i).alarm = true
  entry : ∃ e, (t.source i).entry = some e ∧ e.cause = BitVec.ofNat 8 cause ∧ e.lastStamp = t.evStamp
  others : ∀ j, j ≠ i → (t.source j).alarm = (s.source j).alarm
  records : t.flt = { s.flt with sources := t.flt.sources, lastEvent := t.flt.lastEvent, alarmNew := t.flt.alarmNew }

/-- The command is in progress: its work has begun and no completion was added. -/
def InProgress (c : Cmd) (s t : State) : Prop :=
  (∃ w, t.work? c.key = some w ∧ w.started = true) ∧ t.compl = s.compl

/-- One completion record in this class with this code and detail ends the command of key `k` (R344, R345). -/
def EndedWith (k : Key) (cls code detail : Nat) (s t : State) : Prop :=
  t.work? k = none ∧
    ∃ r : Cpl, t.compl = s.compl ++ [r] ∧ r.key = k ∧ r.cls = BitVec.ofNat 4 cls ∧ r.code = BitVec.ofNat 12 code ∧
      r.detail = BitVec.ofNat 16 detail

/-- The PIN field at offset 0 names pins of the target: one of them, or with 0xFFFF all within reach (R358, R360). -/
def NamesPins (c : Cmd) (s : State) (tg : Target) : Prop := c.u 0 2 = 0xFFFF ∨ c.u 0 2 < 256 ∧ tg.hasPin s (c.u 0 2) = true

/-- The PIN field at offset 0 names one pin of the target (R358, R370). -/
def NamesPin (c : Cmd) (s : State) (tg : Target) : Prop := c.u 0 2 < 256 ∧ tg.hasPin s (c.u 0 2) = true

/-- A pin is within the target's reach, its units are not fenced, and no stream runs on it (R20, R45, R361). -/
def PinFree (s : State) (tg : Target) (p : Nat) : Prop := pinReach s tg p = none ∧ streamOn s p = false

/-- Parameters at offset `o` of `n` bytes are 0, as a field shown as a dash must be (R359). -/
def Blank (c : Cmd) (o n : Nat) : Prop := c.u o n = 0

/-- The BUF operand at offset `o` names `lo` to `hi` whole slots of one stack's capture region that no buffer holds and whose stack
is not fenced (R93, R113, R234, R360). -/
structure BufReady (c : Cmd) (o lo hi : Nat) (s : State) : Prop where
  reserved : Blank c (o + 7) 1
  mode : c.u (o + 6) 1 ≤ 1
  least : lo ≤ c.u (o + 4) 2
  most : c.u (o + 4) 2 ≤ hi
  region : c.u (o + 4) 2 = 0 ∨ bufInRange s (bufOf c o) = true
  fence : c.u (o + 4) 2 = 0 ∨ slotFenceCheck s (c.u o 4) = none
  free : ∀ i < c.u (o + 4) 2, ∀ b ∈ s.grn.caps, b.has (c.u o 4 + i) = false

/-- A stack has room for `units` more of reserved bandwidth (R29). -/
def HasRoom (s : State) (stack units : Nat) : Prop := units = 0 ∨ rsvTotal s stack + units ≤ 2800

/-- The bytes of the Granary from `a` on are `l`, and every other byte is as in `s`. -/
def Stored (a : Nat) (l : List Byte) (s t : State) : Prop :=
  memReads t.grn.mem a l.length = l ∧ ∀ b, b < a ∨ a + l.length ≤ b → memRead t.grn.mem b = memRead s.grn.mem b

/-- The outcome of a command that writes DACs of pins as one change (R44, R369): each named pin that `f` changes holds its new values and reads
SETTLING, and the command waits for it; every other pin is unchanged; where no pin changes, the command is answered at once. -/
structure DacOutcome (c : Cmd) (f : Pin → Pin) (ps : List Nat) (s t : State) : Prop where
  pins : ∀ p, t.pin p =
    if p ∈ ps ∧ f (s.pin p) ≠ s.pin p then
      { f (s.pin p) with stat := setBit (s.pin p).stat 8 true, settling := (s.pin p).settling ++ [c.key] }
    else s.pin p
  answered : (∀ p ∈ ps, f (s.pin p) = s.pin p) → Answered c s t 0 0 []
  waits : (∃ p ∈ ps, f (s.pin p) ≠ s.pin p) → InProgress c s t
  frame : t = book t { s with pins := t.pins }

/-- The Granary's bytes are listed in canonical form, pins and fault sources are listed by rising number, the records of the Gleaner are
at most 256 (R445) and those of the trace buffer at most 4,096 (R510). -/
structure State.Inv (s : State) : Prop where
  memory : Memory.wf s.grn.mem = true
  gleaner : s.flt.gleaner.length ≤ 256
  trace : s.obs.buffer.length ≤ 4096
  pins : Tab.wf s.pins = true
  sources : Tab.wf s.flt.sources = true

end Sys2Proof.Machine
end

