-- ==== Sys2Proof/Certificates/Slice0/Obligations.lean ====
section
/-!
DEFINITION. The statements for the provers: what every command of the block does, family by family, and the invariant that every step
keeps.
-/
open Sys2Proof Sys2Proof.Machine

/-! ## Pins (spec/02_pin_channel.md, spec/03_vector_code_and_edges.md) -/

/-- PIN.LEVELS is admitted: its block, codes in range, every named pin free (R40, R369). -/
abbrev PinLevelsReady (c : Cmd) (s : State) (tg : Target) : Prop :=
  Runs 0x500 29 c tg s ∧ c.params.length = 32 ∧ NamesPins c s tg ∧ c.u 2 1 < 64 ∧ Blank c 3 5 ∧
    (∀ i < 6, (c.u 2 1).testBit i = true → levelOk (codeOfUv (c.i (8 + 4 * i) 4)) = true) ∧
    (pinsNamed s tg (c.u 0 2)).Nodup ∧ ∀ p ∈ pinsNamed s tg (c.u 0 2), PinFree s tg p

/-- PIN.THRESH is admitted: TA ≤ TB ≤ TC, each in range (R40, R41, R369). -/
abbrev PinThreshReady (c : Cmd) (s : State) (tg : Target) : Prop :=
  Runs 0x501 29 c tg s ∧ c.params.length = 24 ∧ NamesPins c s tg ∧ Blank c 2 6 ∧ Blank c 20 4 ∧
    (∀ o ∈ [8, 12, 16], threshOk (codeOfUv (c.i o 4)) = true) ∧ codeAt c 8 ≤ codeAt c 12 ∧ codeAt c 12 ≤ codeAt c 16 ∧
    (pinsNamed s tg (c.u 0 2)).Nodup ∧ ∀ p ∈ pinsNamed s tg (c.u 0 2), PinFree s tg p

/-- PIN.LOAD is admitted: currents from 0 to 24 mA (R369). -/
abbrev PinLoadReady (c : Cmd) (s : State) (tg : Target) : Prop :=
  Runs 0x502 29 c tg s ∧ c.params.length = 24 ∧ NamesPins c s tg ∧ Blank c 2 6 ∧
    (0 ≤ c.i 8 8 ∧ c.i 8 8 ≤ 24000000000) ∧ (0 ≤ c.i 16 8 ∧ c.i 16 8 ≤ 24000000000) ∧
    (pinsNamed s tg (c.u 0 2)).Nodup ∧ ∀ p ∈ pinsNamed s tg (c.u 0 2), PinFree s tg p

/-- PIN.CLAMP is admitted: codes in range, the clamps 500.1 mV apart (R40, R41, R369). -/
abbrev PinClampReady (c : Cmd) (s : State) (tg : Target) : Prop :=
  Runs 0x503 29 c tg s ∧ c.params.length = 16 ∧ NamesPins c s tg ∧ Blank c 2 2 ∧ Blank c 12 4 ∧
    threshOk (codeOfUv (c.i 4 4)) = true ∧ threshOk (codeOfUv (c.i 8 4)) = true ∧ codeAt c 4 + 0x0D06 ≤ codeAt c 8 ∧
    (pinsNamed s tg (c.u 0 2)).Nodup ∧ ∀ p ∈ pinsNamed s tg (c.u 0 2), PinFree s tg p

/-- PIN.LEVELS, PIN.THRESH, PIN.LOAD and PIN.CLAMP write their DACs on every named pin as one change and complete when those
have settled (R44, R369). Model's choices in it: log entry 26. -/
def Obligations.PinDacCommandsSetTheirDacs : Prop :=
  (∀ c s tg, PinLevelsReady c s tg →
    ∃ t, exec (.pinLevels c) s = .next t ∧ DacOutcome c (levelsOf c) (pinsNamed s tg (c.u 0 2)) s t) ∧
  (∀ c s tg, PinThreshReady c s tg →
    ∃ t, exec (.pinThresh c) s = .next t ∧
      DacOutcome c (fun x => { x with
        thabStaged := halves (codeAt c 12) (codeAt c 8), thab := halves (codeAt c 12) (codeAt c 8)
        thc := halves 0 (codeAt c 16) }) (pinsNamed s tg (c.u 0 2)) s t) ∧
  (∀ c s tg, PinLoadReady c s tg →
    ∃ t, exec (.pinLoad c) s = .next t ∧
      DacOutcome c (fun x => { x with loadi := halves (roundDiv (c.i 8 8) 6000000).toNat (roundDiv (c.i 16 8) 6000000).toNat })
        (pinsNamed s tg (c.u 0 2)) s t) ∧
  (∀ c s tg, PinClampReady c s tg →
    ∃ t, exec (.pinClamp c) s = .next t ∧
      DacOutcome c (fun x => { x with clamp := halves (codeAt c 8) (codeAt c 4) }) (pinsNamed s tg (c.u 0 2)) s t)

/-- What PIN.LEVELS writes (R369): the code of each voltage whose bit of the mask is set, into its half of the level registers;
the halves whose bit is clear keep their code. -/
def Obligations.PinLevelsMaskSelectsLevels : Prop :=
  ∀ (c : Cmd) (x : Pin), (∀ i < 6, (c.u 2 1).testBit i = true → levelOk (codeOfUv (c.i (8 + 4 * i) 4)) = true) →
    ∀ i < 6, let w (y : Pin) : Word := if i < 2 then y.lvl01 else if i < 4 then y.lvl23 else y.vtvc
      (fld (w (levelsOf c x)) (16 * (i % 2)) 16 : Int) =
        if (c.u 2 1).testBit i = true then codeOfUv (c.i (8 + 4 * i) 4) else fld (w x) (16 * (i % 2)) 16

/-- PIN.CTRL is admitted (R38, R51, R59): IDLE_ACT valid, PIN_EN 1 only without SAFED and PE_RAIL; no command waits on the PMU. -/
abbrev PinCtrlReady (c : Cmd) (s : State) (tg : Target) : Prop :=
  Runs 0x504 29 c tg s ∧ c.params.length = 16 ∧ NamesPins c s tg ∧ Blank c 2 2 ∧ Blank c 12 4 ∧
    idleActOk (c.u 4 4 % 16) = true ∧
    ∀ p ∈ pinsNamed s tg (c.u 0 2), PinFree s tg p ∧ (s.pin p).pmu.keys = [] ∧
      ((c.u 4 4).testBit 16 = true → bit (s.pin p).stat 2 = false ∧ bit (s.pin p).stat 1 = false)

/-- A write of PIN_CTRL is admitted (R38, R45, R51, R59); no command waits on the PMU. -/
abbrev PinCtrlWriteReady (a : Agent) (p : Fin 256) (v : Word) (s : State) : Prop :=
  WriteRuns (.pin p.val 0x20) v a (fun e s => engPin s e p.val) s ∧ regReach a s p.val = none ∧
    idleActOk (v.toNat % 16) = true ∧ streamOn s p.val = false ∧ (s.pin p.val).pmu.keys = [] ∧
    (bit v 16 = true → bit (s.pin p.val).stat 2 = false ∧ bit (s.pin p.val).stat 1 = false)

/-- PIN.TSET is admitted: SET, FMT, D and the edges in range (R77, R369). -/
abbrev PinTsetReady (c : Cmd) (s : State) (tg : Target) : Prop :=
  Runs 0x505 29 c tg s ∧ c.params.length = 24 ∧ NamesPins c s tg ∧ c.u 2 1 ≤ 15 ∧ c.u 3 1 ≤ 2 ∧
    (2 ≤ c.u 4 4 ∧ c.u 4 4 ≤ 65536) ∧ (∀ o ∈ [8, 12, 16, 20], c.u o 4 < 2 ^ 25) ∧
    ∀ p ∈ pinsNamed s tg (c.u 0 2), PinFree s tg p

/-- A write of PIN_THC is admitted: the staged TA and TB and the written TC are in order (R41, R45, R48). -/
abbrev PinThcWriteReady (a : Agent) (p : Fin 256) (v : Word) (s : State) : Prop :=
  WriteRuns (.pin p.val 0x0C) v a (fun e s => engPin s e p.val) s ∧ regReach a s p.val = none ∧ streamOn s p.val = false ∧
    v.toNat % 65536 ≤ 0xEA60 ∧ fld (s.pin p.val).thabStaged 0 16 ≤ fld (s.pin p.val).thabStaged 16 16 ∧
    fld (s.pin p.val).thabStaged 16 16 ≤ v.toNat % 65536

/-- PIN_CTRL by PIN.CTRL and by a register write (R51, R52, R63), PIN.TSET (R78, R369), PIN_THC (R48). A pin that PIN_EN = 0,
SLEPT or PE_RAIL holds in SAFE reads CLAMP_EN 1; one that is released takes every field as written. Model's choices in it: log
entries 26 and 27. -/
def Obligations.PinControlAndTimingWrites : Prop :=
  (∀ c s tg, PinCtrlReady c s tg →
    ∃ t, exec (.pinCtrl c) s = .next t ∧ Answered c s t 0 0 [] ∧
      (∀ p ∈ pinsNamed s tg (c.u 0 2),
        (t.pin p).symcfg = BitVec.ofNat 32 (c.u 8 4) &&& 3#32 ∧
        if (c.u 4 4).testBit 16 = true then
          (t.pin p).ctrl = BitVec.ofNat 32 (c.u 4 4) &&& 0x0F1F000F#32 ∧ bit (t.pin p).stat 0 = false
        else
          (t.pin p).ctrl = setBit (BitVec.ofNat 32 (c.u 4 4) &&& 0x0F1F000F#32) 17 true ∧ bit (t.pin p).stat 0 = true ∧
            (t.pin p).stage = .safe) ∧
      (∀ p, p ∉ pinsNamed s tg (c.u 0 2) → t.pin p = s.pin p) ∧
      t = book t { s with pins := t.pins, runs := t.runs }) ∧
  (∀ a p v s, PinCtrlWriteReady a p v s →
    ∃ t u, exec (.pinCtrlWrite a p v) s = .next t ∧ Written a s t u ∧
      (if bit v 16 = true ∧ (agentIsHost a = true ∨ bit (s.pin p.val).stat 11 = false) then
        (u.pin p.val).ctrl = v &&& 0x0F1F000F#32 ∧ bit (u.pin p.val).stat 0 = false
      else
        (u.pin p.val).ctrl = setBit (v &&& 0x0F1F000F#32) 17 true ∧ bit (u.pin p.val).stat 0 = true ∧
          (u.pin p.val).stage = .safe) ∧
      (∀ q, q ≠ p.val → u.pin q = s.pin q) ∧ u = { s with pins := u.pins, runs := u.runs, works := u.works }) ∧
  (∀ c s tg, PinTsetReady c s tg →
    ∃ t, exec (.pinTset c) s = .next t ∧ Answered c s t 0 (tsetOf c).valid.toNat [] ∧
      (∀ p ∈ pinsNamed s tg (c.u 0 2), (t.pin p).tset (c.u 2 1) = tsetOf c ∧
        (∀ n, n ≠ c.u 2 1 → (t.pin p).tset n = (s.pin p).tset n) ∧ t.pin p = { s.pin p with sets := (t.pin p).sets }) ∧
      (∀ p, p ∉ pinsNamed s tg (c.u 0 2) → t.pin p = s.pin p) ∧ t = book t { s with pins := t.pins }) ∧
  (∀ a p v s, PinThcWriteReady a p v s →
    ∃ t, exec (.pinThcWrite a p v) s = .next t ∧ (t.pin p.val).thab = (s.pin p.val).thabStaged ∧
      (t.pin p.val).thc = BitVec.ofNat 32 (v.toNat % 65536) ∧
      (if (s.pin p.val).thab = (s.pin p.val).thabStaged ∧ (s.pin p.val).thc = BitVec.ofNat 32 (v.toNat % 65536) then
        ∃ u, Written a s t u ∧ u = { s with pins := t.pins, works := u.works }
       else match a with
        | .host c => InProgress c s t ∧ c.key ∈ (t.pin p.val).settling ∧ t = { s with pins := t.pins, works := t.works }
        | .engine e => t = setRefuse e.val false { s with pins := t.pins }) ∧
      (∀ q, q ≠ p.val → t.pin q = s.pin q))

/-- DAC_SETTLED (R44) ends SETTLING and answers the command that waits for this pin alone; CLAMP_CONDUCT (R56) sets its flag and
raises the pin's source; DRV_LIMIT_ONSET and DRV_LIMIT_SAFE (R58): the flag, and 2 µs after the onset SAFE with SAFED set and
PIN_EN cleared. Model's choices in it: log entries 16 and 26. -/
def Obligations.PinEventsActOnTheirPin : Prop :=
  (∀ (p : Fin 256) (s : State), ∃ t, exec (.dacSettled p) s = .next t ∧
    bit (t.pin p.val).stat 8 = false ∧ (t.pin p.val).settling = [] ∧
    t.pin p.val = { s.pin p.val with stat := (t.pin p.val).stat, settling := (t.pin p.val).settling } ∧
    (∀ q, q ≠ p.val → t.pin q = s.pin q) ∧ t = bookQ t { s with pins := t.pins }) ∧
  (∀ (p : Fin 256) (c : Cmd) (s : State), (s.pin p.val).settling = [c.key] →
    settledElsewhere c.key (s.updPin p.val (fun x => { x with settling := [] })) = true →
    (∃ w, s.work? c.key = some w) → (s.entry? c.key).bind (·.retry) = none →
    ∃ t, exec (.dacSettled p) s = .next t ∧ Answered c s t 0 0 []) ∧
  (∀ (p : Fin 256) (high : Bool) (s : State), bit (s.pin p.val).stat 1 = false → bit (s.pin p.val).ctrl 17 = true →
    ∃ t, exec (.clampConduct p high) s = .next t ∧ bit (t.pin p.val).stat (if high then 5 else 4) = true ∧
      t.pin p.val = { s.pin p.val with stat := (t.pin p.val).stat } ∧ (∀ q, q ≠ p.val → t.pin q = s.pin q) ∧
      Raised (srcPin p.val) (if high then 1 else 2) s t ∧ t = { s with pins := t.pins, flt := t.flt }) ∧
  (∀ (p : Fin 256) (s : State), (s.pin p.val).driverOn = true →
    ∃ t, exec (.drvLimitOnset p) s = .next t ∧ bit (t.pin p.val).stat 3 = true ∧ (t.pin p.val).limitSince = some s.mono ∧
      t.pin p.val = { s.pin p.val with stat := (t.pin p.val).stat, limitSince := (t.pin p.val).limitSince } ∧
      (∀ q, q ≠ p.val → t.pin q = s.pin q) ∧ t = { s with pins := t.pins }) ∧
  (∀ (p : Fin 256) (m : Nat) (s : State), (s.pin p.val).driverOn = true → (s.pin p.val).limitSince = some m →
    (s.pin p.val).pmu.keys = [] →
    ∃ t, exec (.drvLimitSafe p) s = .next t ∧ t.mono = max s.mono (m + 1638400) ∧ bit (t.pin p.val).stat 0 = true ∧
      bit (t.pin p.val).stat 2 = true ∧ bit (t.pin p.val).ctrl 16 = false ∧ (t.pin p.val).stage = .safe ∧
      Raised (srcPin p.val) 3 s t ∧ (∀ q, q ≠ p.val → t.pin q = s.pin q) ∧
      t = { s with pins := t.pins, flt := t.flt, runs := t.runs, now := t.now, mono := t.mono })

/-! ## The per-pin PMU (spec/08_pmu.md) -/

/-- A force is admitted on a pin (R190, R192, R198, R370): no engine holds the PMU, the pin is not SAFE, no stream runs, and of range 7 at
most one other is in use in the bay. -/
abbrev PmuForceReady (s : State) (tg : Target) (p range : Nat) : Prop :=
  pinReach s tg p = none ∧ (s.pin p).pmu.holder ≠ 1 ∧ (s.pin p).pmu.holder ≠ 3 ∧ bit (s.pin p).stat 0 = false ∧
    (s.pin p).heldSafe = false ∧ streamOn s p = false ∧ (range = 7 → hiRangeUsers s p < 2)

/-- PMU.FV is admitted. -/
abbrev PmuFvReady (c : Cmd) (s : State) (tg : Target) : Prop :=
  Runs 0x600 29 c tg s ∧ c.params.length = 8 ∧ NamesPin c s tg ∧ c.u 2 1 ≤ 7 ∧ Blank c 3 1 ∧
    (-1500000 ≤ c.i 4 4 ∧ c.i 4 4 ≤ 6500000) ∧ PmuForceReady s tg (c.u 0 2) (c.u 2 1)

/-- PMU.FI is admitted. -/
abbrev PmuFiReady (c : Cmd) (s : State) (tg : Target) : Prop :=
  Runs 0x601 29 c tg s ∧ c.params.length = 16 ∧ NamesPin c s tg ∧ c.u 2 1 ≤ 7 ∧ Blank c 3 5 ∧
    (-(rangeFs (c.u 2 1)) ≤ c.i 8 8 ∧ c.i 8 8 ≤ rangeFs (c.u 2 1)) ∧ PmuForceReady s tg (c.u 0 2) (c.u 2 1)

/-- PMU.MV is admitted: no force waits to settle. -/
abbrev PmuMvReady (c : Cmd) (s : State) (tg : Target) : Prop :=
  Runs 0x602 29 c tg s ∧ c.params.length = 8 ∧ NamesPin c s tg ∧ Blank c 2 6 ∧ pinReach s tg (c.u 0 2) = none ∧
    (s.pin (c.u 0 2)).pmu.holder ≠ 1 ∧ (s.pin (c.u 0 2)).pmu.holder ≠ 3 ∧ bit (s.pin (c.u 0 2)).stat 0 = false ∧
    (s.pin (c.u 0 2)).pmu.waiting = []

/-- PMU.MEAS is admitted: the PMU is on, and measures current only while it forces (R192, R202). -/
abbrev PmuMeasReady (c : Cmd) (s : State) (tg : Target) : Prop :=
  Runs 0x603 29 c tg s ∧ c.params.length = 8 ∧ NamesPin c s tg ∧ c.u 2 1 ≤ 1 ∧ Blank c 3 1 ∧
    (1 ≤ c.u 4 2 ∧ c.u 4 2 ≤ 65535) ∧ Blank c 6 2 ∧ pinReach s tg (c.u 0 2) = none ∧ (s.pin (c.u 0 2)).pmu.holder ≠ 1 ∧
    (s.pin (c.u 0 2)).pmu.mode ≠ 0 ∧ (c.u 2 1 = 1 → (s.pin (c.u 0 2)).pmu.mode ≠ 3)

/-- PMU.DISC is admitted. -/
abbrev PmuDiscReady (c : Cmd) (s : State) (tg : Target) : Prop :=
  Runs 0x604 29 c tg s ∧ c.params.length = 8 ∧ NamesPin c s tg ∧ Blank c 2 6 ∧ pinReach s tg (c.u 0 2) = none ∧
    (s.pin (c.u 0 2)).pmu.holder ≠ 1

/-- What a forcing command leaves (R189, R194, R200, R201, R500): the pin's PMU in its mode, held by a command, connected at the range with the
value, SETTLING; the stage open; the command waits; nothing else changes. -/
structure ForceOutcome (c : Cmd) (p mode range : Nat) (value : Int) (senseOpen : Bool) (s t : State) : Prop where
  mode : (t.pin p).pmu.mode = mode
  holder : (t.pin p).pmu.holder = 2
  range : fld (t.pin p).pmu.ctrl 8 4 = range
  value : (t.pin p).pmu.force = value
  settling : bit (t.pin p).pmu.stat 5 = true
  waits : c.key ∈ (t.pin p).pmu.waiting
  stage : (t.pin p).stage = .openZ
  kelvin : (s.pin p).pmu.mode = 0 → bit (s.pin p).ctrl 19 = true →
    bit (t.pin p).pmu.ctrl 1 = !senseOpen ∧ (senseOpen = true → bit (t.pin p).stat 7 = true)
  pin : t.pin p = { s.pin p with pmu := (t.pin p).pmu, stat := (t.pin p).stat, stage := (t.pin p).stage }
  others : ∀ q, q ≠ p → t.pin q = s.pin q
  progress : InProgress c s t
  frame : t = { s with pins := t.pins, works := t.works }

/-- The PMU commands (R189 to R202, R370): a force connects, sets its mode, range and value and waits for settling; PMU.MV
completes with the sense path; PMU.MEAS starts a measurement or waits for the present one; PMU.DISC returns the PMU to OFF.
Model's choices in it: log entry 33. -/
def Obligations.PmuCommandsHaveTheirEffect : Prop :=
  (∀ c senseOpen s tg, PmuFvReady c s tg →
    ∃ t, exec (.pmuFv c senseOpen) s = .next t ∧ ForceOutcome c (c.u 0 2) 1 (c.u 2 1) (c.i 4 4) senseOpen s t) ∧
  (∀ c senseOpen s tg, PmuFiReady c s tg →
    ∃ t, exec (.pmuFi c senseOpen) s = .next t ∧ ForceOutcome c (c.u 0 2) 2 (c.u 2 1) (c.i 8 8) senseOpen s t) ∧
  (∀ c senseOpen s tg, PmuMvReady c s tg →
    ∃ t, exec (.pmuMv c senseOpen) s = .next t ∧ Answered c s t 0 0 [] ∧ (t.pin (c.u 0 2)).pmu.mode = 3 ∧
      (t.pin (c.u 0 2)).pmu.holder = 2 ∧ (t.pin (c.u 0 2)).pmu.force = 0 ∧
      fld (t.pin (c.u 0 2)).pmu.ctrl 8 4 = fld (s.pin (c.u 0 2)).pmu.ctrl 8 4 ∧
      (∀ q, q ≠ c.u 0 2 → t.pin q = s.pin q) ∧ t = book t { s with pins := t.pins }) ∧
  (∀ c s tg, PmuMeasReady c s tg →
    ∃ t, exec (.pmuMeas c) s = .next t ∧ InProgress c s t ∧ bit (t.pin (c.u 0 2)).pmu.stat 0 = true ∧
      (if bit (s.pin (c.u 0 2)).pmu.stat 0 = true then
        (t.pin (c.u 0 2)).pmu.next = (s.pin (c.u 0 2)).pmu.next ++ [(c.u 2 1 == 1, c.u 4 2, some c.key)] ∧
          (t.pin (c.u 0 2)).pmu.measBy = (s.pin (c.u 0 2)).pmu.measBy
      else
        (t.pin (c.u 0 2)).pmu.measKind = (c.u 2 1 == 1) ∧ (t.pin (c.u 0 2)).pmu.measN = c.u 4 2 ∧
          (t.pin (c.u 0 2)).pmu.measBy = some c.key ∧ (t.pin (c.u 0 2)).pmu.measT0 = s.stamp) ∧
      (∀ q, q ≠ c.u 0 2 → t.pin q = s.pin q) ∧ t = { s with pins := t.pins, works := t.works }) ∧
  (∀ c s tg, PmuDiscReady c s tg → (s.pin (c.u 0 2)).pmu.keys = [] →
    ∃ t, exec (.pmuDisc c) s = .next t ∧ Answered c s t 0 0 [] ∧ (t.pin (c.u 0 2)).pmu = (s.pin (c.u 0 2)).pmu.toOff ∧
      (t.pin (c.u 0 2)).pmu.mode = 0 ∧ (t.pin (c.u 0 2)).pmu.holder = 0 ∧
      (∀ q, q ≠ c.u 0 2 → t.pin q = s.pin q) ∧ t = book t { s with pins := t.pins })

/-- PMU.DISC while a command measures on the PMU (R195): that command ends ABORTED with PMU_RELEASED and the pin, then PMU.DISC is
answered. -/
def Obligations.PmuDiscAbortsTheMeasurement : Prop :=
  ∀ c s tg k, PmuDiscReady c s tg → (s.pin (c.u 0 2)).pmu.keys = [k] → k ≠ c.key → (∃ w, s.work? k = some w) →
    (∀ e ∈ s.journal, e.retry = none) →
    ∃ t r, exec (.pmuDisc c) s = .next t ∧ r.key = k ∧ r.cls = 6 ∧ r.code = 0x207 ∧ r.detail = BitVec.ofNat 16 (c.u 0 2) ∧
      AnsweredAfter [r] c s t 0 0 [] ∧ t.work? k = none ∧ (t.pin (c.u 0 2)).pmu.mode = 0

/-- The events of the PMU (R199, R200, R202, R203, R207): settling ends and its commands complete; a measurement becomes the result; AT_LIMIT
and LIM_SEEN; the commit of a calibration while the PMU is OFF and the ADC idle. -/
def Obligations.PmuEventsHaveTheirEffect : Prop :=
  (∀ (p : Fin 256) (s : State), bit (s.pin p.val).pmu.stat 5 = true →
    ∃ t, exec (.pmuSettled p) s = .next t ∧
      t.pin p.val = { s.pin p.val with pmu :=
        { (s.pin p.val).pmu with stat := (s.pin p.val).pmu.stat &&& 0xFFFFFF1F#32, waiting := [] } } ∧
      (∀ q, q ≠ p.val → t.pin q = s.pin q) ∧ t = bookQ t { s with pins := t.pins } ∧
      (∀ c : Cmd, (s.pin p.val).pmu.waiting = [c.key] → (∃ w, s.work? c.key = some w) →
        (s.entry? c.key).bind (·.retry) = none → Answered c s t 0 0 [])) ∧
  (∀ (p : Fin 256) (mean : Int) (flags : BitVec 4) (s : State), bit (s.pin p.val).pmu.stat 0 = true →
    (s.pin p.val).pmu.next = [] →
    ∃ t, exec (.pmuMeasDone p mean flags) s = .next t ∧ (t.pin p.val).pmu.res = mean ∧
      (t.pin p.val).pmu.resInfo = resInfoOf (s.pin p.val).pmu flags ∧ (t.pin p.val).pmu.resT0 = (s.pin p.val).pmu.measT0 ∧
      (t.pin p.val).pmu.measBy = none ∧ bit (t.pin p.val).pmu.stat 0 = false ∧ bit (t.pin p.val).pmu.stat 2 = true ∧
      bit (t.pin p.val).pmu.stat 1 = bit flags 0 ∧
      (∀ q, q ≠ p.val → t.pin q = s.pin q) ∧ t = bookQ t { s with pins := t.pins } ∧
      (∀ c : Cmd, (s.pin p.val).pmu.measBy = some c.key → (∃ w, s.work? c.key = some w) →
        (s.entry? c.key).bind (·.retry) = none →
        ∃ r : Cpl, t.compl = s.compl ++ [r] ∧ r.key = c.key ∧ r.w6 = BitVec.ofNat 32 (ofSigned 64 mean) ∧
          r.w7 = BitVec.ofNat 32 (ofSigned 64 mean / 2 ^ 32) ∧
          (if bit flags 0 = true then r.cls = 1 ∧ r.code = 0x208 else if bit flags 2 = true then r.cls = 1 ∧ r.code = 0x209
           else if bit flags 1 = true then r.cls = 1 ∧ r.code = 0x20A
           else if (s.pin p.val).pmu.kelvinBad = true then r.cls = 1 ∧ r.code = 0x105
           else r.cls = 0 ∧ r.code = 0 ∨ r.cls = 1))) ∧
  (∀ (p : Fin 256) (s : State), (s.pin p.val).pmu.forcing = true →
    ∃ t, exec (.pmuCompliance p) s = .next t ∧ bit (t.pin p.val).pmu.stat 4 = true ∧ bit (t.pin p.val).pmu.stat 3 = true ∧
      t.pin p.val = { s.pin p.val with pmu := { (s.pin p.val).pmu with stat := (t.pin p.val).pmu.stat } } ∧
      (∀ q, q ≠ p.val → t.pin q = s.pin q) ∧ t = { s with pins := t.pins }) ∧
  (∀ (p : Fin 256) (s : State),
    ∃ t, exec (.pmuLimitRelease p) s = .next t ∧ bit (t.pin p.val).pmu.stat 4 = false ∧
      bit (t.pin p.val).pmu.stat 3 = bit (s.pin p.val).pmu.stat 3 ∧
      t.pin p.val = { s.pin p.val with pmu := { (s.pin p.val).pmu with stat := (t.pin p.val).pmu.stat } } ∧
      (∀ q, q ≠ p.val → t.pin q = s.pin q) ∧ t = { s with pins := t.pins }) ∧
  (∀ (p : Fin 256) (s : State), s.powered = true → (s.pin p.val).pmu.mode = 0 →
    bit (s.pin (2 * (p.val / 2))).pmu.stat 0 = false → bit (s.pin (2 * (p.val / 2) + 1)).pmu.stat 0 = false →
    ∃ t, exec (.pmuCalCommit p) s = .next t ∧ t.ce = (if s.ce = 0xFFFF#16 then 1#16 else s.ce + 1) ∧
      t = { s with ce := t.ce, pins := t.pins, caps := t.caps, slices := t.slices, grn := t.grn, obs := t.obs })

/-! ## Timestamps (spec/10_tdc.md) -/

/-- TDC.CAPTURE is admitted (R234, R371). -/
abbrev TdcCaptureReady (c : Cmd) (s : State) (tg : Target) : Prop :=
  Runs 0x700 17 c tg s ∧ c.params.length = 64 ∧ c.u 0 32 ≠ 0 ∧
    (∀ p ∈ capPins c, tg.hasPin s p = true ∧ pinReach s tg p = none ∧ (s.pin p).tdc.holder = 0) ∧
    (1 ≤ c.u 32 1 ∧ c.u 32 1 ≤ 3) ∧ (1 ≤ c.u 33 1 ∧ c.u 33 1 ≤ 2) ∧ Blank c 34 6 ∧ BufReady c 40 1 1024 s ∧ Blank c 58 6 ∧
    8192 ≤ capArea c ∧ HasRoom s (stackOf s (c.u 40 4)) (c.u 33 1 * (capPins c).length)

/-- TDC.INTERVAL is admitted on a slice whose unit is free (R239, R371). -/
abbrev TdcIntervalReady (c : Cmd) (n : Nat) (s : State) : Prop :=
  Runs 0x701 8 c (.slice n) s ∧ c.params.length = 32 ∧ c.u 0 2 ≤ 255 ∧ c.u 2 2 ≤ 255 ∧
    (1 ≤ c.u 4 1 ∧ c.u 4 1 ≤ 2) ∧ (1 ≤ c.u 5 1 ∧ c.u 5 1 ≤ 2) ∧ c.u 6 1 ≤ 1 ∧ c.u 7 1 ≤ 8 ∧
    (1 ≤ c.u 8 4 ∧ c.u 8 4 ≤ 4294967295) ∧ Blank c 12 4 ∧ BufReady c 24 1 1024 s ∧
    pinReach s (.slice n) (c.u 0 2) = none ∧ pinReach s (.slice n) (c.u 2 2) = none ∧ fenceCheck s [n] [] = none ∧
    (s.slice n).tiv = none ∧ HasRoom s (stackOf s (c.u 24 4)) (c.u 7 1)

/-- TDC.FREQ is admitted: a gate of 1 µs to 2^48 fine steps (R245, R371). -/
abbrev TdcFreqReady (c : Cmd) (s : State) (tg : Target) : Prop :=
  Runs 0x702 29 c tg s ∧ c.params.length = 16 ∧ NamesPin c s tg ∧ (1 ≤ c.u 2 1 ∧ c.u 2 1 ≤ 2) ∧ Blank c 3 5 ∧
    (819200 ≤ c.u 8 8 ∧ c.u 8 8 ≤ 2 ^ 48) ∧ pinReach s tg (c.u 0 2) = none ∧ (s.pin (c.u 0 2)).tdc.freq = none

/-- TDC.CAL_READ is admitted (R251). -/
abbrev TdcCalReadReady (c : Cmd) (s : State) (tg : Target) : Prop :=
  Runs 0x704 29 c tg s ∧ c.params.length = 16 ∧ NamesPin c s tg ∧ Blank c 2 6 ∧ BufReady c 8 1 1 s ∧
    pinReach s tg (c.u 0 2) = none

/-- What a TDC.STOP ends, by kind: a capture, an interval measurement, a frequency measurement. -/
def stopsKey (c : Cmd) (tg : Target) (s : State) : Option Key :=
  match c.u 0 1 with
  | 0 => (stopCapture? s tg (c.u 4 4)).map (·.key)
  | 1 => ((s.slice tg.sliceNo).tiv).map (·.key)
  | _ => ((s.pin (c.u 2 2)).tdc.freq).map (·.key)

/-- TDC.STOP is admitted and names the running work of command `k` (R371). The first capture of a buffer is the one named. -/
abbrev TdcStopReady (c : Cmd) (s : State) (tg : Target) (k : Key) : Prop :=
  Runs 0x703 25 c tg s ∧ c.params.length = 8 ∧ c.u 0 1 ≤ 2 ∧ Blank c 1 1 ∧
    (c.u 0 1 = 2 → c.u 2 2 < 256 ∧ tg.hasPin s (c.u 2 2) = true ∧ pinReach s tg (c.u 2 2) = none) ∧
    (c.u 0 1 = 1 → tg = .slice tg.sliceNo) ∧
    (c.u 0 1 = 0 → s.caps.find? (fun d => d.first == c.u 4 4) = stopCapture? s tg (c.u 4 4)) ∧
    tdcStopReach c s tg = none ∧ stopsKey c tg s = some k ∧ k ≠ c.key ∧ (∃ w, s.work? k = some w) ∧
    ∀ e ∈ s.journal, e.retry = none

/-- The TDC commands (R234, R239, R245, R251, R371). Model's choices in it: log entry 32. -/
def Obligations.TdcCommandsHaveTheirEffect : Prop :=
  (∀ c s tg, TdcCaptureReady c s tg →
    ∃ t d, exec (.tdcCapture c) s = .next t ∧ InProgress c s t ∧ d ∈ t.caps ∧ d.key = c.key ∧ d.pins = capPins c ∧
      d.pol = BitVec.ofNat 2 (c.u 32 1) ∧ d.rate = c.u 33 1 ∧ d.first = c.u 40 4 ∧ d.count = c.u 44 2 ∧
      d.wrap = (c.u 46 1 == 1) ∧ d.endAt = c.time 48 ∧ d.start = s.now ∧
      (∀ p ∈ capPins c, (t.pin p).tdc.holder = 2 ∧ (t.pin p).tdc.pol = BitVec.ofNat 2 (c.u 32 1) ∧
        (t.pin p).tdc.fifo = [baseMarker s.now]) ∧
      (∀ p, p ∉ capPins c → t.pin p = s.pin p) ∧
      t.grn.caps = s.grn.caps ++ [{ first := c.u 40 4, count := c.u 44 2, busy := true }] ∧
      t.grn = { s.grn with caps := t.grn.caps, rsv0 := t.grn.rsv0, rsv1 := t.grn.rsv1 } ∧
      t = { s with pins := t.pins, caps := t.caps, grn := t.grn, works := t.works }) ∧
  (∀ c n s, TdcIntervalReady c n s →
    ∃ t v, exec (.tdcInterval c) s = .next t ∧ InProgress c s t ∧ (t.slice n).tiv = some v ∧ v.key = c.key ∧
      v.startPin = c.u 0 2 ∧ v.stopPin = c.u 2 2 ∧ v.startRise = (c.u 4 1 == 1) ∧ v.stopRise = (c.u 5 1 == 1) ∧
      v.index = (c.u 6 1 == 1) ∧ v.recRate = c.u 7 1 ∧ v.n = c.u 8 4 ∧ v.pairs = 0 ∧
      v.timeoutAt = (if c.u 16 8 = 0 then none else some (s.mono + c.u 16 8)) ∧
      (∀ m, m ≠ n → t.slice m = s.slice m) ∧
      t.grn.caps = s.grn.caps ++ [{ first := c.u 24 4, count := c.u 28 2, busy := true }] ∧
      t.grn = { s.grn with caps := t.grn.caps, rsv0 := t.grn.rsv0, rsv1 := t.grn.rsv1 } ∧
      t = { s with slices := t.slices, grn := t.grn, works := t.works }) ∧
  (∀ c s tg, TdcFreqReady c s tg →
    ∃ t f, exec (.tdcFreq c) s = .next t ∧ InProgress c s t ∧ (t.pin (c.u 0 2)).tdc.freq = some f ∧ f.key = c.key ∧
      f.rise = (c.u 2 1 == 1) ∧ f.gate = c.u 8 8 ∧ f.openedAt = s.mono ∧ f.closed = false ∧ f.count = 0 ∧
      (∀ q, q ≠ c.u 0 2 → t.pin q = s.pin q) ∧ t = { s with pins := t.pins, works := t.works }) ∧
  (∀ c s tg k, TdcStopReady c s tg k →
    ∃ t r, exec (.tdcStop c) s = .next t ∧ r.key = k ∧ AnsweredAfter [r] c s t 0 0 [] ∧ t.work? k = none ∧
      stopsKey c tg t = none ∧ (c.u 0 1 ≠ 0 → r.cls = 6 ∧ r.code = 0x199) ∧
      t = book t { s with pins := t.pins, caps := t.caps, slices := t.slices, grn := t.grn }) ∧
  (∀ c s tg, TdcCalReadReady c s tg →
    ∃ t, exec (.tdcCalRead c) s = .next t ∧ Answered c s t 0 (c.u 8 4 * 1048576) [] ∧
      Stored (c.u 8 4 * 1048576) (tableRecord (c.u 0 2) (s.pin (c.u 0 2)).tdc.svc (s.pin (c.u 0 2)).tdc ++
        tableRecord (c.u 0 2) (!(s.pin (c.u 0 2)).tdc.svc) (s.pin (c.u 0 2)).tdc) s t ∧
      t = book t { s with grn := { s.grn with mem := t.grn.mem, caps := t.grn.caps } })

/-- TDC_EDGE (R228 to R232): an edge of a pin whose FIFO an engine holds is stamped by the serving table and queued, the 1,025th
is lost; within 5 ns of the last stamp it only counts as dead. Model's choices in it: log entry 12. -/
def Obligations.TdcEdgeIsStampedLostOrDead : Prop :=
  ∀ (p : Fin 256) (rise : Bool) (cycle : BitVec 56) (code : BitVec 8) (s : State),
    let a := stampOf s p.val rise cycle.toNat code.toNat
    s.now.toNat ≤ a.full.toNat → tdcLive s p.val = true → (s.pin p.val).tdc.holder = 1 →
    bit (s.pin p.val).tdc.pol (if rise then 0 else 1) = true → (∀ d ∈ s.caps, p.val ∉ d.pins) →
    (∀ e ∈ s.slices, e.2.tiv = none) → (s.pin p.val).tdc.freq = none →
    let m := s.mono + (a.full.toNat - s.now.toNat)
    let dead := match (s.pin p.val).tdc.lastStamp with | none => false | some l => decide (m < l + 4096)
    ∃ t, exec (.tdcEdge p rise cycle code) s = .next t ∧ t.now = a.full ∧ t.mono = m ∧
      (if dead then (t.pin p.val).tdc = { (s.pin p.val).tdc with dead := satInc (s.pin p.val).tdc.dead }
       else if (s.pin p.val).tdc.fifo.length < 1024 then
        (t.pin p.val).tdc = { (s.pin p.val).tdc with fifo := (s.pin p.val).tdc.fifo ++ [a], lastStamp := some m }
       else (t.pin p.val).tdc = { (s.pin p.val).tdc with
          lost := satInc (s.pin p.val).tdc.lost, ovf := true, lostPending := (s.pin p.val).tdc.lostPending + 1, lastStamp := some m }) ∧
      (∀ q, q ≠ p.val → t.pin q = s.pin q) ∧
      t = { s with pins := t.pins, now := t.now, mono := t.mono, obs := { s.obs with counters := t.obs.counters } }

/-- The ends of TDC work (R238, R244 to R246): at its end time a capture gives its buffer, its holds and one completion back; an
interval measurement times out with TDC_TIMEOUT; a frequency gate closes; without an end edge the result is 0 with NO_SIGNAL.
Model's choices in it: log entry 16. -/
def Obligations.TdcWorkEndsAtItsTime : Prop :=
  (∀ (slot : BitVec 16) (s : State) (d : TdcCap), s.caps.find? (fun d => d.first == slot.toNat) = some d → d.endAt ≠ 0 →
    (∃ w, s.work? d.key = some w) → (s.entry? d.key).bind (·.retry) = none →
    ∃ t r, exec (.tdcCaptureEnd slot) s = .next t ∧ t.caps = s.caps.filter (fun e => e.first != slot.toNat) ∧
      t.compl = s.compl ++ [r] ∧ r.key = d.key ∧ r.w6 = BitVec.ofNat 32 (slot.toNat * 1048576) ∧
      (∀ p ∈ d.pins, (t.pin p).tdc.holder = 0 ∧ (t.pin p).tdc.fifo = []) ∧ s.mono ≤ t.mono ∧
      t = book t { s with pins := t.pins, caps := t.caps, grn := t.grn, now := t.now, mono := t.mono }) ∧
  (∀ (n : Fin 128) (s : State) (v : Interval) (m : Nat), (s.slice n.val).tiv = some v → v.timeoutAt = some m →
    (∃ w, s.work? v.key = some w) → (s.entry? v.key).bind (·.retry) = none →
    ∃ t, exec (.tdcIntervalTimeout n) s = .next t ∧ (t.slice n.val).tiv = none ∧ EndedWith v.key 1 0x249 0 s t ∧
      t.mono = max s.mono m ∧ (∀ j, j ≠ n.val → t.slice j = s.slice j) ∧
      t = book t { s with slices := t.slices, grn := t.grn, now := t.now, mono := t.mono }) ∧
  (∀ (p : Fin 256) (s : State) (f : Freq), (s.pin p.val).tdc.freq = some f →
    ∃ t, exec (.tdcFreqGateClose p) s = .next t ∧ (t.pin p.val).tdc = { (s.pin p.val).tdc with freq := some { f with closed := true } } ∧
      t.mono = max s.mono (f.openedAt + f.gate) ∧ (∀ q, q ≠ p.val → t.pin q = s.pin q) ∧
      t = { s with pins := t.pins, now := t.now, mono := t.mono }) ∧
  (∀ (p : Fin 256) (s : State) (f : Freq), (s.pin p.val).tdc.freq = some f →
    (∃ w, s.work? f.key = some w) → (s.entry? f.key).bind (·.retry) = none →
    ∃ t, exec (.tdcFreqNoSignal p) s = .next t ∧ (t.pin p.val).tdc = { (s.pin p.val).tdc with freq := none } ∧
      EndedWith f.key 1 0x24A 0 s t ∧ t.mono = max s.mono (f.openedAt + 2 * f.gate) ∧
      (∀ q, q ≠ p.val → t.pin q = s.pin q) ∧ t = book t { s with pins := t.pins, now := t.now, mono := t.mono })

/-- Calibration of the TDCs and the fine delays (R6, R247 to R250): a round restarts the calibrating tables of every pin that
takes part; a full table is accepted when every bin holds 1,024 to 16,384 hits; the commit swaps the accepted tables, counts the
others as rejected, and advances CE once. Model's choices in it: log entry 32. -/
def Obligations.CalibrationRoundsCommitTables : Prop :=
  (∀ s : State, s.sclkOn = true → s.tim.calActive = false →
    ∃ t, exec .tdcCalRoundStart s = .next t ∧ t.tim = { s.tim with calActive := true } ∧
      (∀ p < 256, inCalibration s p = true →
        (t.pin p).tdc.inRound = true ∧ (t.pin p).tdc.checked = none ∧ (t.pin p).tdc.svc = (s.pin p).tdc.svc ∧
        (t.pin p).tdc.tab (!(s.pin p).tdc.svc) = { factory := false, first := s.stamp } ∧
        (t.pin p).tdc.tab (s.pin p).tdc.svc = (s.pin p).tdc.tab (s.pin p).tdc.svc) ∧
      (∀ p < 256, inCalibration s p = false → t.pin p = s.pin p) ∧ t = { s with pins := t.pins, tim := t.tim }) ∧
  (∀ (p : Fin 256) (hits : List Nat) (s : State), ((s.pin p.val).tdc.inRound = true ∨ (s.pin p.val).tdc.stale = true) →
    (s.pin p.val).tdc.checked = none →
    ∃ t, exec (.tdcTableCheck p hits) s = .next t ∧
      (t.pin p.val).tdc.checked = some (hits.all (fun h => decide (1024 ≤ h ∧ h ≤ 16384)) && hits.sum == 1048576) ∧
      ((t.pin p.val).tdc.tab (!(s.pin p.val).tdc.svc)).counts = hits ∧
      (t.pin p.val).tdc.tab (s.pin p.val).tdc.svc = (s.pin p.val).tdc.tab (s.pin p.val).tdc.svc ∧
      (∀ q, q ≠ p.val → t.pin q = s.pin q) ∧ t = { s with pins := t.pins }) ∧
  (∀ s : State, s.Inv → (∃ p, (s.pin p).tdc.checked = some true) →
    ∃ t, exec .tdcCalCommit s = .next t ∧ t.ce = (if s.ce = 0xFFFF#16 then 1#16 else s.ce + 1) ∧
      (∀ p, if (s.pin p).tdc.checked = some true then
          (t.pin p).tdc.svc = !(s.pin p).tdc.svc ∧ (t.pin p).tdc.tableCe = t.ce ∧ (t.pin p).tdc.rej = 0 ∧
            (t.pin p).tdc.degraded = false ∧ (t.pin p).tdc.stale = false ∧ (t.pin p).tdc.inRound = false
        else if (s.pin p).tdc.inRound = true ∨ (s.pin p).tdc.checked = some false then
          (t.pin p).tdc.svc = (s.pin p).tdc.svc ∧ (t.pin p).tdc.tableCe = (s.pin p).tdc.tableCe ∧
            (t.pin p).tdc.rej.toNat = min ((s.pin p).tdc.rej.toNat + 1) 255 ∧ (t.pin p).tdc.inRound = false ∧
            (3 ≤ (t.pin p).tdc.rej.toNat → (t.pin p).tdc.degraded = true)
        else (t.pin p).tdc.svc = (s.pin p).tdc.svc ∧ (t.pin p).tdc.rej = (s.pin p).tdc.rej) ∧
      t.tim.calActive = false ∧ t.tim.calDone = true ∧
      t = { s with ce := t.ce, pins := t.pins, caps := t.caps, slices := t.slices, grn := t.grn, obs := t.obs, flt := t.flt
                   tim := t.tim }) ∧
  (∀ s : State, s.powered = true →
    ∃ t, exec .fineDelayCalCommit s = .next t ∧ t.ce = (if s.ce = 0xFFFF#16 then 1#16 else s.ce + 1) ∧
      t = { s with ce := t.ce, pins := t.pins, caps := t.caps, slices := t.slices, grn := t.grn, obs := t.obs })

/-! ## DUT power controllers (spec/11_dut_power_and_monitors.md) -/

/-- The DPS field at offset 0 names a controller of the target that is within reach (R358, R360, R361). -/
abbrev NamesDps (c : Cmd) (s : State) (tg : Target) : Prop :=
  c.u 0 1 < 32 ∧ tg.hasDps s (c.u 0 1) = true ∧ dpsReach s tg (c.u 0 1) = none

/-- A controller may be enabled (R264): VPE is there, no controller of its gang is tripped, it follows no master. -/
abbrev MayEnable (s : State) (d : Nat) : Prop :=
  s.peRail = false ∧ (∀ e ∈ gangOf s d, (s.dpsOf e).tripped = false) ∧ (s.dpsOf d).isFollower = false

/-- PWR.ON is admitted. No command waits on an output that ramps down. -/
abbrev PwrOnReady (c : Cmd) (s : State) (tg : Target) : Prop :=
  Runs 0x800 21 c tg s ∧ c.params.length = 8 ∧ NamesDps c s tg ∧ Blank c 1 7 ∧ MayEnable s (c.u 0 1) ∧
    seqOfDps s (c.u 0 1) = none ∧ ((s.dpsOf (c.u 0 1)).down = true → (s.dpsOf (c.u 0 1)).cmds = [])

/-- PWR.OFF is admitted. No command waits on an output that is on. -/
abbrev PwrOffReady (c : Cmd) (s : State) (tg : Target) : Prop :=
  Runs 0x801 21 c tg s ∧ c.params.length = 8 ∧ NamesDps c s tg ∧ Blank c 1 7 ∧ (s.dpsOf (c.u 0 1)).isFollower = false ∧
    seqOfDps s (c.u 0 1) = none ∧
    ((s.dpsOf (c.u 0 1)).isOff = false → (s.dpsOf (c.u 0 1)).down = false → (s.dpsOf (c.u 0 1)).cmds = [])

/-- PWR.SET is admitted: 0 to 6 V (R372). -/
abbrev PwrSetReady (c : Cmd) (s : State) (tg : Target) : Prop :=
  Runs 0x802 21 c tg s ∧ c.params.length = 8 ∧ NamesDps c s tg ∧ Blank c 1 3 ∧ c.u 4 4 ≤ 6000000 ∧
    (s.dpsOf (c.u 0 1)).isFollower = false ∧ seqOfDps s (c.u 0 1) = none

/-- PWR.SEQ is admitted: 1 to 8 steps, each of which could run now (R267, R268, R372). -/
abbrev PwrSeqReady (c : Cmd) (s : State) (tg : Target) : Prop :=
  Runs 0x803 16 c tg s ∧ (1 ≤ c.u 0 1 ∧ c.u 0 1 ≤ 8) ∧ c.params.length = 8 + 8 * c.u 0 1 ∧ Blank c 1 7 ∧
    (∀ i < c.u 0 1, c.u (8 + 8 * i) 1 < 32 ∧ tg.hasDps s (c.u (8 + 8 * i) 1) = true ∧ c.u (9 + 8 * i) 1 ≤ 1 ∧
      Blank c (10 + 8 * i) 2 ∧ c.u (12 + 8 * i) 4 ≤ 10000000) ∧
    ∀ q ∈ seqSteps c, seqOfDps s q.1 = none ∧ dpsReach s tg q.1 = none ∧
      if q.2.1 = true then MayEnable s q.1 else (s.dpsOf q.1).isFollower = false

/-- PWR.MEAS is admitted. -/
abbrev PwrMeasReady (c : Cmd) (s : State) (tg : Target) : Prop :=
  Runs 0x804 21 c tg s ∧ c.params.length = 8 ∧ NamesDps c s tg ∧ Blank c 1 7

/-- PWR.GANG is admitted (R265): members of one PE die and site, off and in no gang; or a gang whose outputs are off is dissolved. -/
abbrev PwrGangReady (c : Cmd) (s : State) (tg : Target) : Prop :=
  Runs 0x805 21 c tg s ∧ c.params.length = 16 ∧ NamesDps c s tg ∧ c.u 1 1 ≤ 7 ∧ Blank c 2 6 ∧
    (∀ j < 8, if j < c.u 1 1 then c.u (8 + j) 1 < 32 ∧ tg.hasDps s (c.u (8 + j) 1) = true else c.u (8 + j) 1 = 255) ∧
    (∀ d ∈ gangList c, dpsReach s tg d = none) ∧
    if gangList c = [] then
      (s.dpsOf (c.u 0 1)).isFollower = false ∧
        ((s.dpsOf (c.u 0 1)).ganged = true → ∀ d ∈ gangOf s (c.u 0 1), (s.dpsOf d).isOff = true)
    else gangRule s (c.u 0 1) (gangList c) = none

/-- An output that begins to ramp towards VSET (R263): EN set, STATE RAMP, PG clear. -/
abbrev RampsUp (x : Dps) : Prop := x.en = true ∧ x.st = 1 ∧ bit x.stat 3 = false ∧ x.down = false ∧ x.rampDone = false

/-- An output that begins to ramp to 0 V (R263). -/
abbrev RampsDown (x : Dps) : Prop := x.en = false ∧ x.st = 1 ∧ bit x.stat 3 = false ∧ x.down = true

/-- The power commands (R263 to R268, R372). Model's choices in it: log entries 34 and 58. -/
def Obligations.PowerCommandsHaveTheirEffect : Prop :=
  (∀ c s tg, PwrOnReady c s tg → let d := c.u 0 1
    ∃ t, exec (.pwrOn c) s = .next t ∧
      (if (s.dpsOf d).en = true ∧ (s.dpsOf d).down = false then
        (if bit (s.dpsOf d).stat 3 = true then Answered c s t 0 0 [] ∧ t = book t s
         else InProgress c s t ∧ t.dpsOf d = { s.dpsOf d with cmds := (s.dpsOf d).cmds ++ [c.key] })
       else (∀ e ∈ gangOf s d, RampsUp (t.dpsOf e)) ∧ c.key ∈ (t.dpsOf d).cmds ∧ InProgress c s t) ∧
      (∀ e, e ∉ gangOf s d → t.dpsOf e = s.dpsOf e) ∧ t = book t { s with dps := t.dps, blks := t.blks }) ∧
  (∀ c s tg, PwrOffReady c s tg → let d := c.u 0 1
    ∃ t, exec (.pwrOff c) s = .next t ∧
      (if (s.dpsOf d).isOff = true then Answered c s t 0 0 [] ∧ t = book t s
       else InProgress c s t ∧ c.key ∈ (t.dpsOf d).cmds ∧
        ((s.dpsOf d).down = false → ∀ e ∈ gangOf s d, RampsDown (t.dpsOf e))) ∧
      (∀ e, e ∉ gangOf s d → t.dpsOf e = s.dpsOf e) ∧ t = book t { s with dps := t.dps }) ∧
  (∀ c s tg, PwrSetReady c s tg → let d := c.u 0 1; let code := (c.u 4 4 + 50) / 100
    ∃ t, exec (.pwrSet c) s = .next t ∧ (∀ e ∈ gangOf s d, (t.dpsOf e).vset = BitVec.ofNat 32 code) ∧
      (if (s.dpsOf d).en = true ∧ (s.dpsOf d).down = false then
        (if fld (s.dpsOf d).vset 0 16 = code then
          (if bit (s.dpsOf d).stat 3 = true then Answered c s t 0 0 [] else InProgress c s t ∧ c.key ∈ (t.dpsOf d).cmds)
         else InProgress c s t ∧ c.key ∈ (t.dpsOf d).cmds ∧ ∀ e ∈ gangOf s d, RampsUp (t.dpsOf e))
       else Answered c s t 0 0 []) ∧
      (∀ e, e ∉ gangOf s d → t.dpsOf e = s.dpsOf e) ∧ t = book t { s with dps := t.dps, blks := t.blks }) ∧
  (∀ c s tg, PwrSeqReady c s tg →
    ∃ t, exec (.pwrSeq c) s = .next t ∧ InProgress c s t ∧
      Tab.find t.seqs (c.u 8 1) =
        some { key := c.key, steps := seqSteps c, stepAt := s.mono + c.u 12 4 * 819200 } ∧
      (∀ x, x ≠ c.u 8 1 → Tab.find t.seqs x = Tab.find s.seqs x) ∧ t = { s with seqs := t.seqs, works := t.works }) ∧
  (∀ c uv ua s tg, PwrMeasReady c s tg →
    ∃ t, exec (.pwrMeas c uv ua) s = .next t ∧ Answered c s t 0 (ofSigned 32 uv + 2 ^ 32 * ofSigned 32 ua) [] ∧
      t.dpsOf (c.u 0 1) = { s.dpsOf (c.u 0 1) with vmeas := uv, imeas := ua } ∧
      (∀ e, e ≠ c.u 0 1 → t.dpsOf e = s.dpsOf e) ∧ t = book t { s with dps := t.dps }) ∧
  (∀ c s tg, PwrGangReady c s tg → let m := c.u 0 1
    ∃ t, exec (.pwrGang c) s = .next t ∧ Answered c s t 0 0 [] ∧
      (if gangList c = [] then
        (∀ d ∈ gangOf s m, (t.dpsOf d).gang = 0 ∧ (t.dpsOf d).ganged = false) ∧ ∀ d, d ∉ gangOf s m → t.dpsOf d = s.dpsOf d
       else
        (∀ d ∈ m :: gangList c, (t.dpsOf d).gang = BitVec.ofNat 32 ((if d = m then 0x8000 else 0) + m) ∧
          (t.dpsOf d).ganged = true ∧ (t.dpsOf d).vset = (s.dpsOf m).vset ∧ (t.dpsOf d).pg = (s.dpsOf m).pg ∧
          fld (t.dpsOf d).ctrl 0 16 = fld (s.dpsOf m).ctrl 0 16) ∧
        ∀ d, d ∉ m :: gangList c → t.dpsOf d = s.dpsOf d) ∧
      t = book t { s with dps := t.dps })

/-- A write of DPS_CTRL is admitted (R263, R264, R268, R283). -/
abbrev DpsCtrlWriteReady (a : Agent) (d : Fin 32) (v : Word) (s : State) : Prop :=
  WriteRuns (.dps d.val 0x00) v a (fun e s => engDps s e d.val) s ∧ fld v 18 2 ≠ 3 ∧ fld v 0 16 ≠ 0 ∧
    dpsRegReach a s d.val = none ∧ (s.dpsOf d.val).isFollower = false ∧
    (bit v 16 = true → (s.dpsOf d.val).en = false → MayEnable s d.val ∧ ((s.dpsOf d.val).down = true → (s.dpsOf d.val).cmds = [])) ∧
    (bit v 16 = false → (s.dpsOf d.val).en = true →
      (s.dpsOf d.val).isOff = false ∧ (s.dpsOf d.val).down = false ∧ (s.dpsOf d.val).cmds = []) ∧
    (bit v 16 ≠ (s.dpsOf d.val).en → seqOfDps s d.val = none)

/-- Register writes of a controller (R263, R276, R283): DPS_CTRL stores its fields and EN turns the output on or off; 1 written
to TRIPPED, LIM_OFF or LIM_SEEN clears it, and once neither trip flag is left STATE is OFF. Model's choices in it: log entry 27.
-/
def Obligations.PowerRegisterWrites : Prop :=
  (∀ a d v s, DpsCtrlWriteReady a d v s →
    ∃ t u, exec (.dpsCtrlWrite a d v) s = .next t ∧ Written a s t u ∧ (u.dpsOf d.val).en = bit v 16 ∧
      (∀ e ∈ gangOf s d.val, fld (u.dpsOf e).ctrl 0 16 = fld v 0 16) ∧
      fld (u.dpsOf d.val).ctrl 18 4 = fld v 18 4 ∧
      (bit v 16 = true → (s.dpsOf d.val).en = false → ∀ e ∈ gangOf s d.val, RampsUp (u.dpsOf e)) ∧
      (bit v 16 = false → (s.dpsOf d.val).en = true → ∀ e ∈ gangOf s d.val, RampsDown (u.dpsOf e)) ∧
      (bit v 16 = (s.dpsOf d.val).en → (u.dpsOf d.val).stat = (s.dpsOf d.val).stat) ∧
      (∀ e, e ∉ gangOf s d.val → u.dpsOf e = s.dpsOf e) ∧ u = { s with dps := u.dps, blks := u.blks, works := u.works }) ∧
  (∀ (a : Agent) (d : Fin 32) (v : Word) (s : State), WriteRuns (.dps d.val 0x14) v a (fun e s => engDps s e d.val) s →
    dpsRegReach a s d.val = none → tripActive s (s.dpsOf d.val) = false →
    ∃ t u, exec (.dpsTripClear a d v) s = .next t ∧ Written a s t u ∧
      (∀ i ∈ [4, 6, 7], bit (u.dpsOf d.val).stat i = (bit (s.dpsOf d.val).stat i && !bit v i)) ∧
      ((bit v 7 = true ∧ bit (s.dpsOf d.val).stat 7 = true ∨ bit v 6 = true ∧ bit (s.dpsOf d.val).stat 6 = true) →
        (u.dpsOf d.val).tripped = false → (u.dpsOf d.val).st = 0 ∧ bit (u.dpsOf d.val).stat 8 = false) ∧
      u.dpsOf d.val = { s.dpsOf d.val with stat := (u.dpsOf d.val).stat } ∧
      (∀ e, e ≠ d.val → u.dpsOf e = s.dpsOf e) ∧ u = { s with dps := u.dps, works := u.works })

/-- A controller alone: in no gang, in no sequence. -/
abbrev Alone (s : State) (d : Nat) : Prop := (s.dpsOf d).ganged = false ∧ seqOfDps s d = none

/-- The events of a controller (R261, R263, R275): the ramp ends in REG; PG four loop periods later, which answers the waiting
command; without PG in 10 ms PG_TIMEOUT; OFF at 0 V; the current limit, its release and its timer's trip. Model's choices in it:
log entry 16. -/
def Obligations.PowerEventsHaveTheirEffect : Prop :=
  (∀ (d : Fin 32) (s : State), (s.dpsOf d.val).en = true → (s.dpsOf d.val).down = false → (s.dpsOf d.val).rampDone = false →
    ∃ t, exec (.dpsRampEnd d) s = .next t ∧
      (∀ e ∈ gangOf s d.val, (t.dpsOf e).st = 2 ∧ (t.dpsOf e).rampDone = true ∧ (t.dpsOf e).rampEndAt = s.mono) ∧
      (∀ e, e ∉ gangOf s d.val → t.dpsOf e = s.dpsOf e) ∧ t = { s with dps := t.dps }) ∧
  (∀ (d : Fin 32) (c : Cmd) (s : State), (s.dpsOf d.val).en = true → (s.dpsOf d.val).rampDone = true →
    bit (s.dpsOf d.val).stat 3 = false → Alone s d.val → (s.dpsOf d.val).cmds = [c.key] → (∃ w, s.work? c.key = some w) →
    (s.entry? c.key).bind (·.retry) = none →
    (∃ t, exec (.dpsPowerGood d) s = .next t ∧ t.mono = max s.mono ((s.dpsOf d.val).rampEndAt + 4 * 5 * 819200) ∧
      t.dpsOf d.val = { s.dpsOf d.val with stat := setBit (s.dpsOf d.val).stat 3 true, cmds := [] } ∧
      Answered c s t 0 0 [] ∧ (∀ e, e ≠ d.val → t.dpsOf e = s.dpsOf e) ∧
      t = book t { s with dps := t.dps, now := t.now, mono := t.mono }) ∧
    ∃ t, exec (.dpsPgTimeout d) s = .next t ∧ t.mono = max s.mono ((s.dpsOf d.val).rampEndAt + 10000 * 819200) ∧
      t.dpsOf d.val = { s.dpsOf d.val with cmds := [] } ∧ EndedWith c.key 1 0x280 d.val s t ∧
      (∀ e, e ≠ d.val → t.dpsOf e = s.dpsOf e) ∧ t = book t { s with dps := t.dps, now := t.now, mono := t.mono }) ∧
  (∀ (d : Fin 32) (c : Cmd) (s : State), (s.dpsOf d.val).down = true → Alone s d.val → (s.dpsOf d.val).cmds = [c.key] →
    (∃ w, s.work? c.key = some w) → (s.entry? c.key).bind (·.retry) = none →
    ∃ t, exec (.dpsOffDone d) s = .next t ∧ (t.dpsOf d.val).st = 0 ∧ bit (t.dpsOf d.val).stat 5 = false ∧
      (t.dpsOf d.val).down = false ∧ Answered c s t 0 0 [] ∧ (∀ e, e ≠ d.val → t.dpsOf e = s.dpsOf e) ∧
      t = book t { s with dps := t.dps }) ∧
  (∀ (d : Fin 32) (s : State), (s.dpsOf d.val).isOff = false → bit (s.dpsOf d.val).stat 5 = false →
    ∃ t, exec (.dpsCurrentLimit d) s = .next t ∧ bit (t.dpsOf d.val).stat 5 = true ∧ bit (t.dpsOf d.val).stat 4 = true ∧
      (t.dpsOf d.val).limitAt = s.mono ∧
      t.dpsOf d.val = { s.dpsOf d.val with stat := (t.dpsOf d.val).stat, limitAt := (t.dpsOf d.val).limitAt } ∧
      (∀ e, e ≠ d.val → t.dpsOf e = s.dpsOf e) ∧ t = { s with dps := t.dps }) ∧
  (∀ (d : Fin 32) (s : State), bit (s.dpsOf d.val).stat 5 = true → fld (s.dpsOf d.val).ilim 16 16 ≠ 0 → Alone s d.val →
    (s.dpsOf d.val).cmds = [] →
    ∃ t, exec (.dpsLimOff d) s = .next t ∧ (t.dpsOf d.val).en = false ∧ (t.dpsOf d.val).st = 3 ∧
      bit (t.dpsOf d.val).stat 6 = true ∧ (t.dpsOf d.val).tripsrc = 1#32 ∧ (t.dpsOf d.val).tripT = t.stamp ∧
      t.mono = max s.mono ((s.dpsOf d.val).limitAt + fld (s.dpsOf d.val).ilim 16 16 * (5 * 819200)) ∧
      Raised (srcDps d.val) 1 s t ∧ (∀ e, e ≠ d.val → t.dpsOf e = s.dpsOf e) ∧
      t = { s with dps := t.dps, flt := t.flt, runs := t.runs, now := t.now, mono := t.mono }) ∧
  (∀ (d : Fin 32) (s : State),
    ∃ t, exec (.dpsLimitRelease d) s = .next t ∧ bit (t.dpsOf d.val).stat 5 = false ∧
      bit (t.dpsOf d.val).stat 4 = bit (s.dpsOf d.val).stat 4 ∧
      t.dpsOf d.val = { s.dpsOf d.val with stat := (t.dpsOf d.val).stat, limitAt := 0 } ∧
      (∀ e, e ≠ d.val → t.dpsOf e = s.dpsOf e) ∧ t = { s with dps := t.dps })

/-- PWR_SEQ_STEP (R267, R268): when its delay has passed, an ON step enables its controller and an OFF step turns it off; the
sequence then waits for PG or OFF. Model's choices in it: log entry 16. -/
def Obligations.SequenceStepActsOnItsController : Prop :=
  ∀ (x : Fin 32) (s : State) (q : PwrSeq), Tab.find s.seqs x.val = some q → q.acting = false → q.unwind = none → q.step.1 < 32 →
    (if q.step.2.1 = true then MayEnable s q.step.1 ∧ (s.dpsOf q.step.1).en = false ∧ (s.dpsOf q.step.1).down = false
     else (s.dpsOf q.step.1).isOff = false ∧ (s.dpsOf q.step.1).down = false ∧ (s.dpsOf q.step.1).cmds = []) →
    ∃ t q', exec (.pwrSeqStep x) s = .next t ∧ t.mono = max s.mono q.stepAt ∧ Tab.find t.seqs x.val = some q' ∧
      q'.acting = true ∧ q'.cur = q.cur ∧ q'.steps = q.steps ∧ q'.key = q.key ∧
      (q.step.1 ∈ q'.turnedOn ↔ q.step.2.1 = true) ∧
      (∀ e ∈ gangOf s q.step.1, if q.step.2.1 = true then RampsUp (t.dpsOf e) else RampsDown (t.dpsOf e)) ∧
      (∀ e, e ∉ gangOf s q.step.1 → t.dpsOf e = s.dpsOf e) ∧ (∀ y, y ≠ x.val → Tab.find t.seqs y = Tab.find s.seqs y) ∧
      t = { s with dps := t.dps, blks := t.blks, seqs := t.seqs, now := t.now, mono := t.mono }

/-! ## Window monitors and blanking (spec/11_dut_power_and_monitors.md) -/

/-- A write of a monitor register is admitted (R20, R148, R361). -/
abbrev MonWriteReady (off : Nat) (a : Agent) (m : Fin 64) (v : Word) (s : State) : Prop :=
  WriteRuns (.mon m.val off) v a (fun e s => engMon s e m.val) s ∧ monRegReach a s m.val = none

/-- Register writes of monitors and blanking channels (R269, R270, R272, R273, R283). Model's choices in it: log entries 16 and
27. -/
def Obligations.MonitorRegisterWrites : Prop :=
  (∀ a m v s, MonWriteReady 0x00 a m v s → fld v 26 3 ≤ 4 →
    ∃ t u, exec (.monCfgWrite a m v) s = .next t ∧ Written a s t u ∧
      (u.mon m.val).cfg = v &&& (if m.val % 4 < 2 then 0x9FFCFF3F#32 else 0x9FECFF1F#32) ∧
      (bit v 31 = false → bit (u.mon m.val).stat 4 = false ∧ fld (u.mon m.val).stat 2 2 = 1) ∧
      (bit v 31 = true → (bit (s.mon m.val).cfg 31 = false ∨ fld (s.mon m.val).cfg 24 5 ≠ fld v 24 5) →
        bit (u.mon m.val).stat 4 = false ∧ (u.mon m.val).resolveAt = s.mono + 2 * usSteps) ∧
      (bit v 31 = true → bit (s.mon m.val).cfg 31 = true → fld (s.mon m.val).cfg 24 5 = fld v 24 5 →
        (u.mon m.val).stat = (s.mon m.val).stat) ∧
      u.mon m.val = { s.mon m.val with
        cfg := (u.mon m.val).cfg, stat := (u.mon m.val).stat, holding := (u.mon m.val).holding
        resolveAt := (u.mon m.val).resolveAt } ∧
      (∀ n, n ≠ m.val → u.mon n = s.mon n) ∧ u = { s with mons := u.mons, works := u.works }) ∧
  (∀ a m v s, MonWriteReady 0x04 a m v s →
    monOrder (fld (s.mon m.val).cfg 26 3) (fld v 0 16) (fld v 16 16) = true →
    ∃ t u, exec (.monThrWrite a m v) s = .next t ∧ Written a s t u ∧
      (if bit (s.mon m.val).cfg 31 = true ∧ bit (s.mon m.val).stat 4 = true then
        u.mon m.val = { s.mon m.val with thr := v, holding := true, resolveAt := s.mono + 2 * usSteps }
       else u.mon m.val = { s.mon m.val with thr := v }) ∧
      (∀ n, n ≠ m.val → u.mon n = s.mon n) ∧ u = { s with mons := u.mons, works := u.works }) ∧
  (∀ a m v s, MonWriteReady 0x08 a m v s →
    ∃ t u, exec (.monEvtAck a m v) s = .next t ∧ Written a s t u ∧
      bit (u.mon m.val).stat 7 = (bit (s.mon m.val).stat 7 && !bit v 7) ∧
      (∀ i, i ≠ 7 → bit (u.mon m.val).stat i = bit (s.mon m.val).stat i) ∧
      u.mon m.val = { s.mon m.val with stat := (u.mon m.val).stat } ∧
      (∀ n, n ≠ m.val → u.mon n = s.mon n) ∧ u = { s with mons := u.mons, works := u.works }) ∧
  (∀ (a : Agent) (i : Fin 64) (v : Word) (s : State),
    WriteRuns (.blk i.val 0x04) v a (fun e _ => engBayUnit e (i.val / 4)) s → bayRegReach s (i.val / 4) = none →
    ∃ t u, exec (.blkGo a i v) s = .next t ∧ Written a s t u ∧
      (if bit v 0 = true then
        bit (u.blk i.val).cfg 31 = true ∧ (u.blk i.val).endAt = s.mono + fld (s.blk i.val).cfg 0 19 * eclkSteps
       else u.blk i.val = s.blk i.val) ∧
      (∀ b < 31, bit (u.blk i.val).cfg b = bit (s.blk i.val).cfg b) ∧
      (∀ j, j ≠ i.val → u.blk j = s.blk j) ∧ u = { s with blks := u.blks, works := u.works })

/-- A monitor compares: enabled, its zone resolved, no threshold write settling (R270, R272). -/
abbrev Compares (s : State) (m : Nat) : Prop :=
  bit (s.mon m).cfg 31 = true ∧ bit (s.mon m).stat 4 = true ∧ (s.mon m).holding = false

/-- A zone becomes the monitor's zone, entering none of its alarm zones. -/
abbrev TakesZone (m z : Nat) (s t : State) : Prop :=
  t.mon m = { s.mon m with stat := setFld (s.mon m).stat 2 2 z } ∧ (∀ n, n ≠ m → t.mon n = s.mon n)

/-- The events of monitors and blanking channels. A zone that is no alarm zone, or has been met, is taken and nothing else
changes (R270). An alarm that trips nothing sets EVT, and with CAP keeps its stamp, or is counted in MON_ECNT while EVT stands
(R270, R274). A trip puts its controller in FAULT_OFF with DPS_TRIPSRC naming the monitor (R275). MON_RESOLVE sets VALID or ends
the hold (R272). The end of a blanking channel raises the alarms of the zones that its monitors stand in (R273). Model's choices
in it: log entry 16. -/
def Obligations.MonitorEventsHaveTheirEffect : Prop :=
  (∀ (m : Fin 64) (zone : MonZone) (s : State), Compares s m.val →
    ((s.mon m.val).alarmZone (zoneCode zone) = false ∨ (s.mon m.val).zone = zoneCode zone) →
    ∃ t, exec (.monAlarm m zone) s = .next t ∧ TakesZone m.val (zoneCode zone) s t ∧ t = { s with mons := t.mons }) ∧
  (∀ (m : Fin 64) (zone : MonZone) (s : State), Compares s m.val →
    (s.mon m.val).alarmZone (zoneCode zone) = true → (s.mon m.val).zone ≠ zoneCode zone → blanked s m.val = false →
    ∃ t, exec (.monAlarm m zone) s = .next t ∧ bit (t.mon m.val).stat 7 = true ∧ fld (t.mon m.val).stat 2 2 = zoneCode zone ∧
      (bit (s.mon m.val).stat 7 = false → bit (s.mon m.val).cfg 1 = true → (t.mon m.val).cap = (alarmStamp s).setWidth 64) ∧
      (bit (s.mon m.val).stat 7 = true → (t.mon m.val).cap = (s.mon m.val).cap ∧
        (t.mon m.val).ecnt = satInc (s.mon m.val).ecnt) ∧
      (∀ n, n ≠ m.val → t.mon n = s.mon n) ∧
      (tripTargets s m.val = [] →
        (if bit (s.mon m.val).cfg 0 = true then Raised (srcMon m.val) 0 s t else t.flt = s.flt) ∧
          t = { s with mons := t.mons, flt := t.flt, bays := t.bays }) ∧
      ∀ d, tripTargets s m.val = [d] → Alone s d → (s.dpsOf d).cmds = [] → (s.dpsOf d).st ≠ 3 →
        (t.dpsOf d).en = false ∧ (t.dpsOf d).st = 3 ∧ bit (t.dpsOf d).stat 7 = true ∧
          (t.dpsOf d).tripsrc = BitVec.ofNat 32 (m.val * 256 + 2) ∧ (t.dpsOf d).tripT = t.stamp ∧
          (t.source (srcDps d)).alarm = true ∧ (∀ e, e ≠ d → t.dpsOf e = s.dpsOf e) ∧
          t = { s with mons := t.mons, dps := t.dps, flt := t.flt, bays := t.bays, runs := t.runs }) ∧
  (∀ (m : Fin 64) (zone : MonZone) (s : State), bit (s.mon m.val).cfg 31 = true → bit (s.mon m.val).stat 4 = false →
    (s.mon m.val).alarmZone (zoneCode zone) = false →
    ∃ t, exec (.monResolve m zone) s = .next t ∧ bit (t.mon m.val).stat 4 = true ∧
      fld (t.mon m.val).stat 2 2 = zoneCode zone ∧
      t.mono = max s.mono ((s.mon m.val).resolveAt + nsSteps (respNs (fld (s.mon m.val).cfg 24 2))) ∧
      t.mon m.val = { s.mon m.val with stat := (t.mon m.val).stat } ∧ (∀ n, n ≠ m.val → t.mon n = s.mon n) ∧
      t = { s with mons := t.mons, now := t.now, mono := t.mono }) ∧
  (∀ (m : Fin 64) (zone : MonZone) (s : State), bit (s.mon m.val).cfg 31 = true → bit (s.mon m.val).stat 4 = true →
    (s.mon m.val).holding = true →
    ((s.mon m.val).alarmZone (zoneCode zone) = false ∨ (s.mon m.val).zone = zoneCode zone) →
    ∃ t, exec (.monResolve m zone) s = .next t ∧ t.mono = max s.mono (s.mon m.val).resolveAt ∧
      t.mon m.val = { s.mon m.val with stat := setFld (s.mon m.val).stat 2 2 (zoneCode zone), holding := false } ∧
      (∀ n, n ≠ m.val → t.mon n = s.mon n) ∧ t = { s with mons := t.mons, now := t.now, mono := t.mono }) ∧
  (∀ (i : Fin 64) (s : State), bit (s.blk i.val).cfg 31 = true →
    ∃ t, exec (.blankEnd i) s = .next t ∧ bit (t.blk i.val).cfg 31 = false ∧ t.mono = max s.mono (s.blk i.val).endAt ∧
      (∀ m, m / 4 = i.val / 4 → bit (s.mon m).cfg 31 = true → bit (s.mon m).stat 4 = true → bit (s.mon m).cfg 21 = true →
        fld (s.mon m).cfg 22 2 = i.val % 4 → (s.mon m).alarmZone (s.mon m).zone = true → bit (t.mon m).stat 7 = true) ∧
      ((∀ m, m / 4 = i.val / 4 → (s.mon m).alarmZone (s.mon m).zone = false) →
        (∀ b < 31, bit (t.blk i.val).cfg b = bit (s.blk i.val).cfg b) ∧ (∀ j, j ≠ i.val → t.blk j = s.blk j) ∧
          t = { s with blks := t.blks, now := t.now, mono := t.mono }))

/-! ## Bay waveform source and digitiser (spec/12_waveform_and_digitiser.md) -/

/-- A command's work is in progress, and it is no execution that a QUE.RESUME began (R351). -/
abbrev Works (k : Key) (s : State) : Prop := (∃ w, s.work? k = some w) ∧ (s.entry? k).bind (·.retry) = none

/-- A start TIME is admitted (R142): 0, or on an SCLK boundary, time set, 20 µs to 2^48 fine steps ahead. -/
abbrev TimeOk (s : State) (t : Nat) : Prop :=
  t = 0 ∨ t % 256 = 0 ∧ s.tim.tq ≠ 0 ∧ t ≤ s.now.toNat + 2 ^ 48 ∧ s.now.toNat + 20 * usSteps ≤ t

/-- Only the bay `k` differs, and in it only the waveform source. -/
abbrev OnlyAwg (k : Nat) (s t : State) : Prop :=
  t.bay k = { s.bay k with awg := t.awg k } ∧ ∀ j, j ≠ k → t.bay j = s.bay j

/-- Only the bay `k` differs, and in it only the digitiser. -/
abbrev OnlyDig (k : Nat) (s t : State) : Prop :=
  t.bay k = { s.bay k with dig := t.dig k } ∧ ∀ j, j ≠ k → t.bay j = s.bay j

/-- ANA.LOAD is admitted up to its CRC (R288, R373). -/
abbrev AnaLoadReady (c : Cmd) (k : Nat) (s : State) : Prop :=
  Runs 0x900 4 c (.bay k) s ∧ c.params.length = 16 ∧ c.u 0 1 ≤ 1 ∧ Blank c 1 3 ∧ segSlot s (c.u 4 4) 4 = none ∧
    c.u 8 4 % 8 = 0 ∧ 8 ≤ c.u 8 4 ∧ c.u 8 4 ≤ 131072 ∧ fenceCheck s [] [k] = none ∧ slotFenceCheck s (c.u 4 4) = none ∧
    segState s (c.u 4 4) = 2 ∧ ¬((s.awg k).eff.mode = 2 ∧ (s.awg k).eff.bank = (c.u 0 1 == 1)) ∧
    ((s.awg k).bankPend.isSome = true → (s.awg k).eff.bank = (c.u 0 1 == 1)) ∧
    readUe s (c.u 4 4 * 1048576) (2 * c.u 8 4) = none

/-- ANA.SOURCE is admitted (R284, R288, R291, R294). No command waits on the source. -/
abbrev AnaSourceReady (c : Cmd) (k : Nat) (s : State) : Prop :=
  Runs 0x901 4 c (.bay k) s ∧ c.params.length = 40 ∧ c.u 0 1 ≤ 3 ∧ c.u 1 1 ≤ 3 ∧ c.u 2 1 ≤ 2 ∧ c.u 3 1 ≤ 7 ∧
    c.u 6 2 ≤ 32767 ∧ (c.u 0 1 = 3 → c.u 0x10 8 ≤ 1200000000000) ∧ Blank c 0x22 6 ∧ fenceCheck s [] [k] = none ∧
    (s.awg k).holder ≠ 1 ∧ (s.awg k).holder ≠ 3 ∧ ((s.awg k).mode = 0 → c.u 0 1 ≠ 0 → bit (s.awg k).stat 3 = false) ∧
    (c.u 0 1 = 2 → (s.awg k).bankValid ((c.u 3 1).testBit 0) = true) ∧ (s.awg k).bankPend = none ∧ (s.awg k).keys = [] ∧
    (c.u 2 1 = 1 → TimeOk s (c.time 0x18))

/-- ANA.SOURCE_STOP is admitted. No command waits on the source. -/
abbrev AnaSourceStopReady (c : Cmd) (k : Nat) (s : State) : Prop :=
  Runs 0x902 4 c (.bay k) s ∧ c.params.length = 0 ∧ fenceCheck s [] [k] = none ∧ (s.awg k).holder ≠ 1 ∧ (s.awg k).keys = []

/-- ANA.SPAN is admitted. No command waits on the source. -/
abbrev AnaSpanReady (c : Cmd) (k : Nat) (s : State) : Prop :=
  Runs 0x903 4 c (.bay k) s ∧ c.params.length = 8 ∧ c.u 0 1 ≤ 3 ∧ Blank c 1 7 ∧ fenceCheck s [] [k] = none ∧
    (s.awg k).holder ≠ 1 ∧ (s.awg k).keys = []

/-- ANA.CAPTURE is admitted (R234, R297, R373). -/
abbrev AnaCaptureReady (c : Cmd) (k : Nat) (s : State) : Prop :=
  Runs 0x904 4 c (.bay k) s ∧ c.params.length = 56 ∧ c.u 0 1 ≤ 2 ∧ Blank c 1 7 ∧ BufReady c 8 1 1024 s ∧ Blank c 0x22 6 ∧
    Blank c 0x32 6 ∧ ¬(c.u 0x10 8 = 0 ↔ c.time 0x28 = 0) ∧ fenceCheck s [] [k] = none ∧ (s.dig k).busy = false ∧
    (c.u 0 1 = 1 → TimeOk s (c.time 0x18)) ∧ HasRoom s (stackOf s (c.u 8 4)) (s.dig k).units

/-- The commands of the waveform source (R288, R291, R292, R373): ANA.LOAD fills a bank, or with a wrong CRC marks it invalid;
ANA.SOURCE sets its mode and its parameters and asks for a bank switch or a start, and waits; ANA.SOURCE_STOP returns the source
to OFF at the next ECLK boundary; ANA.SPAN changes the span at once in OFF and through the hold of 800 cycles otherwise. Model's
choices in it: log entries 16 and 38. -/
def Obligations.WaveformCommandsHaveTheirEffect : Prop :=
  (∀ c k s, AnaLoadReady c k s → let b := c.u 0 1 == 1; let l := memReads s.grn.mem (c.u 4 4 * 1048576) (2 * c.u 8 4)
    ∃ t, exec (.anaLoad c) s = .next t ∧
      (if crc32c l = BitVec.ofNat 32 (c.u 12 4) then
        Answered c s t 0 0 [] ∧ (t.awg k).bankValid b = true ∧ (t.awg k).bankLen b = c.u 8 4 ∧
          (t.awg k).bankSamples b = (List.range (c.u 8 4)).map (fun i => BitVec.ofNat 16 (rdLe l (2 * i) 2))
       else EndedWith c.key 3 0x2C2 12 s t ∧ (t.awg k).bankValid b = false) ∧
      (t.awg k).bankReg (!b) = (s.awg k).bankReg (!b) ∧ (t.awg k).bankSamples (!b) = (s.awg k).bankSamples (!b) ∧
      t.awg k = { s.awg k with
        bank0 := (t.awg k).bank0, bank1 := (t.awg k).bank1, samples0 := (t.awg k).samples0, samples1 := (t.awg k).samples1 } ∧
      OnlyAwg k s t ∧ t = book t { s with bays := t.bays }) ∧
  (∀ c k s, AnaSourceReady c k s →
    ∃ t, exec (.anaSource c) s = .next t ∧ InProgress c s t ∧ (t.awg k).mode = c.u 0 1 ∧
      (t.awg k).holder = (if (s.awg k).holder = 0 then (if c.u 0 1 = 0 then 0 else 2) else (s.awg k).holder) ∧
      fld (t.awg k).ctrl 16 2 = c.u 1 1 ∧ fld (t.awg k).ctrl 8 2 = c.u 2 1 ∧
      (c.u 0 1 = 1 → fld (t.awg k).level 0 16 = c.u 4 2) ∧
      (c.u 0 1 = 3 → (t.awg k).amp = halves (c.u 8 2) (c.u 6 2) ∧ (t.awg k).poff = BitVec.ofNat 32 (c.u 10 2) ∧
        (t.awg k).ftw = ftwOf (c.u 0x10 8)) ∧
      (if isSwitch (s.awg k) (c.u 0 1) ((c.u 3 1).testBit 0) = true then
        (t.awg k).bankPend = some (some c.key) ∧ bit (t.awg k).stat 8 = true ∧ (t.awg k).pend = none
       else (t.awg k).pend = some { key := some c.key, timed := c.u 2 1 == 1, phaseReset := (c.u 3 1).testBit 2 && c.u 0 1 == 3
                                    startAt := startMoment s (c.u 2 1) (c.time 0x18) }) ∧
      (t.awg k).eff = (s.awg k).eff ∧ OnlyAwg k s t ∧ t = { s with bays := t.bays, works := t.works }) ∧
  (∀ c k s, AnaSourceStopReady c k s →
    ∃ t, exec (.anaSourceStop c) s = .next t ∧ Answered c s t 0 0 [] ∧ (t.awg k).mode = 0 ∧ (t.awg k).holder = 0 ∧
      (t.awg k).eff.mode = 0 ∧ bit (t.awg k).stat 0 = true ∧ (t.awg k).pend = none ∧ t.mono = nextCycle s 1 ∧
      fld (t.awg k).ctrl 16 2 = fld (s.awg k).ctrl 16 2 ∧ OnlyAwg k s t ∧
      t = book t { s with bays := t.bays, now := t.now, mono := t.mono }) ∧
  (∀ c k s, AnaSpanReady c k s →
    ∃ t, exec (.anaSpan c) s = .next t ∧ fld (t.awg k).ctrl 16 2 = c.u 0 1 ∧
      (if (s.awg k).eff.mode = 0 then Answered c s t 0 s.stamp.toNat [] ∧ (t.awg k).span.toNat = c.u 0 1
       else if (s.awg k).span.toNat = c.u 0 1 ∧ bit (s.awg k).stat 2 = false then
        Answered c s t 0 s.stamp.toNat [] ∧ (t.awg k).span = (s.awg k).span
       else InProgress c s t ∧ bit (t.awg k).stat 2 = true ∧ (t.awg k).spanKey = some c.key ∧
        (t.awg k).spanAt = nextCycle s 1 + 800 * eclkSteps) ∧
      (t.awg k).eff = (s.awg k).eff ∧ OnlyAwg k s t ∧ t = book t { s with bays := t.bays })

/-- The events of the waveform source (R286, R288 to R292, R294, R300): the first sample of what was asked for, the end of a
PLAY pass, the end of a span hold, a phase-continuous write, the leg limit and its safing, the commit of a calibration. Model's
choices in it: log entries 16 and 38. -/
def Obligations.WaveformEventsHaveTheirEffect : Prop :=
  (∀ (k : Fin 16) (c : Cmd) (m : Nat) (p : AwgPend) (s : State), (s.awg k.val).pend = some p → p.startAt = some m →
    p.key = some c.key → (s.awg k.val).keys = [c.key] → (s.awg k.val).bankPend = none → (s.awg k.val).holdKey = none →
    (s.awg k.val).asked.mode ≠ 0 → Works c.key s →
    ∃ t, exec (.awgStart k) s = .next t ∧ (t.awg k.val).eff = (s.awg k.val).asked ∧ (t.awg k.val).pend = none ∧
      (t.awg k.val).runAt = m ∧ bit (t.awg k.val).stat 0 = false ∧ (p.phaseReset = true → (t.awg k.val).acc = 0) ∧
      t.mono = max s.mono m ∧
      (if (s.awg k.val).asked.mode = 2 ∧ (s.awg k.val).asked.loop = false then
        (t.awg k.val).holdKey = some c.key ∧ t.compl = s.compl ∧ t.work? c.key = s.work? c.key
       else Answered c s t 0 t.stamp.toNat []) ∧
      OnlyAwg k.val s t ∧ t = book t { s with bays := t.bays, now := t.now, mono := t.mono }) ∧
  (∀ (k : Fin 16) (s : State), (s.awg k.val).eff.mode = 2 → bit (s.awg k.val).stat 0 = false →
    let m := (s.awg k.val).runAt + (s.awg k.val).bankLen (s.awg k.val).eff.bank * awgStep
    ∃ t, exec (.awgPassEnd k) s = .next t ∧ t.mono = max s.mono m ∧
      ((s.awg k.val).bankPend = none → (s.awg k.val).eff.loop = true →
        t.awg k.val = { s.awg k.val with runAt := m } ∧ t = { s with bays := t.bays, now := t.now, mono := t.mono }) ∧
      (∀ c : Cmd, (s.awg k.val).bankPend = some (some c.key) → (s.awg k.val).holdKey = none → Works c.key s →
        (t.awg k.val).eff = { (s.awg k.val).eff with bank := !(s.awg k.val).eff.bank, loop := bit (s.awg k.val).ctrl 3 } ∧
          (t.awg k.val).bankPend = none ∧ (t.awg k.val).runAt = m ∧
          (if bit (s.awg k.val).ctrl 3 = true then Answered c s t 0 t.stamp.toNat []
           else (t.awg k.val).holdKey = some c.key ∧ t.compl = s.compl)) ∧
      (∀ c : Cmd, (s.awg k.val).bankPend = none → (s.awg k.val).eff.loop = false → (s.awg k.val).pend = none →
        (s.awg k.val).keys = [c.key] → (s.awg k.val).holdKey = some c.key → Works c.key s →
        (t.awg k.val).eff.mode = 0 ∧ (t.awg k.val).mode = 0 ∧ bit (t.awg k.val).stat 0 = true ∧
          Answered c s t 0 ((t.fullAt (s.awg k.val).runAt).setWidth 64).toNat []) ∧
      OnlyAwg k.val s t) ∧
  (∀ (k : Fin 16) (c : Cmd) (s : State), bit (s.awg k.val).stat 2 = true → (s.awg k.val).spanKey = some c.key → Works c.key s →
    ∃ t, exec (.spanHoldEnd k) s = .next t ∧ (t.awg k.val).span.toNat = fld (s.awg k.val).ctrl 16 2 ∧
      bit (t.awg k.val).stat 2 = false ∧ t.mono = max s.mono (s.awg k.val).spanAt ∧ Answered c s t 0 t.stamp.toNat [] ∧
      t.awg k.val = { s.awg k.val with span := (t.awg k.val).span, stat := (t.awg k.val).stat, spanKey := none } ∧
      OnlyAwg k.val s t ∧ t = book t { s with bays := t.bays, now := t.now, mono := t.mono }) ∧
  (∀ (a : Agent) (k : Fin 16) (r : DdsReg) (v : Word) (s : State),
    WriteRuns (.awg k.val (ddsOff r)) v a (fun e _ => engBayUnit e k.val) s → bayRegReach s k.val = none →
    ((s.awg k.val).holder = 0 ∨ (s.awg k.val).holder = agentWho a) → (r = .amp → fld v 0 16 ≤ 32767) →
    ∃ t u, exec (.awgDdsWrite a k r v) s = .next t ∧ Written a s t u ∧
      (u.awg k.val).amp = (if r = .amp then v else (s.awg k.val).amp) ∧
      (u.awg k.val).poff = (if r = .poff then v &&& 0xFFFF#32 else (s.awg k.val).poff) ∧
      (u.awg k.val).ftw = (match r with
        | .ftwLo => setFld (s.awg k.val).ftw 0 32 v.toNat
        | .ftwHi => setFld (s.awg k.val).ftw 32 16 (fld v 0 16)
        | _ => (s.awg k.val).ftw) ∧
      (if (s.awg k.val).eff.mode = 3 ∧ (s.awg k.val).pend = none then
        u.mono = nextCycle s 1 ∧ (u.awg k.val).acc = (rollAwg u.mono (s.awg k.val)).acc ∧
          (u.awg k.val).eff.amp = (u.awg k.val).amp ∧ (u.awg k.val).eff.ftw = (u.awg k.val).ftw ∧
          (u.awg k.val).eff.poff.toNat = fld (u.awg k.val).poff 0 16
       else u.mono = s.mono ∧ (u.awg k.val).eff = (s.awg k.val).eff ∧ (u.awg k.val).acc = (s.awg k.val).acc) ∧
      OnlyAwg k.val s u ∧ u = { s with bays := u.bays, now := u.now, mono := u.mono, works := u.works }) ∧
  (∀ (k : Fin 16) (s : State),
    ∃ t, exec (.awgLegLimit k) s = .next t ∧ bit (t.awg k.val).stat 4 = true ∧ bit (t.awg k.val).stat 5 = true ∧
      (t.awg k.val).shorts = satInc (s.awg k.val).shorts ∧ (t.awg k.val).limitAt = s.mono ∧ Raised (srcAna k.val) 0 s t ∧
      OnlyAwg k.val s t ∧ t = { s with bays := t.bays, flt := t.flt }) ∧
  (∀ (k : Fin 16) (s : State), bit (s.awg k.val).stat 4 = true →
    ∃ t, exec (.anaShortSafe k) s = .next t ∧ bit (t.awg k.val).stat 3 = true ∧ bit (t.awg k.val).stat 0 = true ∧
      (t.awg k.val).mode = 0 ∧ (t.awg k.val).eff.mode = 0 ∧ t.mono = max s.mono ((s.awg k.val).limitAt + 100 * usSteps) ∧
      OnlyAwg k.val s t ∧ t = bookQ t { s with bays := t.bays, now := t.now, mono := t.mono } ∧
      ((s.awg k.val).keys = [] → t.compl = s.compl) ∧
      ∀ c : Cmd, (s.awg k.val).keys = [c.key] → Works c.key s → EndedWith c.key 1 0x2C7 0 s t) ∧
  (∀ (k : Fin 16) (s : State), s.powered = true → (s.awg k.val).mode = 0 → (s.dig k.val).busy = false →
    ∃ t, exec (.anaCalCommit k) s = .next t ∧ t.ce = (if s.ce = 0xFFFF#16 then 1#16 else s.ce + 1) ∧
      t = { s with ce := t.ce, pins := t.pins, caps := t.caps, slices := t.slices, grn := t.grn, obs := t.obs })

/-- The digitiser's capture (R297 to R299, R373): ANA.CAPTURE allocates its buffer, reserves its bandwidth and waits for its
start; the start fixes the stamp of the first sample; the end writes the samples of a STOP capture after the 64-byte header and
completes with the header's address; ANA.CAPTURE_STOP ends a capture that has not started, and sets the end of one that runs.
Model's choices in it: log entries 16 and 39. -/
def Obligations.DigitiserCaptureHasItsEffect : Prop :=
  (∀ c k s, AnaCaptureReady c k s →
    ∃ t d, exec (.anaCapture c) s = .next t ∧ InProgress c s t ∧ (t.dig k).cap = some d ∧ d.key = c.key ∧ d.first = c.u 8 4 ∧
      d.count = c.u 12 2 ∧ d.wrap = (c.u 14 1 == 1) ∧ d.limit = c.u 0x10 8 ∧ d.endAt = c.time 0x28 ∧ d.stopped = none ∧
      (if c.u 0 1 = 0 then d.pending = false ∧ d.startMono = nextCycle s 2
       else d.pending = true ∧ d.startAt = startMoment s (c.u 0 1) (c.time 0x18)) ∧
      bit (t.dig k).stat 1 = true ∧ OnlyDig k s t ∧
      t.grn.caps = s.grn.caps ++ [{ first := c.u 8 4, count := c.u 12 2, busy := true }] ∧
      t.grn = { s.grn with caps := t.grn.caps, rsv0 := t.grn.rsv0, rsv1 := t.grn.rsv1 } ∧
      t = { s with bays := t.bays, grn := t.grn, works := t.works }) ∧
  (∀ (k : Fin 16) (d : DigCap) (m : Nat) (s : State), (s.dig k.val).cap = some d → d.pending = true → d.startAt = some m →
    ∃ t e, exec (.digCaptureStart k) s = .next t ∧ (t.dig k.val).cap = some e ∧ e.pending = false ∧ e.startMono = m ∧
      t.mono = max s.mono m ∧ e.key = d.key ∧ e.first = d.first ∧ e.count = d.count ∧ e.limit = d.limit ∧ e.endAt = d.endAt ∧
      e.stopped = d.stopped ∧ OnlyDig k.val s t ∧ t = { s with bays := t.bays, now := t.now, mono := t.mono }) ∧
  (∀ (k : Fin 16) (samples : List (BitVec 12)) (clamped : Bool) (d : DigCap) (s : State), (s.dig k.val).cap = some d →
    d.pending = false → d.stopped = none → d.wrap = false → Works d.key s →
    let l := containers (2 ^ (s.dig k.val).decim) (digTaken s k.val d) samples
    let a := d.first * 1048576
    ∃ t r, exec (.anaCaptureEnd k samples clamped) s = .next t ∧ (t.dig k.val).cap = none ∧
      bit (t.dig k.val).stat 1 = false ∧ t.mono = max s.mono (d.startMono + (l.length - 1) * (s.dig k.val).step) ∧
      memReads t.grn.mem (a + 64) (sampleBytes (l.take d.entries)).length = sampleBytes (l.take d.entries) ∧
      (∀ b, b < a ∨ a + 64 + (sampleBytes (l.take d.entries)).length ≤ b → memRead t.grn.mem b = memRead s.grn.mem b) ∧
      t.compl = s.compl ++ [r] ∧ r.key = d.key ∧ (r.cls = 0 ∨ r.cls = 1) ∧ r.w6 = BitVec.ofNat 32 a ∧ r.w7 = BitVec.ofNat 32 (a / 2 ^ 32) ∧
      OnlyDig k.val s t ∧ t = book t { s with bays := t.bays, grn := t.grn, now := t.now, mono := t.mono }) ∧
  (∀ (c : Cmd) (k : Nat) (d : DigCap) (s : State), Runs 0x905 4 c (.bay k) s → c.params.length = 0 → fenceCheck s [] [k] = none →
    (s.dig k).cap = some d → d.key ≠ c.key → Works d.key s → (∀ e ∈ s.journal, e.retry = none) →
    ∃ t, exec (.anaCaptureStop c) s = .next t ∧
      (if d.pending = true then
        (t.dig k).cap = none ∧ ∃ r, r.key = d.key ∧ r.cls = 6 ∧ r.code = 0x199 ∧ AnsweredAfter [r] c s t 0 0 []
       else InProgress c s t ∧ t.grn = s.grn ∧
        (t.dig k).cap = some { d with
          stopped := some c.key, endAt := if d.limit = 0 then min d.endAt s.now.toNat else s.now.toNat }) ∧
      OnlyDig k s t ∧ t = book t { s with bays := t.bays, grn := t.grn })

/-! ## Triggers and acquisitions (spec/13_trigger_and_acquisition.md) -/

/-- The group `g` has sent a cross-device message of this kind and stamp when XEN is set, and nothing else (R315); without XEN nothing is sent.
Every group but `g` is unchanged. -/
abbrev GroupSent (g kind bay : Nat) (at_ : Full) (s t : State) : Prop :=
  (if (s.group g).xen = true then
    (t.group g).seqOut = (s.group g).seqOut + 1 ∧
      ∃ l, t.out = s.out ++ Out.trigger { mcg := BitVec.ofNat 8 (s.group g).mcg, kind := BitVec.ofNat 2 kind, dev := s.devid
                                          bay := BitVec.ofNat 4 bay, gseq := (s.group g).seqOut, t := at_ } :: l
   else (t.group g).seqOut = (s.group g).seqOut ∧ t.out = s.out ∧ t.ports = s.ports) ∧
  ∀ h, h ≠ g → t.group h = s.group h

/-- What an arm with stamp `a` makes of a group (R311, R312): HOLD for HVAL cycles, or READY when HVAL is 0. -/
abbrev Armed (a : Nat) (x y : Ag) : Prop :=
  y.armAt = a ∧ y.fires = 0 ∧
    if x.hval = 0 then y.state = 2 ∧ y.readyAt = a
    else y.state = 1 ∧ y.readyAt = (if x.count = true then 0 else a + x.hval.toNat * eclkSteps)

/-- A trigger command names a group. -/
abbrev NamesGroup (op : Nat) (c : Cmd) (s : State) (tg : Target) : Prop :=
  Runs op 1 c tg s ∧ c.params.length = 8 ∧ c.u 0 1 ≤ 15 ∧ Blank c 1 7

/-- No acquisition runs for the group on its members. -/
abbrev NoAcq (s : State) (g : Nat) : Prop := ∀ k ∈ (s.group g).members, (s.dig k).acq.map (·.group) ≠ some g

/-- TRG.ACQUIRE is admitted (R316). -/
abbrev TrgAcquireReady (c : Cmd) (k g : Nat) (s : State) : Prop :=
  Runs 0xA03 4 c (.bay k) s ∧ c.params.length = 24 ∧ Blank c 12 4 ∧ BufReady c 0x10 1 1024 s ∧
    (c.u 0 4 ≤ 65536 ∧ c.u 0 4 % 16 = 0) ∧ (16 ≤ c.u 4 4 ∧ c.u 4 4 ≤ 16777216 ∧ c.u 4 4 % 16 = 0) ∧
    32 ≤ c.u 0 4 + c.u 4 4 ∧ (1 ≤ c.u 8 4 ∧ c.u 8 4 ≤ 1048576) ∧ fenceCheck s [] [k] = none ∧ groupOfBay s k = some g ∧
    (s.dig k).busy = false ∧ c.u 4 4 * 2 ^ (s.dig k).decim ≤ (s.group g).recTime.toNat * 4 ∧
    ((s.group g).xen = true →
      c.u 0 4 * 2 ^ (s.dig k).decim + fld (s.group g).xlat 0 16 * 4 ≤ 65536 * 2 ^ (s.dig k).decim) ∧
    256 + c.u 8 4 * (cdiv (64 + 2 * (c.u 0 4 + c.u 4 4)) 64 * 64) ≤ c.u 0x14 2 * 1048576 ∧
    HasRoom s (stackOf s (c.u 0x10 4)) (s.dig k).units

/-- The trigger commands (R311 to R317, R323, R374). Model's choices in it: log entry 40. -/
def Obligations.TriggerCommandsHaveTheirEffect : Prop :=
  (∀ c s tg, NamesGroup 0xA00 c s tg → (s.group (c.u 0 1)).master = 0 → (s.group (c.u 0 1)).count = false →
    (s.group (c.u 0 1)).state = 0 →
    ∃ t, exec (.trgArm c) s = .next t ∧ Answered c s t 0 (s.cycleStamp.toNat % 2 ^ 64) [] ∧
      Armed s.cycleStamp.toNat (s.group (c.u 0 1)) (t.group (c.u 0 1)) ∧ GroupSent (c.u 0 1) 0 0 s.cycleStamp s t ∧
      t = book t { s with groups := t.groups, ports := t.ports, out := t.out }) ∧
  (∀ c s tg, NamesGroup 0xA01 c s tg → (s.group (c.u 0 1)).master = 0 →
    ∃ t, exec (.trgDisarm c) s = .next t ∧ (t.group (c.u 0 1)).state = 0 ∧
      (NoAcq s (c.u 0 1) → Answered c s t 0 0 [] ∧ GroupSent (c.u 0 1) 3 0 s.cycleStamp s t ∧
        t = book t { s with groups := t.groups, ports := t.ports, out := t.out })) ∧
  (∀ c s tg, NamesGroup 0xA02 c s tg →
    ∃ t, exec (.trgFire c) s = .next t ∧ InProgress c s t ∧
      (t.group (c.u 0 1)).known = (s.group (c.u 0 1)).known ++
        [{ t := s.cycleStamp.toNat, dev := s.devid, key := some c.key }] ∧
      t.group (c.u 0 1) = { s.group (c.u 0 1) with
        known := (t.group (c.u 0 1)).known, seqOut := (t.group (c.u 0 1)).seqOut } ∧
      GroupSent (c.u 0 1) 2 0 s.cycleStamp s t ∧ t = book t { s with groups := t.groups, ports := t.ports, out := t.out }) ∧
  (∀ c k g s, TrgAcquireReady c k g s →
    ∃ t a, exec (.trgAcquire c) s = .next t ∧ InProgress c s t ∧ (t.dig k).acq = some a ∧ a.key = c.key ∧ a.pre = c.u 0 4 ∧
      a.post = c.u 4 4 ∧ a.nrec = c.u 8 4 ∧ a.first = c.u 0x10 4 ∧ a.count = c.u 0x14 2 ∧ a.wrap = (c.u 0x16 1 == 1) ∧
      a.group = g ∧ a.records = 0 ∧ a.inRecord = none ∧ a.endBy = 0 ∧ (t.dig k).done = false ∧
      bit (t.dig k).stat 1 = true ∧ OnlyDig k s t ∧
      t.grn.caps = s.grn.caps ++ [{ first := c.u 0x10 4, count := c.u 0x14 2, busy := true }] ∧
      t.grn = { s.grn with caps := t.grn.caps, rsv0 := t.grn.rsv0, rsv1 := t.grn.rsv1 } ∧
      t = { s with bays := t.bays, grn := t.grn, works := t.works }) ∧
  (∀ (c : Cmd) (k : Nat) (a : Acq) (s : State), Runs 0xA04 4 c (.bay k) s → c.params.length = 0 → fenceCheck s [] [k] = none →
    (s.dig k).acq = some a → a.key ≠ c.key → Works a.key s → (∀ e ∈ s.journal, e.retry = none) →
    ∃ t, exec (.trgAcqStop c) s = .next t ∧
      (if a.endBy ≠ 0 then
        InProgress c s t ∧ (t.dig k).acq = some { a with stopKeys := a.stopKeys ++ [c.key] } ∧ t.grn = s.grn
       else if a.inRecord = none then
        (t.dig k).acq = none ∧ (t.dig k).done = true ∧
          ∃ r, r.key = a.key ∧ r.cls = 6 ∧ r.code = 0x199 ∧ AnsweredAfter [r] c s t 0 0 []
       else InProgress c s t ∧ t.grn = s.grn ∧
        (t.dig k).acq = some { a with endBy := 1, endAt := s.now, stopKeys := [c.key] }) ∧
      (∀ b, b < a.first * 1048576 ∨ a.first * 1048576 + 256 ≤ b → memRead t.grn.mem b = memRead s.grn.mem b) ∧
      OnlyDig k s t ∧ t = book t { s with bays := t.bays, grn := t.grn })

/-- Only the bay `k` differs, and in it only the trigger sequencer. -/
abbrev OnlyTrg (k : Nat) (s t : State) : Prop :=
  t.bay k = { s.bay k with trg := t.trg k } ∧ ∀ j, j ≠ k → t.bay j = s.bay j

/-- The pulses that the outside world brings, as the sequencer meets them (R305). -/
abbrev pulsesIn (pulses : BitVec 32) (t : Full) : List Pulse :=
  ((bitsOf 32 pulses.toNat).filter isPulse).map (fun c => { code := c, stamp := t })

/-- The sequencer `x` comes to state `n` at `m` by a move, doing the counter and timer actions of the state (R307), and then counts the
pulses `ps`. -/
abbrev MovesTo (n m : Nat) (ps : List Pulse) (x y : Trg) : Prop :=
  y.st = n ∧ y.lastMove = some m ∧
    ∀ i < 2, Tab.get 0 y.cval i = satAdd (if bit (Tab.get 0 x.act n) (26 + i) = true then 0 else Tab.get 0 x.cval i)
        (ps.filter (fun p => p.code == fld (Tab.get 0 x.csrc i) 0 5)).length ∧
      Tab.get 0 y.tend i = (if bit (Tab.get 0 x.act n) (24 + i) = true then m + (Tab.get 0 x.tlen i).toNat * eclkSteps
        else Tab.get 0 x.tend i)

/-- The trigger sequencer (R304, R305, R307): EN enters INIT or stops the sequencer; in a cycle with pulses condition A, then B,
moves it, or it stays, and its counters count. Here the state entered has no action but on counters and timers, and the bay
masters no arm group. Model's choices in it: log entry 40. -/
def Obligations.TriggerSequencerMoves : Prop :=
  (∀ (a : Agent) (k : Fin 16) (v : Word) (s : State),
    WriteRuns (.trg k.val 0x000) v a (fun e _ => engBayUnit e k.val) s → bayRegReach s k.val = none →
    (bit (s.trg k.val).ctrl 31 = true → fld v 16 3 = fld (s.trg k.val).ctrl 16 3) →
    (bit v 31 = true → bit (s.trg k.val).ctrl 31 = false → Tab.get 0 (s.trg k.val).act (fld v 16 3) = 0) →
    ∃ t u, exec (.trgCtrlEn a k v) s = .next t ∧ Written a s t u ∧ bit (u.trg k.val).ctrl 31 = bit v 31 ∧
      fld (u.trg k.val).ctrl 16 3 = fld v 16 3 ∧ bit (u.trg k.val).ctrl 1 = (bit (s.trg k.val).ctrl 1 && !bit v 1) ∧
      (bit v 31 = true → bit (s.trg k.val).ctrl 31 = false →
        (u.trg k.val).st = fld v 16 3 ∧ (u.trg k.val).lastMove = some s.mono) ∧
      (bit v 31 = false → bit (s.trg k.val).ctrl 31 = true → (u.trg k.val).pulses = []) ∧
      ((bit v 31 = false ∨ bit (s.trg k.val).ctrl 31 = true) → (u.trg k.val).st = (s.trg k.val).st) ∧
      u.trg k.val = { s.trg k.val with
        ctrl := (u.trg k.val).ctrl, pulses := (u.trg k.val).pulses, lastMove := (u.trg k.val).lastMove } ∧
      OnlyTrg k.val s u ∧ u = { s with bays := u.bays, works := u.works }) ∧
  (∀ (k : Fin 16) (pulses : BitVec 32) (at_ : BitVec 80) (s : State), bit (s.trg k.val).ctrl 31 = true →
    pulsesIn pulses at_ ≠ [] → (s.trg k.val).pulses = [] → (∀ m, (s.trg k.val).lastMove = some m → m + eclkSteps ≤ s.mono) →
    masteredBy s k.val = none →
    let x := s.trg k.val
    let ps := pulsesIn pulses at_
    let a := condHolds s k.val ps (x.condA x.st)
    let b := condHolds s k.val ps (x.condB x.st)
    let n := if a = true then (x.condA x.st).next else (x.condB x.st).next
    (a = true ∨ b = true → ∀ i ∈ [28, 29, 30, 31], bit (Tab.get 0 x.act n) i = false) →
    ∃ t, exec (.trgStateMove k pulses at_) s = .next t ∧
      (if a = true ∨ b = true then MovesTo n s.mono ps x (t.trg k.val)
       else (t.trg k.val).st = x.st ∧ (t.trg k.val).tend = x.tend ∧
        ∀ i < 2, Tab.get 0 (t.trg k.val).cval i = satAdd (Tab.get 0 x.cval i)
          (ps.filter (fun p => p.code == fld (Tab.get 0 x.csrc i) 0 5)).length) ∧
      OnlyTrg k.val s t ∧ t = { s with bays := t.bays })

/-- The fate of a fire of stamp `t` by the state of its group (R314, R374): 0 taken, 1 in hold-off, 2 missed, 3 in IDLE. -/
abbrev Meets (x : Ag) (t n : Nat) : Prop :=
  n = 0 ∧ x.state = 2 ∧ x.readyAt ≤ t ∧ (x.fires = 0 ∨ t < x.trigAt ∨ x.rearmEnd ≤ t) ∨
  n = 1 ∧ x.state = 1 ∧ (x.readyAt = 0 ∨ t < x.readyAt) ∧ (x.fires = 0 ∨ t < x.trigAt ∨ x.rearmEnd ≤ t) ∨
  n = 2 ∧ x.state = 3 ∧ x.fires ≠ 0 ∧ x.trigAt ≤ t ∧ t < x.busyEnd ∨ n = 3 ∧ x.state = 0

/-- Arm groups (R311 to R315, R322): the end of the hold-off, the decision on the one fire that is known, with its fate reported
and counted and the records of the members begun, the end of BUSY, the end of the re-arm, and the cross-device messages. Model's
choices in it: log entries 16 and 40. -/
def Obligations.ArmGroupEventsHaveTheirEffect : Prop :=
  (∀ (g : Fin 16) (s : State), (s.group g.val).state = 1 → (s.group g.val).readyAt ≠ 0 →
    ∃ t, exec (.agReady g) s = .next t ∧ t.group g.val = { s.group g.val with state := 2 } ∧
      t.mono = s.mono + ((s.group g.val).readyAt - s.now.toNat) ∧ (∀ h, h ≠ g.val → t.group h = s.group h) ∧
      t = { s with groups := t.groups, now := t.now, mono := t.mono }) ∧
  (∀ (g : Fin 16) (f : Fire) (c : Cmd) (n : Nat) (s : State), (s.group g.val).known = [f] → f.key = some c.key → Works c.key s →
    Meets (s.group g.val) f.t n →
    ∃ t, exec (.agTriggerDecide g) s = .next t ∧ Answered c s t n f.t [] ∧ (t.group g.val).known = [] ∧
      t.mono = s.mono + (f.t + (s.group g.val).latency - s.now.toNat) ∧
      t.group g.val = { s.group g.val with
        known := []
        state := if n = 0 then 3 else (s.group g.val).state
        trigAt := if n = 0 then f.t else (s.group g.val).trigAt
        last := if n = 0 then (BitVec.ofNat 80 f.t).setWidth 64 else (s.group g.val).last
        fires := if n = 0 then satInc (s.group g.val).fires else (s.group g.val).fires
        holdign := if n = 1 then satInc (s.group g.val).holdign else (s.group g.val).holdign
        miss := if n = 2 then satInc (s.group g.val).miss else (s.group g.val).miss } ∧
      (∀ k ∈ takingPart s g.val, ∀ a, (s.dig k).acq = some a → a.endBy = 0 → ∃ b, (t.dig k).acq = some b ∧
        b.inRecord = (if n = 0 then some (BitVec.ofNat 80 f.t) else a.inRecord) ∧
        b.missTotal = (if n = 2 then a.missTotal + 1 else a.missTotal) ∧
        b.holdign = (if n = 1 then a.holdign + 1 else a.holdign) ∧ b.records = a.records) ∧
      (∀ k, k ∉ takingPart s g.val → t.bay k = s.bay k) ∧ (∀ h, h ≠ g.val → t.group h = s.group h) ∧
      t = book t { s with groups := t.groups, bays := t.bays, now := t.now, mono := t.mono }) ∧
  (∀ (g : Fin 16) (s : State), (s.group g.val).state = 3 →
    ∃ t, exec (.agBusyEnd g) s = .next t ∧ t.group g.val = { s.group g.val with state := 4 } ∧
      t.mono = s.mono + ((s.group g.val).trigAt + (s.group g.val).recTime.toNat * eclkSteps - s.now.toNat) ∧
      (∀ h, h ≠ g.val → t.group h = s.group h) ∧ t = { s with groups := t.groups, now := t.now, mono := t.mono }) ∧
  (∀ (g : Fin 16) (s : State), (s.group g.val).state = 4 → let x := s.group g.val
    (x.nfire ≠ 0 → x.nfire.toNat ≤ x.fires.toNat → NoAcq s g.val) →
    ∃ t, exec (.agRearmEnd g) s = .next t ∧ t.mono = s.mono + (x.rearmEnd - s.now.toNat) ∧
      (if x.nfire ≠ 0 ∧ x.nfire.toNat ≤ x.fires.toNat then (t.group g.val).state = 0
       else if x.each = true ∧ x.hval ≠ 0 then (t.group g.val).state = 1 ∧
        (t.group g.val).readyAt = (if x.count = true then 0 else x.rearmEnd + x.hval.toNat * eclkSteps)
       else (t.group g.val).state = 2 ∧ (t.group g.val).readyAt = x.rearmEnd) ∧
      (∀ k ∈ x.members, ∀ a, (s.dig k).acq = some a →
        (t.dig k).acq = some (if a.group = g.val then { a with emptied := x.rearmEnd } else a)) ∧
      (∀ k, k ∉ x.members → t.bay k = s.bay k) ∧ (∀ h, h ≠ g.val → t.group h = s.group h) ∧
      t = { s with groups := t.groups, bays := t.bays, now := t.now, mono := t.mono }) ∧
  (∀ (m : TrgMsg) (g : Fin 16) (s : State), m.dev ≠ s.devid →
    (∀ h < 16, ((s.group h).xen = true ∧ (s.group h).mcg = m.mcg.toNat) ↔ h = g.val) → let x := s.group g.val
    (m.kind = 3 → x.master = 2 → NoAcq s g.val) → (m.kind = 2 → s.now.toNat ≤ m.t.toNat + x.latency) →
    let gap := match Tab.find x.seqIn m.dev.toNat with | none => false | some n => n + 1 != m.gseq
    ∃ t, exec (.trgMessageRx m) s = .next t ∧ Tab.find (t.group g.val).seqIn m.dev.toNat = some m.gseq ∧
      (t.group g.val).xgap = (if gap then satInc x.xgap else x.xgap) ∧
      (m.kind = 0 → x.master = 2 → x.state = 0 → Armed m.t.toNat x (t.group g.val)) ∧
      (m.kind = 1 → x.master = 2 → x.state = 1 → x.count = true → (t.group g.val).readyAt = m.t.toNat) ∧
      (t.group g.val).known = x.known ++
        (if m.kind = 2 then [{ t := m.t.toNat, dev := m.dev, bay := m.bay, source := 0xFE }] else []) ∧
      (m.kind = 3 → x.master = 2 → (t.group g.val).state = 0) ∧
      (gap = true → ∀ k ∈ x.members, ∀ a, (s.dig k).acq = some a → (t.dig k).acq = some { a with xgap := true }) ∧
      (gap = false → t.bays = s.bays) ∧ (∀ h, h ≠ g.val → t.group h = s.group h) ∧
      t = { s with groups := t.groups, bays := t.bays })

/-- ACQ_RECORD_DONE (R318 to R323): a record in progress is written after its 64-byte header at its place in the buffer, an
index without a valid sample as 0; the NREC-th record of a STOP acquisition ends it with the buffer's address, otherwise the
next record is awaited. Model's choices in it: log entries 16 and 39. -/
def Obligations.AcquisitionRecordIsWritten : Prop :=
  ∀ (k : Fin 16) (samples : List (BitVec 16)) (clamped : Bool) (a : Acq) (tr : Full) (s : State),
    (s.dig k.val).acq = some a → a.inRecord = some tr → a.endBy = 0 → a.stopKeys = [] → Works a.key s →
    stackFenced s (stackOf s a.first) = false →
    let step := (s.dig k.val).step
    let r := validRange a step tr.toNat
    let v := (List.range (a.pre + a.post)).map (fun i => if r.1 ≤ i ∧ i < r.2 then samples.getD i 0 else 0)
    let at_ := a.first * 1048576 + 0x100 + (if a.wrap = true then a.records % a.nrec else a.records) * a.rs
    ∃ t, exec (.acqRecordDone k samples clamped) s = .next t ∧
      t.mono = s.mono + (gridAt a step tr.toNat + (a.post - 1) * step - s.now.toNat) ∧
      (if a.wrap = false ∧ a.nrec ≤ a.records + 1 then
        (t.dig k.val).acq = none ∧ (t.dig k.val).done = true ∧ ∃ q, t.compl = s.compl ++ [q] ∧ q.key = a.key ∧
          (q.cls = 0 ∨ q.cls = 1) ∧ q.w6 = BitVec.ofNat 32 (a.first * 1048576)
       else t.compl = s.compl ∧ ∃ b, (t.dig k.val).acq = some b ∧ b.records = a.records + 1 ∧ b.inRecord = none ∧
          b.key = a.key ∧ b.missTotal = a.missTotal) ∧
      memReads t.grn.mem (at_ + 64) (2 * (a.pre + a.post)) = sampleBytes v ∧
      (∀ b, (b < at_ ∨ at_ + a.rs ≤ b) → (b < a.first * 1048576 ∨ a.first * 1048576 + 256 ≤ b) →
        memRead t.grn.mem b = memRead s.grn.mem b) ∧
      OnlyDig k.val s t ∧ t = book t { s with bays := t.bays, grn := t.grn, now := t.now, mono := t.mono }

/-! ## System time (spec/17_system_time.md) -/

/-- The time output `i`. -/
abbrev tpoOf (s : State) (i : Nat) : Tpo := Tab.get {} s.tim.tpo i
/-- The capture input `i`. -/
abbrev tciOf (s : State) (i : Nat) : Tci := Tab.get {} s.tim.tci i

/-- TIM.PULSE with MODE 1 or 2 is admitted (R375, R432); no schedule waits on the output. -/
abbrev TimPulseReady (c : Cmd) (s : State) (tg : Target) : Prop :=
  Runs 0xB01 1 c tg s ∧ c.params.length = 0x20 ∧ c.u 0 1 ≤ 7 ∧ (c.u 1 1 = 1 ∨ c.u 1 1 = 2) ∧ c.u 4 4 ≠ 0 ∧
    (c.u 1 1 = 2 → c.u 4 4 < c.u 8 8 ∧ 1640 ≤ c.u 8 8 ∧ c.u 8 8 ≤ 2 ^ 48) ∧ Blank c 0x1A 6 ∧
    (c.time 0x10 = 0 ∨ s.tim.tq ≠ 0 ∧ c.time 0x10 ≤ s.now.toNat + 2 ^ 48 ∧ s.now.toNat + 20 * usSteps ≤ c.time 0x10) ∧
    (tpoOf s (c.u 0 1)).pend = none

/-- The TIM commands and writes (R375, R412, R414, R417, R425, R430 to R433). Model's choices in it: log entries 16 and 21. -/
def Obligations.TimeCommandsHaveTheirEffect : Prop :=
  (∀ c s tg, Runs 0xB00 1 c tg s → c.params.length = 0x18 → Blank c 10 6 → c.u 0x10 1 ≤ 1 → s.tim.tq ≠ 3 → s.tim.setPend = none →
    (∀ e ∈ s.tim.tpo, e.2.lostKeys (c.time 0) = []) →
    ∃ t, exec (.timSet c) s = .next t ∧ t.mono = s.mono ∧
      (if c.u 0x10 1 = 1 then
        Answered c s t 0 t.stamp.toNat [] ∧ t.now = BitVec.ofNat 80 (c.time 0) ∧ (t.source srcTimeStep).alarm = true ∧
          t.tim.tq = (if s.tim.tq = 0 then (if (s.isGm && s.refSelected) = true then 3 else 1) else s.tim.tq) ∧
          t = book t { s with now := t.now, tim := t.tim, flt := t.flt, runs := t.runs, groups := t.groups, bays := t.bays }
       else InProgress c s t ∧
        t = { s with
          works := t.works
          tim := { s.tim with
            setPend := some (c.key, BitVec.ofNat 80 (c.time 0)), setUntil := s.mono + 1000000 * usSteps } })) ∧
  (∀ c s tg, TimPulseReady c s tg → let i := c.u 0 1
    ∃ t, exec (.timPulse c) s = .next t ∧ InProgress c s t ∧
      (if (tpoOf s i).mode = 0 then
        tpoOf t i = { tpoOf s i with
          mode := BitVec.ofNat 2 (c.u 1 1), first := firstPulse s (c.time 0x10), nextAt := firstPulse s (c.time 0x10)
          width := c.u 4 4, period := c.u 8 8, key := some c.key }
       else tpoOf t i = { tpoOf s i with
          pend := some (BitVec.ofNat 2 (c.u 1 1), firstPulse s (c.time 0x10), c.u 4 4, c.u 8 8, c.key) }) ∧
      (∀ j, j ≠ i → tpoOf t j = tpoOf s j) ∧ t = { s with works := t.works, tim := { s.tim with tpo := t.tim.tpo, sclk := true } }) ∧
  (∀ c s tg, Runs 0xB01 1 c tg s → c.params.length = 0x20 → c.u 0 1 ≤ 7 → c.u 1 1 = 0 → Blank c 0x1A 6 →
    (tpoOf s (c.u 0 1)).key = none → (tpoOf s (c.u 0 1)).pend = none →
    ∃ t, exec (.timPulse c) s = .next t ∧ Answered c s t 0 0 [] ∧ tpoOf t (c.u 0 1) = { tpoOf s (c.u 0 1) with mode := 0 } ∧
      (∀ j, j ≠ c.u 0 1 → tpoOf t j = tpoOf s j) ∧ t = book t { s with tim := { s.tim with tpo := t.tim.tpo } }) ∧
  (∀ c s tg, Runs 0xB02 1 c tg s → c.params.length = 8 → c.u 0 1 ≤ 3 → c.u 1 1 ≤ 3 →
    ∃ t, exec (.timTci c) s = .next t ∧ Answered c s t 0 0 [] ∧ fld (tciOf t (c.u 0 1)).cfg 0 2 = c.u 1 1 ∧
      tciOf t (c.u 0 1) = { tciOf s (c.u 0 1) with cfg := (tciOf t (c.u 0 1)).cfg } ∧
      (∀ j, j ≠ c.u 0 1 → tciOf t j = tciOf s j) ∧ (c.u 1 1 ≠ 0 → t.tim.sclk = true) ∧
      t = book t { s with tim := { s.tim with tci := t.tim.tci, sclk := t.tim.sclk } }) ∧
  (∀ c (i : Fin 4) s tg, Runs 0x001 29 c tg s → c.params.length = 8 → regAt (c.u 0 4) = some (.tci i.val 0x8) →
    ∃ t, exec (.timTciLoRead c i) s = .next t ∧
      (match (tciOf s i.val).fifo with
       | [] => Answered c s t 0 0 [] ∧ t = book t s
       | e :: l => Answered c s t 0 (e.toNat % 2 ^ 32) [] ∧ tciOf t i.val = { tciOf s i.val with fifo := l, latch := e } ∧
          (∀ j, j ≠ i.val → tciOf t j = tciOf s j) ∧ t = book t { s with tim := { s.tim with tci := t.tim.tci } })) ∧
  (∀ c s tg, Runs 0xB03 1 c tg s → c.params.length = 0 →
    ∃ t, exec (.timSyncCal c) s = .next t ∧ InProgress c s t ∧
      (match s.tim.cal with
       | none => t.tim.cal = some { key := c.key }
       | some x => t.tim.cal = some { x with waiting := x.waiting ++ [c.key] }) ∧
      t = { s with works := t.works, tim := { s.tim with cal := t.tim.cal, sclk := true } }) ∧
  (∀ c s tg, Runs 0xB04 1 c tg s → c.params.length = 8 → c.u 0 1 ≤ 5 → bit (s.tport (c.u 0 1)).reg 29 = true →
    ∃ t, exec (.timRelease c) s = .next t ∧ Answered c s t 0 0 [] ∧ bit (t.tport (c.u 0 1)).reg 29 = false ∧
      fld (t.tport (c.u 0 1)).reg 30 2 = fld (s.tport (c.u 0 1)).reg 30 2 ∧
      (∀ j, j ≠ c.u 0 1 → t.tport j = s.tport j) ∧ t = book t { s with tim := { s.tim with ports := t.tim.ports } }) ∧
  (∀ c s tg, Runs 0xB05 1 c tg s → c.params.length = 16 → c.u 0 1 ≤ 5 → -2147483648 ≤ c.i 8 8 → c.i 8 8 ≤ 2147483647 →
    ∃ t i, exec (.timAsym c) s = .next t ∧ Answered c s t 0 0 [] ∧ (t.tport (c.u 0 1)).asym = c.i 8 8 ∧
      Tab.find (t.tport (c.u 0 1)).table i = some { peer := peerOf s (c.u 0 1), delay := (s.tport (c.u 0 1)).pdelay
                                                    asym := c.i 8 8, age := 0 } ∧
      (∀ j, j ≠ c.u 0 1 → t.tport j = s.tport j) ∧ t = book t { s with tim := { s.tim with ports := t.tim.ports } }) ∧
  (∀ c s tg, Runs 0xB06 1 c tg s → c.params.length = 0 →
    ∃ t, exec (.timStatus c) s = .next t ∧ Answered c s t s.tim.tq.toNat s.stamp.toNat [] ∧ t = book t s) ∧
  (∀ a v s, WriteRuns (.tim 0x008) v a noReach s → fld v 0 3 ≠ 7 →
    ∃ t u, exec (.timRefWrite a v) s = .next t ∧ Written a s t u ∧ fld u.tim.ref 0 3 = fld v 0 3 ∧
      (fld v 0 3 ≠ fld s.tim.ref 0 3 → u.tim.refPresent = false ∧
        (s.tim.refPresent = true → u.tim.refIosc = true ∧ u.tim.tq = (if s.tim.tq = 3 then 2 else s.tim.tq) ∧
          u.boot.sl = (if s.boot.sl = 3 then 2 else s.boot.sl) ∧ (u.source srcRefLoss).alarm = true)) ∧
      (fld v 0 3 = fld s.tim.ref 0 3 → u = { s with works := u.works })) ∧
  (∀ a (n : Fin 6) v s, WriteRuns (.tport n.val 0) v a noReach s →
    (fld v 30 2 = 2 → s.isGm = false ∧ ∀ m < 6, m ≠ n.val → fld (s.tport m).reg 30 2 ≠ 2) →
    ∃ t u, exec (.timPortWrite a n v) s = .next t ∧ Written a s t u ∧ fld (u.tport n.val).reg 30 2 = fld v 30 2 ∧
      bit (u.tport n.val).reg 29 = bit (s.tport n.val).reg 29 ∧ (∀ j, j ≠ n.val → u.tport j = s.tport j) ∧
      u = { s with works := u.works, tim := { s.tim with ports := u.tim.ports } })

/-- Only these parts of the state may differ where the reference or TQ changes: the time block, the service level, what carries quality
tags or marks a change of the reference, the faults and the books. -/
abbrev RefFrame (s t : State) : Prop :=
  t = book t { s with
    tim := t.tim, boot := { s.boot with sl := t.boot.sl }, runs := t.runs, bays := t.bays, pins := t.pins, caps := t.caps
    slices := t.slices, grn := t.grn, flt := t.flt }

/-- The events of the time block (R11, R375, R414 to R416, R424 to R426, R432, R433, R487). Model's choices in it: log entries
16 and 50. -/
def Obligations.TimeEventsHaveTheirEffect : Prop :=
  (∀ (c : Cmd) (v : Full) (s : State), s.tim.setPend = some (c.key, v) → Works c.key s →
    ∃ t, exec .timSetTimeout s = .next t ∧ EndedWith c.key 6 0x24A 0 s t ∧ t.mono = max s.mono s.tim.setUntil ∧
      t = book t { s with tim := { s.tim with setPend := none }, now := t.now, mono := t.mono }) ∧
  (∀ (i : Fin 8) (s : State), let x := tpoOf s i.val
    x.pend = none → x.mode ≠ 0 →
    ∃ t, exec (.tpoPulse i) s = .next t ∧ t.out = s.out ++ [Out.tpo i.val (BitVec.ofNat 80 x.nextAt) x.width] ∧
      t.mono = s.mono + (x.nextAt - s.now.toNat) ∧
      tpoOf t i.val = (if x.mode = 2 then { x with nextAt := x.nextAt + x.period, key := none }
        else { x with mode := 0, key := none }) ∧
      (x.key = none → t.compl = s.compl) ∧
      (∀ c : Cmd, x.key = some c.key → Works c.key s → Answered c s t 0 (x.nextAt % 2 ^ 64) []) ∧
      (∀ j, j ≠ i.val → tpoOf t j = tpoOf s j) ∧
      t = bookQ t { s with out := t.out, tim := { s.tim with tpo := t.tim.tpo }, now := t.now, mono := t.mono }) ∧
  (∀ (i : Fin 4) (rise : Bool) (at_ : Full) (s : State), let x := tciOf s i.val
    let m := s.mono + (at_.toNat - s.now.toNat)
    bit x.cfg (if rise then 0 else 1) = true → s.sclkOn = true → (∀ l, x.last = some l → l + 4096 ≤ m) →
    ∃ t, exec (.tciEdge i rise at_) s = .next t ∧ t.mono = m ∧
      (if x.fifo.length < 16 then tciOf t i.val = { x with last := some m, fifo := x.fifo ++ [at_] }
       else tciOf t i.val = { x with last := some m, ovf := true, lost := if x.lost = 0xFF#8 then x.lost else x.lost + 1 }) ∧
      (∀ k < 16, (t.trg k).pulses = (s.trg k).pulses ++
        if bit (s.trg k).ctrl 31 = true then [{ at_ := m + 8 * eclkSteps, code := 0x0E + i.val, stamp := at_ }] else []) ∧
      (∀ j, j ≠ i.val → tciOf t j = tciOf s j) ∧
      t = { s with tim := { s.tim with tci := t.tim.tci }, bays := t.bays, now := t.now, mono := t.mono }) ∧
  (∀ s : State, isSource s = true → s.tim.tq = 3 → syncPeriod s ≠ 0 →
    let at_ := (s.now.toNat / syncPeriod s + 1) * syncPeriod s
    ∃ t, exec .syncOutPulse s = .next t ∧ t.now = BitVec.ofNat 80 at_ ∧ t.mono = s.mono + (at_ - s.now.toNat) ∧
      t.out = s.out ++ [Out.syncOut t.now] ∧
      t = { s with out := t.out, tim := { s.tim with cal := t.tim.cal }, now := t.now, mono := t.mono }) ∧
  (∀ (at_ : Full) (s : State), isSink s = true → s.sclkOn = true → let o := syncOffset s at_.toNat
    (∀ (c : Cmd) (v : Full), s.tim.setPend = some (c.key, v) → Works c.key s → (∀ e ∈ s.tim.tpo, e.2.mode ≠ 1 ∧ e.2.pend = none) →
      ∃ t, exec (.syncInEdge at_) s = .next t ∧ Answered c s t 0 t.stamp.toNat [] ∧ t.tim.setPend = none ∧ t.tim.tq ≠ 0 ∧
        (s.now.toNat ≤ at_.toNat → t.now = BitVec.ofNat 80 ((v.toNat : Int) + s.tim.syncDly).toNat) ∧
        t = book t { s with
          now := t.now, mono := t.mono, tim := t.tim, flt := t.flt, runs := t.runs, groups := t.groups, bays := t.bays }) ∧
    (s.tim.setPend = none → usSteps < o.natAbs →
      ∃ t, exec (.syncInEdge at_) s = .next t ∧ t.mono = s.mono + (at_.toNat - s.now.toNat) ∧
        t = { s with tim := { s.tim with stray := satInc s.tim.stray }, now := t.now, mono := t.mono }) ∧
    ∀ v, s.tim.setPend = none → o.natAbs ≤ usSteps → s.tim.theta = some v → (o * 256 - v).natAbs * 4 ≤ syncPeriod s * 256 →
      ∃ t, exec (.syncInEdge at_) s = .next t ∧ t.tim.phaseSync = true ∧ t.tim.thetaS = some (o * 256) ∧
        t.tim.syncAt = some t.mono ∧ t.tim.stray = s.tim.stray ∧
        t = bookQ t { s with
          now := t.now, mono := t.mono, tim := t.tim, flt := t.flt, runs := t.runs, groups := t.groups, bays := t.bays }) ∧
  (∀ (m : Nat) (s : State), s.tim.syncAt = some m → isSink s = true →
    ∃ t, exec .syncMiss s = .next t ∧ t.mono = max s.mono (m + 4 * syncPeriod s) ∧ Raised srcSyncMiss 0 s t ∧
      t = { s with tim := { s.tim with phaseSync := false, syncAt := none }, flt := t.flt, now := t.now, mono := t.mono }) ∧
  (∀ (rt : Option Int) (x : SyncCal) (c : Cmd) (s : State), s.tim.cal = some x → x.key = c.key → (isSource s = true → x.out = true) →
    (∀ v, rt = some v → 0 ≤ v ∧ v ≤ (usSteps : Int)) → Works c.key s →
    let y : SyncCal := { x with
      seen := x.seen + 1, out := false, missing := if rt = none then x.missing + 1 else x.missing, sum := x.sum + rt.getD 0 }
    let mean := if y.missing = 64 then 0 else roundAway y.sum (64 - y.missing)
    ∃ t, exec (.syncRetEdge rt) s = .next t ∧
      (if y.seen < 64 then t.tim.cal = some y ∧ t.compl = s.compl
       else t.tim.syncRt = BitVec.ofNat 32 (ofSigned 32 mean) ∧
        (if 8 < y.missing then ∃ r, t.compl = s.compl ++ [r] ∧ r.key = c.key ∧ r.cls = 1 ∧ r.code = 0x24A ∧
            r.w6 = BitVec.ofNat 32 (ofSigned 64 mean)
         else Answered c s t 0 (ofSigned 64 mean) [])) ∧
      t = book t { s with out := t.out, tim := { s.tim with cal := t.tim.cal, syncRt := t.tim.syncRt }, now := t.now, mono := t.mono }) ∧
  (∀ s : State, s.tim.refPresent = true →
    ∃ t, exec .refLoss s = .next t ∧ t.tim.refPresent = false ∧ t.tim.refIosc = true ∧
      t.tim.tq = (if s.tim.tq = 3 then 2 else s.tim.tq) ∧ t.boot.sl = (if s.boot.sl = 3 then 2 else s.boot.sl) ∧
      (t.source srcRefLoss).alarm = true ∧ RefFrame s t) ∧
  (∀ s : State, s.tim.refPresent = false →
    ∃ t, exec .refReturn s = .next t ∧ t.tim = { s.tim with refPresent := true, moving := true } ∧
      (∀ n < 6, (t.port n).fckIn = ((s.port n).fckIn || decide (fld s.tim.ref 0 3 = n + 1))) ∧
      t = book t { s with
        tim := t.tim, ports := t.ports, pins := t.pins, caps := t.caps, slices := t.slices, grn := t.grn }) ∧
  (∀ s : State, s.tim.moving = true →
    ∃ t, exec .refMoveDone s = .next t ∧ t.tim.moving = false ∧ t.tim.refIosc = false ∧
      t.tim.tq = (if s.isGm = true ∧ s.tim.refPresent = true ∧ s.tim.tq ≠ 0 then 3 else s.tim.tq) ∧
      t.boot.sl = (if s.boot.sl = 2 then 3 else s.boot.sl) ∧ RefFrame s t) ∧
  (∀ s : State, ∃ t, exec .epochWrap s = .next t ∧ t.stamp = 0 ∧ t.ep = s.ep + 1 ∧ s.mono < t.mono ∧
    t = { s with now := t.now, mono := t.mono })

/-- A port exchanges 1588 messages in this state of R417 on an active link (R417). -/
abbrev Exchanges (n st : Nat) (s : State) : Prop := portState s n = st ∧ (s.port n).state = 2 ∧ s.serving = true

/-- A received message fits the profile (R418). -/
abbrev FitsProfile (n : Nat) (m : PtpMsg) (s : State) : Prop :=
  m.version = 2 ∧ m.domain.toNat = fld s.tim.ptp 16 7 ∧ m.srcDev = (s.port n).peerDev

/-- What sending on a port changes: the message, the port, the counters; and on the time side that port. -/
abbrev SendFrame (n : Nat) (s t : State) : Prop :=
  (∀ j, j ≠ n → t.tport j = s.tport j ∧ t.port j = s.port j) ∧
    t = { s with
      out := t.out, ports := t.ports, tim := { s.tim with ports := t.tim.ports, sclk := true }, now := t.now, mono := t.mono
      obs := { s.obs with counters := t.obs.counters } }

/-- The 1588 messages (R417 to R423). Model's choices in it: log entries 23, 50 and 51. -/
def Obligations.PtpMessagesHaveTheirEffect : Prop :=
  (∀ (n : Fin 6) (at_ : Full) (replayed : Bool) (s : State), Exchanges n.val 1 s → (s.tport n.val).tsq = [] →
    let id := (s.tport n.val).syncSeq
    let q := toPtp at_.toNat
    ∃ t a b, exec (.ptpSyncSend n at_ replayed) s = .next t ∧
      t.out = s.out ++ [.ptp n.val 0 id 0 0 0, .message n.val 3 a] ++
        (if replayed = true then [] else [.ptp n.val 1 id q.1 q.2.1 q.2.2, .message n.val 3 b]) ∧
      t.tport n.val = { s.tport n.val with syncSeq := id + 1 } ∧ t.mono = s.mono + (at_.toNat - s.now.toNat) ∧ SendFrame n.val s t) ∧
  (∀ (n : Fin 6) (at_ : Full) (replayed : Bool) (s : State), Exchanges n.val 2 s → (s.tport n.val).tsq.length < 16 →
    let id := (s.tport n.val).dreqSeq
    ∃ t a, exec (.ptpDelayReqSend n at_ replayed) s = .next t ∧
      t.out = s.out ++ [.ptp n.val 2 id 0 0 0, .message n.val 3 a] ∧ t.mono = s.mono + (at_.toNat - s.now.toNat) ∧
      t.tport n.val = { s.tport n.val with
        dreqSeq := id + 1, tsq := (s.tport n.val).tsq ++ [{ id := id, kind := 1, t := at_, replayed := replayed }]
        dreqs := (s.tport n.val).dreqs ++ [{
          id := id, t3 := if replayed = true then none else some (at_.toNat * 256), sync := (s.tport n.val).syncs.head?
          at_ := t.mono }] } ∧ SendFrame n.val s t) ∧
  (∀ (n : Fin 6) (q : PtpQuality) (s : State), Exchanges n.val 1 s → announceQuality s = some q →
    ∃ t a, exec (.ptpAnnounceSend n) s = .next t ∧
      t.out = s.out ++ [.announce n.val (s.tport n.val).annSeq q, .message n.val 3 a] ∧
      t.tport n.val = { s.tport n.val with annSeq := (s.tport n.val).annSeq + 1 } ∧ t.mono = s.mono ∧ SendFrame n.val s t) ∧
  (∀ (n : Fin 6) (m : PtpMsg) (at_ : Full) (s : State), (s.port n.val).state = 2 → s.serving = true → portState s n.val ≠ 0 →
    ¬FitsProfile n.val m s →
    ∃ t, exec (.ptpSyncReceive n m at_) s = .next t ∧ t.tport n.val = { s.tport n.val with bad := satInc (s.tport n.val).bad } ∧
      (∀ j, j ≠ n.val → t.tport j = s.tport j) ∧ t = { s with tim := { s.tim with ports := t.tim.ports } }) ∧
  (∀ (n : Fin 6) (m : PtpMsg) (at_ : Full) (s : State), Exchanges n.val 2 s → FitsProfile n.val m s →
    ∃ t, exec (.ptpSyncReceive n m at_) s = .next t ∧ t.mono = s.mono + (at_.toNat - s.now.toNat) ∧
      t.tport n.val = { s.tport n.val with
        syncs := { id := m.seqId, t2 := at_.toNat * 256, corr := m.corr, at_ := t.mono
                   t1 := if m.twoStep = true then none else some (fromPtp m.sec.toNat m.ns.toNat m.corr) } ::
          (s.tport n.val).syncs.filter (fun y => y.t1.isNone) } ∧
      (∀ j, j ≠ n.val → t.tport j = s.tport j) ∧
      t = { s with tim := { s.tim with ports := t.tim.ports }, now := t.now, mono := t.mono }) ∧
  (∀ (n : Fin 6) (m : PtpMsg) (s : State), Exchanges n.val 2 s → FitsProfile n.val m s →
    ∃ t, exec (.ptpFollowUpReceive n m) s = .next t ∧
      (t.tport n.val).syncs = (s.tport n.val).syncs.map (fun x =>
        if x.id = m.seqId ∧ x.t1 = none ∧ s.mono ≤ x.at_ + 100000 * usSteps then
          { x with t1 := some (fromPtp m.sec.toNat m.ns.toNat (m.corr + x.corr)) } else x) ∧
      t.tport n.val = { s.tport n.val with syncs := (t.tport n.val).syncs, dreqs := (t.tport n.val).dreqs } ∧
      (∀ j, j ≠ n.val → t.tport j = s.tport j) ∧ t = { s with tim := { s.tim with ports := t.tim.ports } }) ∧
  (∀ (n : Fin 6) (m : PtpMsg) (at_ : Full) (s : State), Exchanges n.val 1 s → FitsProfile n.val m s →
    let q := toPtp at_.toNat
    ∃ t a, exec (.ptpDelayReqReceive n m at_) s = .next t ∧
      t.out = s.out ++ [.ptp n.val 3 m.seqId q.1 q.2.1 (q.2.2 + m.corr), .message n.val 3 a] ∧
      t.tport n.val = s.tport n.val ∧ t.mono = s.mono + (at_.toNat - s.now.toNat) ∧ SendFrame n.val s t) ∧
  (∀ (n : Fin 6) (m : PtpMsg) (r : PtpReq) (y : PtpSync) (t1 t3 : Int) (s : State), Exchanges n.val 2 s → FitsProfile n.val m s →
    m.forMe = true → (s.tport n.val).dreqs.find? (fun r => r.id == m.seqId) = some r → s.mono ≤ r.at_ + 100000 * usSteps →
    r.sync = some y → y.t1 = some t1 → r.t3 = some t3 → bit (s.tport n.val).reg 29 = false →
    let p := s.tport n.val
    let t4 := fromPtp m.sec.toNat m.ns.toNat m.corr
    let d := roundAway ((y.t2 - t1) + (t4 - t3)) 2
    let theta := roundAway ((y.t2 - t1) - (t4 - t3)) 2 - p.asym * 256
    (p.delays = [] ∨ (d - p.filtered).natAbs < 164 * 256) →
    ∃ t, exec (.ptpDelayRespReceive n m) s = .next t ∧ t.tim.theta = some theta ∧ t.tim.offset = roundAway theta 256 ∧
      (t.tport n.val).delays = (d :: p.delays).take 16 ∧
      (t.tport n.val).pdelay = roundAway (roundAway (((d :: p.delays).take 16).foldl (· + ·) 0) ((d :: p.delays).take 16).length) 256 ∧
      (t.tport n.val).dreqs = p.dreqs.erase r ∧ (t.tport n.val).asym = p.asym ∧
      (s.tim.phaseSync = true → (∀ j, j ≠ n.val → t.tport j = s.tport j) ∧
        t = { s with tim := { s.tim with ports := t.tim.ports, theta := t.tim.theta, offset := t.tim.offset } })) ∧
  (∀ (n : Fin 6) (m : PtpMsg) (s : State), (s.port n.val).state = 2 → s.serving = true → portState s n.val ≠ 0 →
    FitsProfile n.val m s →
    ∃ t, exec (.ptpAnnounceReceive n m) s = .next t ∧ t.tport n.val = { s.tport n.val with announce := some m } ∧
      (∀ j, j ≠ n.val → t.tport j = s.tport j) ∧ t = { s with tim := { s.tim with ports := t.tim.ports } }) ∧
  (∀ (n : Fin 6) (m : Nat) (s : State), matchEnd (s.tport n.val) = some m →
    ∃ t, exec (.ptpMatchTimeout n) s = .next t ∧ t.mono = max s.mono (m + 100000 * usSteps) ∧
      (∀ x, x ∈ (t.tport n.val).syncs ↔ x ∈ (s.tport n.val).syncs ∧ (x.t1 = none → t.mono < x.at_ + 100000 * usSteps)) ∧
      (∀ x, x ∈ (t.tport n.val).dreqs ↔ x ∈ (s.tport n.val).dreqs ∧ t.mono < x.at_ + 100000 * usSteps) ∧
      (∀ j, j ≠ n.val → t.tport j = s.tport j) ∧
      t = { s with tim := { s.tim with ports := t.tim.ports }, now := t.now, mono := t.mono })

/-! ## Obros ports (spec/16_obros_link.md) -/

/-- A port that has just been set to train (R391, R407): traffic has stopped. -/
abbrev Trains (p : Port) : Prop :=
  p.state = 1 ∧ p.failAt = 0 ∧ p.txBuf = [] ∧ p.txWait = [] ∧ p.asm = [] ∧ p.nak = false ∧ p.txLpi = false ∧ p.rxLpi = false

/-- The ports but `n` are unchanged. -/
abbrev OtherPorts (n : Nat) (s t : State) : Prop := ∀ j, j ≠ n → t.port j = s.port j

/-- The LNK commands (R376, R391, R402 to R404, R406, R410). Model's choices in it: log entry 48. -/
def Obligations.LinkCommandsHaveTheirEffect : Prop :=
  (∀ c s tg, Runs 0xC00 1 c tg s → c.params.length = 8 → c.u 0 1 ≤ 5 → c.u 1 1 ≤ 1 → (c.u 1 1 = 0 → c.src.toNat ≠ c.u 0 1) →
    ∃ t, exec (.lnkTrain c) s = .next t ∧ Answered c s t 0 0 [] ∧
      (if c.u 1 1 = 0 then Trains (t.port (c.u 0 1)) ∧ OtherPorts (c.u 0 1) s t ∧
          t = book t { s with ports := t.ports, tim := { s.tim with sclk := true } }
       else t = book t s)) ∧
  (∀ c s tg, Runs 0xC01 1 c tg s → c.params.length = 8 → c.u 0 1 ≤ 5 → c.u 1 1 ≤ 2 → portFenced s (c.u 0 1) = false →
    (c.u 1 1 = 0 → c.src.toNat ≠ c.u 0 1) → let n := c.u 0 1
    ∃ t, exec (.lnkPort c) s = .next t ∧ Answered c s t 0 0 [] ∧ fld (t.port n).cfg 0 2 = c.u 1 1 ∧
      (∀ i, 2 ≤ i → bit (t.port n).cfg i = bit (s.port n).cfg i) ∧
      (c.u 1 1 = 0 → (t.port n).state = 0 ∧ (t.port n).txBuf = [] ∧ (t.port n).txWait = []) ∧
      (c.u 1 1 ≠ 0 → (s.port n).state = 0 → Trains (t.port n)) ∧
      (c.u 1 1 = 1 → (s.port n).state = 2 →
        if (s.port n).txBuf = [] ∧ (s.port n).txWait = [] then (t.port n).state = 3
        else (t.port n).state = 2 ∧ (t.port n).txLpi = true) ∧
      (c.u 1 1 = 2 → (s.port n).state = 3 → (t.port n).state = 2 ∧ t.mono = s.mono + 2 * usSteps) ∧
      (c.u 1 1 = 2 → (s.port n).state = 2 → (t.port n).state = 2 ∧ (t.port n).txLpi = false) ∧ OtherPorts n s t ∧
      t = book t { s with ports := t.ports, tim := { s.tim with sclk := t.tim.sclk }, now := t.now, mono := t.mono }) ∧
  (∀ c s tg, Runs 0xC02 1 c tg s → c.params.length = 8 + cdiv (c.u 2 2) 8 * 8 → c.u 0 2 ≤ 1023 → 1 ≤ c.u 2 2 →
    c.u 0 2 + c.u 2 2 ≤ 1024 → (∀ i < c.u 2 2, c.u (8 + i) 1 < 64 ∧ c.u (8 + i) 1 % 8 ≠ 6 ∧ c.u (8 + i) 1 / 8 ≠ 6) →
    ∃ t, exec (.lnkRoute c) s = .next t ∧ Answered c s t 0 0 [] ∧
      (∀ i < c.u 2 2, (routeOf t (c.u 0 2 + i)).toNat = c.u (8 + i) 1) ∧
      (∀ d, (d < c.u 0 2 ∨ c.u 0 2 + c.u 2 2 ≤ d) → routeOf t d = routeOf s d) ∧ t = book t { s with routes := t.routes }) ∧
  (∀ c s tg, Runs 0xC03 1 c tg s → c.params.length = 8 → c.u 1 1 ≤ 127 →
    ∃ t, exec (.lnkMcast c) s = .next t ∧ Answered c s t 0 0 [] ∧ (mcastOf t (c.u 0 1)).toNat = c.u 1 1 ∧
      (∀ g, g ≠ c.u 0 1 → mcastOf t g = mcastOf s g) ∧ t = book t { s with mcast := t.mcast }) ∧
  (∀ c s tg, Runs 0xC04 1 c tg s → c.params.length = 8 → c.u 0 1 ≤ 5 → portFenced s (c.u 0 1) = false →
    let p := s.port (c.u 0 1)
    ∃ t l, exec (.lnkStatus c) s = .next t ∧ Answered c s t 0 0 l ∧ l.length = 64 ∧ rdLe l 0 1 = c.u 0 1 ∧
      rdLe l 1 1 = p.state.toNat ∧ rdLe l 2 1 = (bit s.role (c.u 0 1)).toNat ∧ rdLe l 4 2 = p.peerDev.toNat ∧
      rdLe l 6 1 = p.peerPort.toNat ∧ rdLe l 7 1 = p.laneMap.toNat ∧ rdLe l 8 1 = p.polInv.toNat ∧ rdLe l 9 1 = p.skew.toNat ∧
      rdLe l 10 1 = p.lastFail.toNat ∧ rdLe l 12 4 = p.totTrain.toNat ∧ rdLe l 16 8 = p.totCor.toNat ∧
      rdLe l 24 8 = p.totUnc.toNat ∧ rdLe l 32 8 = p.totSym.toNat ∧ rdLe l 40 4 = p.totCrc.toNat ∧
      rdLe l 44 4 = p.totReplay.toNat ∧ rdLe l 48 4 = p.totFence.toNat ∧ rdLe l 52 4 = p.totFreeze.toNat ∧
      rdLe l 56 8 = p.upStamp.toNat ∧ t = book t s)

/-- The events of a port (R385, R389, R391 to R396, R402, R406, R407, R429): training ends well or fails, is tried again, a
fenced port tries again; codewords are corrected and cut into flits, or lost, and the fourth lost in a row breaks FEC lock;
without ACK progress the flits are sent again, and the eighth replay in a row fences the port; adaptation freezes and resumes a
lane; low-power idle ends; a forwarded clock is lost. Model's choices in it: log entries 16 and 48. -/
def Obligations.LinkEventsHaveTheirEffect : Prop :=
  (∀ (n : Fin 6) (i : TrainInfo) (s : State), (s.port n.val).state = 1 → (s.port n.val).failAt = 0 →
    let peer : BitVec 13 := BitVec.ofNat 13 (i.devid.toNat * 8 + i.port.toNat)
    ∃ t, exec (.portTrained n i) s = .next t ∧
      (t.port n.val).state = (if fld (s.port n.val).cfg 0 2 = 1 then 3 else 2) ∧ (t.port n.val).peerDev = i.devid ∧
      (t.port n.val).peerPort = i.port ∧ (t.port n.val).credits = i.credits ∧ (t.port n.val).laneMap = i.laneMap ∧
      (t.port n.val).polInv = i.polInv ∧ (t.port n.val).skew = i.skew ∧ (t.port n.val).txSeq = 0 ∧ (t.port n.val).txAck = 1023 ∧
      (t.port n.val).rxSeq = 0 ∧ (t.port n.val).txBuf = [] ∧ (t.port n.val).fenceAt = 0 ∧
      (t.port n.val).trains = satInc (s.port n.val).trains ∧ (t.port n.val).upStamp = s.stamp ∧
      (t.tport n.val).oldPeer = some peer ∧ OtherPorts n.val s t ∧
      (if portState s n.val = 2 ∧ (s.tport n.val).oldPeer ≠ none ∧ (s.tport n.val).oldPeer ≠ some peer then
        bit (t.tport n.val).reg 29 = true ∧ (t.source (srcPathStep n.val)).alarm = true
       else t.tport n.val = { s.tport n.val with oldPeer := some peer } ∧
        t = book t { s with ports := t.ports, tim := { s.tim with ports := t.tim.ports } })) ∧
  (∀ (n : Fin 6) (cause : BitVec 3) (s : State), (s.port n.val).state = 1 → (s.port n.val).failAt = 0 → 1 ≤ cause.toNat →
    cause.toNat ≤ 5 →
    ∃ t, exec (.trainFail n cause) s = .next t ∧ (t.port n.val).lastFail = cause ∧
      ((t.source (srcTrainFail n.val)).alarm = ((s.source (srcTrainFail n.val)).alarm || cause != 1)) ∧
      (if (s.port n.val).relock = true then
        (t.port n.val).state = 4 ∧ (t.port n.val).fences = satInc (s.port n.val).fences ∧
          (t.source (srcPortFenced n.val)).alarm = true ∧ portFenced t n.val = true
       else if (s.port n.val).fenceAt ≠ 0 then (t.port n.val).state = 4 ∧ (t.port n.val).fenceAt = s.mono + 1
       else (t.port n.val).state = 1 ∧ (t.port n.val).failAt = s.mono + 1) ∧ OtherPorts n.val s t ∧
      t = book t { s with ports := t.ports, flt := t.flt, tim := { s.tim with ports := t.tim.ports } }) ∧
  (∀ (n : Fin 6) (s : State), (s.port n.val).state = 1 → (s.port n.val).failAt ≠ 0 →
    ∃ t, exec (.trainRetry n) s = .next t ∧ Trains (t.port n.val) ∧
      t.mono = max s.mono ((s.port n.val).failAt - 1 + 100000 * usSteps) ∧ OtherPorts n.val s t ∧
      t = { s with ports := t.ports, tim := { s.tim with sclk := true }, now := t.now, mono := t.mono }) ∧
  (∀ (n : Fin 6) (s : State), (s.port n.val).state = 4 → bit (s.port n.val).cfg 7 = true →
    ∃ t, exec (.fencedRetrain n) s = .next t ∧ Trains (t.port n.val) ∧ (t.port n.val).fenceAt = (s.port n.val).fenceAt ∧
      t.mono = max s.mono ((s.port n.val).fenceAt - 1 + 1000000 * usSteps) ∧ OtherPorts n.val s t ∧
      t = { s with ports := t.ports, tim := { s.tim with sclk := true }, now := t.now, mono := t.mono }) ∧
  (∀ (n : Fin 6) (w : Codeword) (s : State), (s.port n.val).up = true → w.msg.length = 514 →
    let r := descramble (s.port n.val).descr (w.msg.flatMap symbolBits)
    (w.errors ≤ 15 → ∃ u, exec (.codewordReceive n w) s = .next ((flitsOf r.1).foldl (fun s f => takeFlit n.val f s) u) ∧
      u.port n.val = { s.port n.val with
        descr := r.2, uncRun := 0, cwcor := if w.errors = 0 then (s.port n.val).cwcor else (s.port n.val).cwcor + 1
        totCor := if w.errors = 0 then (s.port n.val).totCor else (s.port n.val).totCor + 1
        totSym := (s.port n.val).totSym + BitVec.ofNat 64 w.errors } ∧ OtherPorts n.val s u ∧
      u = { s with ports := u.ports, obs := { s.obs with counters := u.obs.counters } }) ∧
    (15 < w.errors → ∃ t, exec (.codewordReceive n w) s = .next t ∧ (t.port n.val).cwunc = satInc (s.port n.val).cwunc ∧
      (t.port n.val).crcerr = satAdd (s.port n.val).crcerr 4 ∧ (t.port n.val).totUnc = (s.port n.val).totUnc + 1 ∧
      (if 4 ≤ (s.port n.val).uncRun + 1 then Trains (t.port n.val) ∧ (t.port n.val).relock = true
       else (t.port n.val).nak = true ∧ (t.port n.val).uncRun = (s.port n.val).uncRun + 1 ∧
        (t.port n.val).state = (s.port n.val).state) ∧
      OtherPorts n.val s t ∧ t = { s with ports := t.ports, tim := { s.tim with sclk := t.tim.sclk } })) ∧
  (∀ (n : Nat) (f : List Byte) (s : State), (s.port n).up = true → crc32c (f.take 156) ≠ BitVec.ofNat 32 (rdLe f 156 4) →
    (takeFlit n f s).port n = { s.port n with
      crcerr := satInc (s.port n).crcerr, totCrc := satInc (s.port n).totCrc, nak := true } ∧
      OtherPorts n s (takeFlit n f s) ∧ takeFlit n f s = { s with ports := (takeFlit n f s).ports }) ∧
  (∀ (n : Fin 6) (s : State), (s.port n.val).up = true → (s.port n.val).txBuf ≠ [] →
    ∃ t, exec (.replayTimeout n) s = .next t ∧ t.mono = s.mono + 2 * usSteps ∧
      t.out = s.out ++ [Out.replay n.val (((s.port n.val).txAck + 1) % 1024)] ∧
      (t.port n.val).replays = satInc (s.port n.val).replays ∧
      (if 8 ≤ (s.port n.val).stuck + 1 then
        (t.port n.val).state = 4 ∧ portFenced t n.val = true ∧ (t.source (srcPortFenced n.val)).alarm = true
       else (t.port n.val).stuck = (s.port n.val).stuck + 1 ∧ (t.port n.val).txBuf = (s.port n.val).txBuf ∧
        (t.port n.val).state = (s.port n.val).state ∧ t.flt = s.flt) ∧ OtherPorts n.val s t ∧
      t = book t { s with
        out := t.out, ports := t.ports, flt := t.flt, tim := { s.tim with ports := t.tim.ports }, now := t.now, mono := t.mono }) ∧
  (∀ (n : Fin 6) (lane : Fin 4) (levels : List Nat) (s : State), (s.port n.val).up = true → levels.length = 4 →
    let out := levels.any (fun v => decide (v * 100 < 20 * 65536) || decide (30 * 65536 < v * 100))
    ∃ t, exec (.adaptWindow n lane levels) s = .next t ∧ bit (t.port n.val).frozen lane.val = out ∧
      (∀ l, l ≠ lane.val → bit (t.port n.val).frozen l = bit (s.port n.val).frozen l) ∧
      (if out = true ∧ bit (s.port n.val).frozen lane.val = false then
        (t.port n.val).freezes = satInc (s.port n.val).freezes ∧ Raised (srcAdapt n.val) 0 s t
       else (t.port n.val).freezes = (s.port n.val).freezes ∧ t.flt = s.flt) ∧ OtherPorts n.val s t ∧
      t = book t { s with ports := t.ports, flt := t.flt }) ∧
  (∀ (n : Fin 6) (s : State), (s.port n.val).state = 2 →
    ∃ t, exec (.retrainInPlace n) s = .next t ∧ t.mono = s.mono + 1000 * usSteps ∧ t = { s with now := t.now, mono := t.mono }) ∧
  (∀ (n : Fin 6) (s : State), (s.port n.val).state = 3 → (s.port n.val).txWait ≠ [] →
    ∃ t, exec (.lpiWake n) s = .next t ∧ (t.port n.val).state = 2 ∧ t.mono = s.mono + 2 * usSteps ∧ t.tim.sclk = true ∧
      (t.port n.val).txBuf.length + (t.port n.val).txWait.length =
        (s.port n.val).txBuf.length + (s.port n.val).txWait.length ∧ OtherPorts n.val s t ∧
      t = { s with
        ports := t.ports, tim := { s.tim with sclk := true }, now := t.now, mono := t.mono
        obs := { s.obs with counters := t.obs.counters } }) ∧
  (∀ (n : Fin 6) (s : State), (s.port n.val).up = true → (s.port n.val).rxLpi = true →
    ∃ t, exec (.lpiExitTimeout n) s = .next t ∧ Trains (t.port n.val) ∧ t.mono = s.mono + 10 * usSteps ∧ OtherPorts n.val s t ∧
      t = { s with ports := t.ports, tim := { s.tim with sclk := true }, now := t.now, mono := t.mono }) ∧
  (∀ (n : Fin 6) (s : State), (s.port n.val).fckIn = true →
    ∃ t, exec (.fckRxLoss n) s = .next t ∧ (t.port n.val).fckIn = false ∧
      (t.port n.val).fckLost = ((s.port n.val).fckLost || (s.port n.val).clkTrained) ∧
      ((s.port n.val).clkTrained = true → (t.source (srcFckLost n.val)).alarm = true) ∧
      (fld s.tim.ref 0 3 = n.val + 1 → t.tim.refPresent = false) ∧ OtherPorts n.val s t ∧
      (fld s.tim.ref 0 3 ≠ n.val + 1 → t = { s with ports := t.ports, flt := t.flt }))

/-! ## Faults and trace (spec/18_faults_and_dump.md, spec/22_observation.md) -/

/-- A command of the FLT class without parameters is admitted. -/
abbrev FltReady (op : Nat) (c : Cmd) (s : State) (tg : Target) : Prop := Runs op 1 c tg s ∧ c.params.length = 0

/-- FLT.SOURCE is admitted (R377, R439): a source of R437; the base of a FATAL source is not lowered. -/
abbrev FltSourceReady (c : Cmd) (s : State) (tg : Target) : Prop :=
  Runs 0xD01 1 c tg s ∧ c.params.length = 16 ∧ c.u 0 2 ≤ 0x1F8 ∧ c.u 2 1 ≤ 3 ∧ (resetBase (c.u 0 2) = 3 → c.u 2 1 = 3) ∧
    1 ≤ c.u 4 2 ∧ 1 ≤ c.u 8 8 ∧ c.u 8 8 ≤ 2 ^ 32

/-- FLT.READ is admitted (R377): it names a held record, of the snapshot by its place or of the Gleaner by its SEQ. -/
abbrev FltReadReady (c : Cmd) (s : State) (tg : Target) : Prop :=
  Runs 0xD02 1 c tg s ∧ c.params.length = 8 ∧ c.u 0 1 ≤ 1 ∧ (c.u 0 1 = 1 → c.u 2 2 ≤ 31) ∧
    fltRecords s (c.u 0 1 == 1) (c.u 2 2) ≠ [] ∧ 1 ≤ c.u 4 2 ∧ c.u 4 2 ≤ 127

/-- The FLT commands and writes (R377, R439, R446, R448, R450, R452, R456): acknowledge, the grading of a source, records read
as 32 bytes each, the alarm bitmap and its clearing, the snapshot, HEAD, LOCK and STORM. Model's choices in it: log entry 52. -/
def Obligations.FaultCommandsHaveTheirEffect : Prop :=
  (∀ c s tg, FltReady 0xD00 c s tg →
    ∃ t, exec (.fltAck c) s = .next t ∧ Answered c s t 0 0 [] ∧
      t = book t { s with flt := { s.flt with pin := setBit s.flt.pin 30 false, maxsev := 0, asserted := s.flt.pulse } }) ∧
  (∀ c s tg, FltSourceReady c s tg → let i := c.u 0 2
    ∃ t, exec (.fltSource c) s = .next t ∧ Answered c s t 0 0 [] ∧
      t.source i = { s.source i with
        base := BitVec.ofNat 2 (c.u 2 1), n := c.u 4 2, w := c.u 8 8, c := 0, ws := 0, esc := false } ∧
      (∀ j, j ≠ i → t.source j = s.source j) ∧ t = book t { s with flt := { s.flt with sources := t.flt.sources } }) ∧
  (∀ a (i : Fin 512) (second : Bool) v s, WriteRuns (.fltSrc i.val second) v a noReach s → i.val ≤ 0x1F8 →
    (second = false → 1 ≤ fld v 0 16 ∧ (resetBase i.val = 3 → fld v 30 2 = 3)) →
    ∃ t u, exec (.fltSrcCfgWrite a i second v) s = .next t ∧ Written a s t u ∧
      (if second = true then u.source i.val = { s.source i.val with w := v.toNat + 1, c := 0, ws := 0, esc := false }
       else u.source i.val = { s.source i.val with
        base := BitVec.ofNat 2 (fld v 30 2), n := fld v 0 16, c := 0, ws := 0, esc := false }) ∧
      (∀ j, j ≠ i.val → u.source j = s.source j) ∧
      u = { s with works := u.works, flt := { s.flt with sources := u.flt.sources } }) ∧
  (∀ c s tg, FltReadReady c s tg →
    let l := (fltRecords s (c.u 0 1 == 1) (c.u 2 2)).take (c.u 4 2)
    let newest := (s.flt.gleaner.getLast?.map (fun r => r.seq.toNat)).getD 0
    ∃ t, exec (.fltRead c) s = .next t ∧ Answered c s t 0 (l.length + 2 ^ 32 * newest) (l.flatMap FRecord.bytes) ∧ t = book t s) ∧
  (∀ c s tg, FltReady 0xD03 c s tg → Tab.wf s.flt.sources = true →
    ∃ t data, exec (.fltAlarms c) s = .next t ∧
      Answered c s t 0 (s.flt.maxsev.toNat + 2 ^ 32 * s.flt.lost.toNat) data ∧ data.length = 64 ∧
      (∀ i < 512, bit (data.getD (i / 8) 0) (i % 8) = (s.source i).alarm) ∧ t = book t s) ∧
  (∀ c s tg, Runs 0xD04 1 c tg s → c.params.length = 64 →
    ∃ t, exec (.fltAlarmClr c) s = .next t ∧ Answered c s t 0 0 [] ∧
      (∀ i, t.source i = { s.source i with alarm := (s.source i).alarm && !(c.u 0 64).testBit i }) ∧
      t = book t { s with flt := { s.flt with sources := t.flt.sources } }) ∧
  (∀ a (w : Fin 16) v s, WriteRuns (.fltAlarm w.val) v a noReach s →
    ∃ t u, exec (.fltAlarmWrite a w v) s = .next t ∧ Written a s t u ∧
      (∀ i, (u.source i).alarm = ((s.source i).alarm && !(decide (32 * w.val ≤ i) && bit v (i - 32 * w.val)))) ∧
      u = { s with works := u.works, flt := { s.flt with sources := u.flt.sources } }) ∧
  (∀ c s tg, FltReady 0xD05 c s tg →
    ∃ t, exec (.fltSnapRelease c) s = .next t ∧ Answered c s t 0 0 [] ∧ t = book t { s with flt := { s.flt with snap := none } }) ∧
  (∀ a v s, WriteRuns (.flt 0x01C) v a noReach s → v.toNat < s.flt.size →
    ∃ t u, exec (.fltSpillHeadWrite a v) s = .next t ∧ Written a s t u ∧
      u = { s with
        works := u.works, flt := { s.flt with head := v.toNat, unread := (s.flt.tail + s.flt.size - v.toNat) % s.flt.size } }) ∧
  (∀ a v s, WriteRuns (.flt 0x100) v a noReach s →
    ∃ t u, exec (.fltDumpWrite a v) s = .next t ∧ Written a s t u ∧
      (∀ i, bit u.flt.dump i = (bit s.flt.dump i && !((i == 13 || i == 14) && bit v i))) ∧
      u = { s with works := u.works, flt := { s.flt with dump := u.flt.dump } })

/-- The entry `e` of source `i` is the one that the recorder writes next (R442, R443): it may be written, and among those that
may it is the first by stamp, then severity, then source. -/
abbrev NextRecord (i : Nat) (e : FEntry) (s : State) : Prop :=
  (s.source i).entry = some e ∧ eligible (s.source i) e = true ∧
    ∀ j x, j ≠ i → (s.source j).entry = some x → eligible (s.source j) x = true → recordBefore (i, e) (j, x) = true

/-- The events of the fault system (R442 to R450, R453, R456). A record written holds the entry's stamp, source, severity,
cause, count and detail under the next SEQ; a FATAL one then starts its sequence: after 20 µs the pins are safe, and a dump
begins, or with LOCK the warm reset. A hold-off ends; a record is copied to TAIL; an ALARM message is sent; FAULT_N is released.
A flash failure and a core fault raise their sources. Model's choices in it: log entries 16 and 52. -/
def Obligations.FaultEventsHaveTheirEffect : Prop :=
  (∀ i e s, NextRecord i e s → Tab.wf s.flt.sources = true → startsFatal i e = false →
    ∃ t r, exec .faultRecordWrite s = .next t ∧ t.flt.seq = s.flt.seq + 1 ∧
      (s.flt.gleaner.length ≤ 255 → t.flt.gleaner = s.flt.gleaner ++ [r] ∧ t.flt.lost = s.flt.lost) ∧
      (s.flt.gleaner.length = 256 → t.flt.gleaner = s.flt.gleaner.drop 1 ++ [r]) ∧
      r.stamp = e.stamp ∧ r.src = BitVec.ofNat 12 i ∧ r.sev = e.sev ∧ r.cause = e.cause ∧ r.count = BitVec.ofNat 16 e.count ∧
      r.seq = s.flt.seq ∧ r.detail = e.detail ∧ r.copied = false ∧
      t.source i = { s.source i with
        entry := none, lastSev := e.sev, hold := s.flt.holdoff != 0, holdEnd := s.mono + s.flt.holdoff * aoclkSteps } ∧
      (∀ j, j ≠ i → t.source j = s.source j) ∧ t.flt.maxsev.toNat = max s.flt.maxsev.toNat e.sev.toNat ∧
      (s.flt.minSev ≤ e.sev.toNat → t.flt.asserted = true) ∧
      (2 ≤ e.sev.toNat → s.flt.snap = none →
        t.flt.snap = some (s.flt.gleaner.drop (s.flt.gleaner.length - 31) ++ [r])) ∧ t = book t { s with flt := t.flt }) ∧
  (∀ i e s, NextRecord i e s → Tab.wf s.flt.sources = true → startsFatal i e = true → s.flt.dumping = false →
    s.boot.warmBusy = false → bit s.flt.dump 13 = false →
    ∃ t, exec .faultRecordWrite s = .next t ∧ t.mono = s.mono + 20 * usSteps ∧ t.flt.seq = s.flt.seq + 1 ∧
      (∀ p, (t.pin p).stage = .safe) ∧
      (if bit s.flt.dump 14 = true ∨ dumpStacks s = [] then
        t.boot.warmBusy = true ∧ t.boot.warmCause = 4 ∧ t.flt.dumping = false ∧ t.flt.fatalTimes.head? = some t.mono
       else t.flt.dumping = true ∧ t.flt.dumpT = e.stamp.setWidth 64 ∧ t.flt.dumpSrc = BitVec.ofNat 32 i ∧
        t.flt.dumpSeq = s.flt.seq ∧ t.boot = s.boot)) ∧
  (∀ (i : Fin 512) s, (s.source i.val).hold = true →
    ∃ t, exec (.faultHoldoffEnd i) s = .next t ∧ t.mono = max s.mono (s.source i.val).holdEnd ∧
      t.source i.val = { s.source i.val with hold := false } ∧ (∀ j, j ≠ i.val → t.source j = s.source j) ∧
      t = { s with flt := { s.flt with sources := t.flt.sources }, now := t.now, mono := t.mono }) ∧
  (∀ (a b : List FRecord) (r : FRecord) s, s.flt.gleaner = a ++ r :: b → (∀ x ∈ a, x.copied = true) → r.copied = false →
    spillReady s = true →
    ∃ t, exec .spillCopy s = .next t ∧ Stored (spillAddr s s.flt.tail) r.bytes s t ∧
      t.flt = { s.flt with
        gleaner := a ++ { r with copied := true } :: b, tail := (s.flt.tail + 1) % s.flt.size
        head := if s.flt.unread < s.flt.size then s.flt.head else (s.flt.tail + 1) % s.flt.size
        unread := if s.flt.unread < s.flt.size then s.flt.unread + 1 else s.flt.unread
        lost := if s.flt.unread < s.flt.size then s.flt.lost else satInc s.flt.lost } ∧
      t = book t { s with flt := t.flt, grn := { s.grn with mem := t.grn.mem } }) ∧
  (∀ s, bit s.flt.dst 31 = true → (∃ i, (s.source i).alarm = true) → s.powered = true →
    ∃ t b, exec .alarmSend s = .next t ∧ Out.alarm b ∈ t.out ∧ t.flt.alarmAt = t.mono ∧
      ((t.source srcNoroute).alarm = (s.source srcNoroute).alarm → t.flt.alarmNew = false) ∧
      (s.flt.alarmAt ≠ 0 → t.mono = max s.mono (s.flt.alarmAt + (if s.flt.alarmNew = true then 10 * usSteps else 100 * msSteps))) ∧
      (s.flt.alarmAt = 0 → t.mono = s.mono) ∧ t.flt.gleaner = s.flt.gleaner ∧ t.boot = s.boot ∧ t.pins = s.pins) ∧
  (∀ s, s.flt.pulse = true →
    ∃ t, exec .faultNPulseEnd s = .next t ∧ t.mono = max s.mono s.flt.pulseEnd ∧ t.flt.pulse = false ∧
      t.flt.asserted = bit s.flt.pin 30 ∧
      t = { s with flt := { s.flt with pulse := false, asserted := t.flt.asserted }, now := t.now, mono := t.mono }) ∧
  (∀ s, ∃ t, exec .flashFail s = .next t ∧ t.boot.flashOk = false ∧ t.boot.flashWb = false ∧ Raised srcFlash 0 s t ∧
      t = { s with boot := { s.boot with flashOk := false, flashWb := false }, flt := t.flt }) ∧
  (∀ rail s, ∃ t, exec (.coreFault rail) s = .next t ∧ Raised (if rail = true then srcCoreRail else srcCore) 0 s t ∧
      t = { s with flt := t.flt })

/-- The OBS commands and the sending of a trace record (R379, R509, R510, R512). Model's choices in it: log entry 49. -/
def Obligations.TraceAndCountersHaveTheirEffect : Prop :=
  (∀ c s tg, Runs 0xF00 1 c tg s → c.params.length = 16 → c.u 0 1 ≤ 1 → (c.u 1 1 = 1 ∨ c.u 1 1 = 2) → c.u 8 8 < 2 ^ 49 →
    c.u 8 8 / 2 ^ 18 % 64 = 0 →
    ∃ t, exec (.obsTrace c) s = .next t ∧ Answered c s t 0 0 [] ∧ t.obs.en = (c.u 0 1 == 1) ∧ t.obs.lanes = (c.u 1 1 == 2) ∧
      t.obs.filter = BitVec.ofNat 64 (c.u 8 8) ∧ (c.u 0 1 = 0 → t.obs.buffer = []) ∧
      t = book t { s with obs := { s.obs with en := t.obs.en, lanes := t.obs.lanes, filter := t.obs.filter } }) ∧
  (∀ c s tg, Runs 0xF01 1 c tg s → c.params.length = 8 → c.u 0 2 ≤ 1023 → 1 ≤ c.u 2 2 → c.u 2 2 ≤ 510 → c.u 0 2 + c.u 2 2 ≤ 1024 →
    ∃ t, exec (.obsCounters c) s = .next t ∧
      Answered c s t 0 0 ((List.range (c.u 2 2)).flatMap (fun i => leBytes 8 (Tab.get 0 s.obs.counters (c.u 0 2 + i)))) ∧
      t = book t s) ∧
  (∀ (lane : Fin 2) (r : List Byte) (l : List (List Byte)) s, s.obs.buffer = r :: l → (lane.val = 0 ∨ s.obs.lanes = true) →
    ∃ t, exec (.traceSend lane) s = .next t ∧ t.out = s.out ++ [Out.trace lane.val r] ∧
      (s.obs.dropped = 0 → t.obs.buffer = l ∧ t.obs.tseq = s.obs.tseq) ∧
      (0 < s.obs.dropped → l.length < 4095 → ∃ d, t.obs.buffer = l ++ [d] ∧ t.obs.dropped = 0 ∧ t.obs.tseq = s.obs.tseq + 1) ∧
      t.works = s.works ∧ t.compl = s.compl ∧ t.journal = s.journal ∧ t = book t { s with out := t.out })

/-! ## Supplies, sleep and the thermal governor (spec/19_power_thermal_supplies.md) -/

/-- A command of the THM class on a bay is admitted: the bay is not fenced (R361). -/
abbrev BayCmdReady (op n : Nat) (c : Cmd) (s : State) (tg : Target) : Prop :=
  Runs op 4 c tg s ∧ c.params.length = n ∧ fenceCheck s [] [bayArg c] = none

/-- Nothing of a bay ends with it: no blanking channel runs, no command waits on a PMU of its pins. -/
abbrev BayQuiet (s : State) (k : Nat) : Prop :=
  (∀ i < 4, bit (s.blk (4 * k + i)).cfg 31 = false) ∧ ∀ p, p / 16 = k → (s.pin p).pmu.keys = []

/-- Bay `k` sleeps in `t` (R465): its pins SAFE with SLEPT, PIN_EN kept; no other bay or pin changes. -/
abbrev Sleeps (k : Nat) (s t : State) : Prop :=
  t.bay k = { s.bay k with state := 2 } ∧ (∀ j, j ≠ k → t.bay j = s.bay j) ∧
    (∀ p, p / 16 = k → (t.pin p).stage = .safe ∧ bit (t.pin p).stat 11 = true ∧ bit (t.pin p).stat 0 = true ∧
      bit (t.pin p).ctrl 16 = bit (s.pin p).ctrl 16) ∧ (∀ p, p / 16 ≠ k → t.pin p = s.pin p) ∧ t.mono = s.mono + 3 * usSteps

/-- Bay `k` wakes in `t` for `cause` (R466): SCLK runs, its TDCs serve stale tables, no pin leaves SAFE; no other bay or pin changes. -/
abbrev Wakes (cause k : Nat) (s t : State) : Prop :=
  t.bay k = { s.bay k with
    state := 0, lastWake := BitVec.ofNat 4 cause, wakeReq := 0, wakeKeys := []
    wake := if cause = 3 then 0 else (s.bay k).wake } ∧ (∀ j, j ≠ k → t.bay j = s.bay j) ∧
    (∀ p, p / 16 = k → t.pin p = { s.pin p with tdc := { (s.pin p).tdc with stale := true } }) ∧
    (∀ p, p / 16 ≠ k → t.pin p = s.pin p) ∧
    t.mono = s.mono + (if s.tim.sclk = true then usSteps / 4 else 51 * usSteps) ∧ t.tim = { s.tim with sclk := true }

/-- The THM commands and the entry to SL0 (R378, R464 to R466, R469, R479). Model's choices in it: log entries 13, 16 and 36. -/
def Obligations.ThermalCommandsHaveTheirEffect : Prop :=
  (∀ c s tg, Runs 0xE00 1 c tg s → c.params.length = 0 →
    ∃ t data, exec (.thmStatus c) s = .next t ∧ Answered c s t 0 0 data ∧ data.length = 128 ∧
      (∀ z < 8, rdLe data (4 * z) 4 = ofSigned 32 (s.zone z).temp ∧ rdLe data (0x28 + z) 1 = (s.zone z).s.toNat ∧
        rdLe data (0x20 + z) 1 = (s.zone z).level.toNat + (inStep s z).toNat * 8 + (s.zone z).warn.toNat * 16 +
          (s.zone z).hold.toNat * 32 + (s.zone z).flaplock.toNat * 64 + (s.zone z).novalid.toNat * 128) ∧
      (∀ k < 16, (rdLe data 0x52 2).testBit k = decide ((s.bay k).state ≠ 2) ∧
        (rdLe data 0x54 2).testBit k = bit (s.bay k).cfg 30) ∧
      rdLe data 0x58 4 = s.thm.switchTotal.toNat ∧ rdLe data 0x5C 4 = s.thm.flapTotal.toNat ∧
      rdLe data 0x60 8 = s.stamp.toNat ∧ rdLe data 0x68 2 = s.ep.toNat ∧ t = book t { s with freeNo := s.freeNo + 1 }) ∧
  (∀ c s tg, BayCmdReady 0xE01 0 c s tg → (bayAwake s (bayArg c) = true → maySleep s (bayArg c) = true ∧ BayQuiet s (bayArg c)) →
    ∃ t, exec (.thmBaySleep c) s = .next t ∧ Answered c s t 0 0 [] ∧
      (if bayAwake s (bayArg c) = true then
        Sleeps (bayArg c) s t ∧ t = book t { s with bays := t.bays, pins := t.pins, now := t.now, mono := t.mono }
       else t = book t s)) ∧
  (∀ c s tg, BayCmdReady 0xE02 0 c s tg → (s.bay (bayArg c)).wakeReq = 0 → (s.bay (bayArg c)).wakeKeys = [] →
    let k := bayArg c
    ∃ t, exec (.thmBayWake c) s = .next t ∧
      (if bayAwake s k = true then Answered c s t 0 0 [] ∧ t = book t s
       else if wakeFits s [k] = true then
        Answered c s t 0 0 [] ∧ Wakes 4 k s t ∧
          t = book t { s with bays := t.bays, pins := t.pins, tim := t.tim, now := t.now, mono := t.mono }
       else InProgress c s t ∧ t.bay k = { s.bay k with wakeReq := 4, wakeKeys := [c.key] } ∧
        (∀ j, j ≠ k → t.bay j = s.bay j) ∧ t = { s with bays := t.bays, works := t.works })) ∧
  (∀ c s tg, BayCmdReady 0xE03 8 c s tg → c.u 0 1 ≤ 1 →
    ∃ t, exec (.thmBayPin c) s = .next t ∧ Answered c s t 0 0 [] ∧
      t.bay (bayArg c) = { s.bay (bayArg c) with cfg := setBit (s.bay (bayArg c)).cfg 30 (c.u 0 1 == 1) } ∧
      (∀ j, j ≠ bayArg c → t.bay j = s.bay j) ∧ t = book t { s with bays := t.bays }) ∧
  (∀ c s tg, Runs 0xE04 1 c tg s → c.params.length = 8 → c.u 0 1 ≤ 1 →
    ∃ t, exec (.thmVinMode c) s = .next t ∧ Answered c s t 0 0 [] ∧
      t = book t { s with thm := { s.thm with supCfg := setBit s.thm.supCfg 0 (c.u 0 1 == 1) } }) ∧
  (∀ c s tg, Runs 0xE05 1 c tg s → c.params.length = 8 → c.u 0 1 ≤ 7 → c.i 2 2 ≤ c.i 4 2 →
    ∃ t, exec (.thmTdLimit c) s = .next t ∧ Answered c s t 0 0 [] ∧
      Tab.get ({} : Diode) t.thm.diodes (c.u 0 1) =
        { Tab.get ({} : Diode) s.thm.diodes (c.u 0 1) with lim := BitVec.ofNat 32 (c.u 4 2 * 65536 + c.u 2 2) } ∧
      (∀ j, j ≠ c.u 0 1 → Tab.get ({} : Diode) t.thm.diodes j = Tab.get ({} : Diode) s.thm.diodes j) ∧
      t = book t { s with thm := { s.thm with diodes := t.thm.diodes } }) ∧
  (∀ a v s, WriteRuns (.sup 0x20) v a noReach s → bit v 0 = false →
    ∃ t u, exec (.thmSl0Enter a v) s = .next t ∧ Written a s t u ∧
      u = { s with works := u.works, thm := { s.thm with sl0 := v &&& 2#32 } }) ∧
  (∀ c v s, WriteRuns (.sup 0x20) v (.host c) noReach s → bit v 0 = true → (∀ k < 16, (s.bay k).state = 2) →
    othersInFlight s c.key = false → (∀ r ∈ s.compl, r.key ≠ c.key) →
    ∃ t, exec (.thmSl0Enter (.host c) v) s = .next t ∧ t.work? c.key = none ∧ t.compl = s.compl ∧ t.thm.inSl0 = true ∧
      t.boot.sl = 0 ∧ (∀ n < 6, (t.port n).state = 0) ∧
      (if bit v 1 = true then fld t.grn.stat 0 2 = 1 ∧ fld t.grn.stat 2 2 = 1 else t.grn.stat = s.grn.stat) ∧
      t.pins = s.pins ∧ t.dps = s.dps ∧ t.mons = s.mons ∧ t.mono = s.mono)

/-- No stream, sequence, measurement, capture, waveform request or engine call is in progress. -/
abbrev NothingRuns (s : State) : Prop :=
  s.runs = [] ∧ s.seqs = [] ∧ s.caps = [] ∧ (∀ e ∈ s.slices, e.2.tiv = none) ∧
    (∀ p, (s.pin p).tdc.freq = none ∧ (s.pin p).settling = [] ∧ (s.pin p).pmu.keys = []) ∧ (∀ d, (s.dpsOf d).cmds = []) ∧
    (∀ e, (s.eng e).calls = [] ∧ (s.eng e).open? = none ∧ (s.eng e).reload = none) ∧
    ∀ k, (s.awg k).keys = [] ∧ (s.dig k).cap = none ∧ (s.dig k).acq = none

/-- Only zone `z` changes among the zones. -/
abbrev OtherZones (z : Nat) (s t : State) : Prop := ∀ y, y ≠ z → t.zone y = s.zone y

/-- The level of zone `z` in `t` follows its boundaries (R471, R472, R474): 7 with no valid sensor, never lower in a hold or a lock;
a change raises THROTTLE. -/
abbrev LevelFollows (z : Nat) (s t : State) : Prop :=
  let l := if (t.zone z).novalid = true then 7 else (t.zone z).crossings
  (t.zone z).level.toNat =
      (if l < (s.zone z).level.toNat ∧ ((t.zone z).hold = true ∨ (s.zone z).flaplock = true) then (s.zone z).level.toNat else l) ∧
    ((t.zone z).level ≠ (s.zone z).level → (t.source (srcThrottle z)).alarm = true) ∧
    ((t.zone z).level = (s.zone z).level → t.flt = s.flt) ∧ OtherZones z s t ∧
    t = book t { s with thm := t.thm, flt := t.flt, runs := t.runs, bays := t.bays, now := t.now, mono := t.mono }

/-- The governor's events (R107, R471, R472, R474 to R476, R478). Model's choices in it: log entries 16 and 37. -/
def Obligations.GovernorEventsHaveTheirEffect : Prop :=
  (∀ (z : Fin 8) (l : List Int) s, z.val < 6 → l.length = 8 → (s.zone z.val).excl = 0 →
    (∀ i < 8, sampleOk (l.getD i 0) (s.zone z.val).prev[i]? (otherValid z.val 0 l i) = true) →
    (s.zone z.val).crossings = (s.zone z.val).level.toNat →
    ∃ t v, exec (.sensorSample z l) s = .next t ∧ v ∈ l ∧ (∀ x ∈ l, x ≤ v) ∧
      t.zone z.val = { s.zone z.val with temp := v, prev := l, novalid := false } ∧ OtherZones z.val s t ∧
      t = { s with thm := { s.thm with zones := t.thm.zones } }) ∧
  (∀ (z : Fin 8) (i : Fin 8) (l : List Int) s, z.val < 6 → l.length = 8 → (s.zone z.val).excl = 0 →
    (∀ j < 8, sampleOk (l.getD j 0) (s.zone z.val).prev[j]? (otherValid z.val 0 l j) = decide (j ≠ i.val)) →
    (s.zone z.val).crossings = (s.zone z.val).level.toNat →
    ∃ t v, exec (.sensorSample z l) s = .next t ∧ (∃ j < 8, j ≠ i.val ∧ l.getD j 0 = v) ∧
      (∀ j < 8, j ≠ i.val → l.getD j 0 ≤ v) ∧ (t.zone z.val).temp = v + 2048 ∧ bit (t.zone z.val).excl i.val = true ∧
      (∀ j, j ≠ i.val → bit (t.zone z.val).excl j = false) ∧ (t.zone z.val).hold = true ∧ (t.zone z.val).holdAt = s.mono ∧
      (t.zone z.val).eventAt = some s.mono ∧ (t.source (srcSensor z.val)).alarm = true ∧ OtherZones z.val s t ∧
      t = book t { s with thm := { s.thm with zones := t.thm.zones }, flt := t.flt }) ∧
  (∀ (z : Fin 8) (a b d : Int) s, 6 ≤ z.val → (s.zone z.val).excl = 0 →
    sampleOk a (s.zone z.val).prev[0]? [b, d] = true →
    ∃ t, exec (.sensorSample z [a, b, d]) s = .next t ∧ (t.zone z.val).temp = a ∧ (t.zone z.val).prev = [a, b, d] ∧
      fld (if z.val = 6 then t.grn.temp0 else t.grn.temp1) 0 16 = ofSigned 16 a ∧ OtherZones z.val s t ∧
      t = { s with
        thm := { s.thm with zones := t.thm.zones }, grn := { s.grn with temp0 := t.grn.temp0, temp1 := t.grn.temp1 } }) ∧
  (∀ (z i : Fin 8) s, bit (s.zone z.val).excl i.val = true →
    (z.val < 6 → (s.zone z.val).crossings = (s.zone z.val).level.toNat) →
    ∃ t, exec (.sensorReadmit z i) s = .next t ∧ bit (t.zone z.val).excl i.val = false ∧
      (∀ j, j ≠ i.val → bit (t.zone z.val).excl j = bit (s.zone z.val).excl j) ∧
      t.mono = max s.mono (Tab.get 0 (s.zone z.val).passAt i.val + 10000 * msSteps) ∧
      (t.zone z.val).level = (s.zone z.val).level ∧ OtherZones z.val s t ∧
      t = { s with
        thm := { s.thm with zones := t.thm.zones }, grn := { s.grn with temp0 := t.grn.temp0, temp1 := t.grn.temp1 }
        now := t.now, mono := t.mono }) ∧
  (∀ (z : Fin 8) s, z.val < 6 → (s.zone z.val).hold = true →
    ∃ t, exec (.exclHoldEnd z) s = .next t ∧ (t.zone z.val).hold = false ∧ LevelFollows z.val s t ∧
      t.mono = max s.mono ((s.zone z.val).holdAt + 1000 * msSteps)) ∧
  (∀ (z : Fin 8) (b : Fin 7) (up : Bool) s, z.val < 6 → bit (s.zone z.val).crossed b.val ≠ up →
    (up = true → 34560 + 320 * (b.val : Int) ≤ (s.zone z.val).temp) →
    (up = false → (s.zone z.val).temp ≤ 34560 + 320 * (b.val : Int) - 1024) →
    ∃ t, exec (.throttleBoundary z b up) s = .next t ∧ bit (t.zone z.val).crossed b.val = up ∧
      (∀ j, j ≠ b.val → bit (t.zone z.val).crossed j = bit (s.zone z.val).crossed j) ∧ LevelFollows z.val s t ∧
      t.mono = s.mono) ∧
  (∀ (z : Fin 8) s, z.val < 6 → (s.zone z.val).flaplock = true →
    (s.zone z.val).crossings = (s.zone z.val).level.toNat → (s.zone z.val).novalid = false →
    ∃ t, exec (.flaplockEnd z) s = .next t ∧ t.zone z.val = { s.zone z.val with flaplock := false } ∧
      t.mono = max s.mono ((s.zone z.val).lockAt + 1000 * msSteps) ∧ OtherZones z.val s t ∧
      t = { s with thm := { s.thm with zones := t.thm.zones }, now := t.now, mono := t.mono }) ∧
  (∀ (z : Fin 8) s, let x := s.zone z.val
    ∃ t, exec (.stepFactorTick z) s = .next t ∧
      t.mono = (if x.stepAt = 0 then s.mono else max s.mono (x.stepAt + 100 * msSteps)) ∧
      (t.zone z.val).s.toNat =
        (if inStep { s with mono := t.mono } z.val = true then
          (if 34560 ≤ x.temp then max 1 (x.s.toNat - 1) else if x.temp ≤ 33536 then min 8 (x.s.toNat + 1) else x.s.toNat)
         else min 8 (x.s.toNat + 1)) ∧
      t.zone z.val = { x with s := (t.zone z.val).s, stepAt := t.mono } ∧ OtherZones z.val s t ∧
      t = book t { s with
        thm := { s.thm with zones := t.thm.zones }, runs := t.runs, bays := t.bays, now := t.now, mono := t.mono }) ∧
  (∀ (z : Fin 8) s, (s.zone z.val).warn = false → 37120 ≤ (s.zone z.val).temp →
    ∃ t, exec (.thermalWarn z) s = .next t ∧ t.zone z.val = { s.zone z.val with warn := true, eventAt := some s.mono } ∧
      Raised (srcWarn z.val) 0 s t ∧ OtherZones z.val s t ∧
      t = { s with thm := { s.thm with zones := t.thm.zones }, flt := t.flt }) ∧
  (∀ (z : Fin 8) s, (s.zone z.val).temp ≤ 36096 →
    ∃ t, exec (.warnClear z) s = .next t ∧ t.zone z.val = { s.zone z.val with warn := false } ∧ OtherZones z.val s t ∧
      t = { s with thm := { s.thm with zones := t.thm.zones } }) ∧
  (∀ (z : Fin 8) s, 39680 ≤ (s.zone z.val).temp → s.thm.shutdown = false →
    ∃ t, exec (.thermalShutdown z) s = .next t ∧ t.thm = { s.thm with shutdown := true } ∧ t.serving = false ∧
      Raised srcShutdown 0 s t ∧ (∀ d < 32, (t.dpsOf d).st = 0 ∧ (t.dpsOf d).en = false) ∧
      (∀ m < 64, (t.mon m).en = false) ∧ (∀ k < 16, (t.awg k).eff.mode = 0) ∧
      (∀ p < 256, (t.pin p).stage = .safe ∧ bit (t.pin p).ctrl 16 = false) ∧
      t = { s with thm := t.thm, flt := t.flt, dps := t.dps, mons := t.mons, bays := t.bays, pins := t.pins }) ∧
  (∀ (j : Fin 2) (up : Bool) s, let d := fld s.grn.stat (8 + 4 * j.val) 4
    (if up = true then d < 6 else 0 < d) →
    ∃ t, exec (.derateStep j up) s = .next t ∧ fld t.grn.stat (8 + 4 * j.val) 4 = (if up = true then d + 1 else d - 1) ∧
      fld (if j.val = 0 then t.grn.temp0 else t.grn.temp1) 16 16 = usableAt (fld t.grn.stat (8 + 4 * j.val) 4) ∧
      (t.source (srcThrottle (6 + j.val))).alarm = true ∧ (t.zone (6 + j.val)).eventAt = some s.mono ∧
      (up = true → d = 5 → (t.source (srcStackHot j.val)).alarm = true) ∧
      t = book t { s with
        grn := { s.grn with stat := t.grn.stat, temp0 := t.grn.temp0, temp1 := t.grn.temp1 }, thm := t.thm, flt := t.flt
        runs := t.runs, bays := t.bays }) ∧
  (∀ (n : Fin 8) (v : Int) s, let lim := (Tab.get ({} : Diode) s.thm.diodes n.val).lim
    let out := v < toSigned 16 (fld lim 0 16) ∨ toSigned 16 (fld lim 16 16) < v
    ∃ t, exec (.tdSample n v) s = .next t ∧ (Tab.get ({} : Diode) t.thm.diodes n.val).temp = v ∧
      (Tab.get ({} : Diode) t.thm.diodes n.val).lim = lim ∧ (out → Raised (srcTd n.val) 0 s t) ∧ (¬ out → t.flt = s.flt) ∧
      (∀ j, j ≠ n.val → Tab.get ({} : Diode) t.thm.diodes j = Tab.get ({} : Diode) s.thm.diodes j) ∧
      t = { s with thm := { s.thm with diodes := t.thm.diodes }, flt := t.flt }) ∧
  (∀ s, ∃ t, exec .compensationTick s = .next t ∧ t.mono = (s.mono / msSteps + 1) * msSteps ∧
      t = { s with now := t.now, mono := t.mono })

/-- Supplies, sleep and wakes by event (R459 to R463, R466 to R468). Model's choices in it: log entries 16, 35 and 36. -/
def Obligations.SupplyAndSleepEventsHaveTheirEffect : Prop :=
  (∀ (k : Fin 16) s, bit (s.bay k.val).cfg 31 = true → bayAwake s k.val = true → maySleep s k.val = true → BayQuiet s k.val →
    ∃ t, exec (.bayAutoSleep k) s = .next t ∧ Sleeps k.val s t ∧
      t = book t { s with bays := t.bays, pins := t.pins, now := t.now, mono := t.mono }) ∧
  (∀ (k : Fin 16) s, (s.bay k.val).wake ≠ 0 → s.stamp.toNat ≤ (s.bay k.val).wake.toNat →
    ∃ t, exec (.bayWakeTime k) s = .next t ∧
      t.mono = s.mono + (s.now.toNat / 2 ^ 64 * 2 ^ 64 + ((s.bay k.val).wake.toNat - 60 * usSteps) - s.now.toNat) ∧
      t.bay k.val =
        (if bayAwake s k.val = true then { s.bay k.val with wake := 0 }
         else { s.bay k.val with wakeReq := if (s.bay k.val).wakeReq = 0 then 3 else (s.bay k.val).wakeReq }) ∧
      (∀ j, j ≠ k.val → t.bay j = s.bay j) ∧ t = { s with bays := t.bays, now := t.now, mono := t.mono }) ∧
  (∀ (k : Fin 16) s, (s.bay k.val).wakeReq ≠ 0 → bayAwake s k.val = false → wakeFits s [k.val] = true →
    (s.bay k.val).wakeKeys = [] →
    ∃ t, exec (.bayWakeGrant k) s = .next t ∧ Wakes (s.bay k.val).wakeReq.toNat k.val s t ∧
      t = book t { s with bays := t.bays, pins := t.pins, tim := t.tim, now := t.now, mono := t.mono }) ∧
  (∀ s, s.sclkOn = true → sclkUsed s = false →
    ∃ t, exec .sclkStop s = .next t ∧ t.tim.sclk = false ∧ t.mono = s.mono + 10 * usSteps ∧
      t = { s with tim := { s.tim with sclk := false }, now := t.now, mono := t.mono }) ∧
  (∀ (otherFailed otherHigher : Bool) s, let b := activeB s
    ∃ t, exec (.vinSwitchover otherFailed otherHigher) s = .next t ∧ bit t.thm.supStat b.toNat = false ∧
      bit t.thm.supStat (!b).toNat = (bit s.thm.supStat (!b).toNat && !otherFailed) ∧ (t.source (srcVin b)).alarm = true ∧
      (if otherFailed = true ∧ otherHigher = false then
        activeB t = b ∧ t.thm.switches = s.thm.switches ∧ t.mono = s.mono
       else activeB t = !b ∧ t.thm.switches = satInc s.thm.switches ∧ t.thm.switchTotal = satInc s.thm.switchTotal ∧
        (t.source srcSwitchover).alarm = true ∧ t.mono = s.mono + 5 * usSteps) ∧
      t = { s with thm := t.thm, flt := t.flt, now := t.now, mono := t.mono }) ∧
  (∀ s, ∃ t, exec .vinRevert s = .next t ∧ bit t.thm.supStat 0 = true ∧
      (if activeB s = true ∧ bit s.thm.supCfg 0 = true then
        activeB t = false ∧ t.thm.switches = satInc s.thm.switches ∧ Raised srcSwitchover 0 s t ∧ t.mono = s.mono + 5 * usSteps
       else activeB t = activeB s ∧ t.flt = s.flt ∧ t.mono = s.mono) ∧
      t = { s with thm := t.thm, flt := t.flt, now := t.now, mono := t.mono }) ∧
  (∀ (b : Bool) s, activeB s ≠ b →
    ∃ t, exec (.vinInputFail b) s = .next t ∧ bit t.thm.supStat b.toNat = false ∧ activeB t = activeB s ∧
      Raised (srcVin b) 0 s t ∧ t = { s with thm := { s.thm with supStat := t.thm.supStat }, flt := t.flt }) ∧
  (∀ s, ∃ t, exec .powerFail s = .next t ∧ t.boot = { s.boot with off := true } ∧ t.serving = false ∧
      t.mono = s.mono + 20 * usSteps ∧
      (∀ d < 32, (s.dpsOf d).isOff = false → (t.dpsOf d).st = 3 ∧ (t.dpsOf d).en = false ∧ bit (t.dpsOf d).stat 7 = true) ∧
      (∀ d, (s.dpsOf d).isOff = true → t.dpsOf d = s.dpsOf d) ∧ (∀ k < 16, (t.awg k).eff.mode = 0) ∧
      (∀ p < 256, (t.pin p).stage = .safe ∧ bit (t.pin p).ctrl 16 = false) ∧
      t = { s with boot := t.boot, dps := t.dps, bays := t.bays, pins := t.pins, now := t.now, mono := t.mono }) ∧
  (∀ s, s.peRail = false → NothingRuns s →
    ∃ t, exec .vpeLoss s = .next t ∧ t.peRail = true ∧ Raised srcPeRail 0 s t ∧
      fld t.thm.supStat 4 2 = Config.measured s.freeNo % 3 ∧
      (∀ d < 32, (s.dpsOf d).isOff = false → (t.dpsOf d).st = 3 ∧ (t.dpsOf d).en = false ∧ bit (t.dpsOf d).stat 7 = true ∧
        bit (t.dpsOf d).stat 8 = true ∧ (t.dpsOf d).tripsrc = 8) ∧
      (∀ d, (s.dpsOf d).isOff = true → t.dpsOf d = s.dpsOf d) ∧
      (∀ p < 256, (t.pin p).stage = .safe ∧ bit (t.pin p).ctrl 16 = false ∧ bit (t.pin p).stat 1 = true) ∧
      t = { s with
        thm := { s.thm with supStat := t.thm.supStat }, flt := t.flt, dps := t.dps, pins := t.pins, freeNo := s.freeNo + 1 }) ∧
  (∀ s, s.peRail = true →
    ∃ t, exec .vpeReturn s = .next t ∧ t.peRail = false ∧ fld t.thm.supStat 4 2 = 3 ∧
      (∀ p < 256, bit (t.pin p).stat 1 = false ∧ (t.pin p).tdc.stale = true ∧
        bit (t.pin p).ctrl 16 = bit (s.pin p).ctrl 16 ∧ (bit (s.pin p).ctrl 16 = false → (t.pin p).stage = .safe)) ∧
      t = { s with thm := { s.thm with supStat := t.thm.supStat }, pins := t.pins })

/-! ## Queues, intake and completions (spec/14_command_model.md) -/

/-- QUE.CREATE is admitted (R331, R333): the queue is DISABLED, its completion queue is open, space and credits are left. -/
abbrev QueCreateReady (c : Cmd) (s : State) (tg : Target) : Prop :=
  Runs 0x100 1 c tg s ∧ c.params.length = 16 ∧ c.u 0 2 ≠ 0 ∧ c.u 2 1 < 4 ∧ Blank c 5 1 ∧ (1 ≤ c.u 6 2 ∧ c.u 6 2 ≤ 256) ∧
    c.u 8 2 ≤ 510 ∧ c.u 10 2 < 128 ∧ (s.queue (c.u 0 2)).state = 0 ∧ (s.cq (c.u 3 1)).state = 1 ∧
    spaceFits s (intakeSize (c.u 6 2) (c.u 8 2)) = true ∧ creditSum s + c.u 6 2 ≤ 4096

/-- No waiting command of queue `q` is the command `c`, and none is executed again. -/
abbrev NotWaiting (c : Cmd) (q : Nat) (s : State) : Prop :=
  ∀ e ∈ waitingCmds s q, e.key ≠ c.key ∧ (s.entry? e.key).bind (·.retry) = none

/-- The waiting commands of queue `q` are over: they ended FLUSHED, before the command's own completion (R351). -/
abbrev Flushes (q : Nat) (before : List Cpl) (s t : State) : Prop :=
  (∀ e ∈ waitingCmds s q, t.work? e.key = none) ∧
    ∀ r ∈ before, r.cls = 5 ∧ r.code = BitVec.ofNat 12 Code.flushed

/-- Only queue `q` changes among the queues. -/
abbrev OtherQueues (q : Nat) (s t : State) : Prop := ∀ n, n ≠ q → t.queue n = s.queue n

/-- The QUE commands and the writes of R356 (R330 to R334, R351, R355, R365). Model's choices in it: log entries 8, 46 and 47.
-/
def Obligations.QueueCommandsHaveTheirEffect : Prop :=
  (∀ c s tg, QueCreateReady c s tg → let q := c.u 0 2
    ∃ t, exec (.queCreate c) s = .next t ∧ Answered c s t 0 (queueCtxAddr s q) [] ∧
      t.queue q =
        { state := 1, flags := BitVec.ofNat 8 (c.u 2 1), cq := BitVec.ofNat 8 (c.u 3 1), domain := BitVec.ofNat 8 (c.u 4 1)
          credits := BitVec.ofNat 16 (c.u 6 2), maxlen := BitVec.ofNat 16 (c.u 8 2), sources := BitVec.ofNat 16 (c.u 10 2)
          nextSeq := BitVec.ofNat 32 (c.u 12 4), lowSeq := BitVec.ofNat 32 (c.u 12 4), firstSeq := BitVec.ofNat 32 (c.u 12 4)
          intakeAt := (t.queue q).intakeAt } ∧
      (∃ g ∈ gaps s, g.1 ≤ (t.queue q).intakeAt ∧ (t.queue q).intakeAt + intakeSize (c.u 6 2) (c.u 8 2) ≤ g.2) ∧
      atIntake t q = [] ∧ (∀ n, n ≠ q → atIntake t n = atIntake s n) ∧ OtherQueues q s t ∧
      t = book t { s with queues := t.queues, intake := t.intake, freeNo := s.freeNo + 1 }) ∧
  (∀ c s tg, Runs 0x101 1 c tg s → c.params.length = 8 → c.u 0 2 ≠ 0 → (s.queue (c.u 0 2)).state = 1 → let q := c.u 0 2
    ∃ t, exec (.queDelete c) s = .next t ∧ Answered c s t 0 0 [] ∧
      t.queue q = (if inFlightOf t q = 0 then { s.queue q with state := 0, intakeAt := 0 } else { s.queue q with state := 3 }) ∧
      OtherQueues q s t ∧ t = book t { s with queues := t.queues }) ∧
  (∀ c s tg, Runs 0x101 1 c tg s → c.params.length = 8 → c.u 0 2 ≠ 0 → (s.queue (c.u 0 2)).state = 2 →
    NotWaiting c (c.u 0 2) s → let q := c.u 0 2
    ∃ t before, exec (.queDelete c) s = .next t ∧ AnsweredAfter before c s t 0 0 [] ∧ Flushes q before s t ∧
      (t.queue q).state = (if inFlightOf t q = 0 then 0 else 3) ∧ t = bookQ t s) ∧
  (∀ c s tg, Runs 0x102 1 c tg s → c.params.length = 8 → c.u 2 1 ≤ 2 → let q := c.u 0 2
    ∃ t, exec (.queResume c) s = .next t ∧
      ((s.queue q).state ≠ 2 → EndedWith c.key 1 Code.notHalted 0 s t ∧ t = book t s) ∧
      ((s.queue q).state = 2 → c.u 2 1 = 0 → Answered c s t 0 0 [] ∧ t.queue q = { s.queue q with state := 1 } ∧
        OtherQueues q s t ∧ t = book t { s with queues := t.queues }) ∧
      ((s.queue q).state = 2 → c.u 2 1 = 1 → ∀ e, haltEntryOf s q = some e →
        InProgress c s t ∧ ((t.entry? e.key).bind (·.retry) = some c.key) ∧ (∃ w ∈ t.works, w.key = e.key) ∧
          t = { s with works := t.works, journal := t.journal }) ∧
      ((s.queue q).state = 2 → c.u 2 1 = 2 → NotWaiting c q s →
        ∃ before, AnsweredAfter before c s t (min (waitingCmds s q).length 0xFFFF) 0 [] ∧ Flushes q before s t ∧
          (t.queue q).state = 1 ∧ t = bookQ t s)) ∧
  (∀ c s tg, Runs 0x103 1 c tg s → c.params.length = 8 → c.u 2 1 ≤ 1 → (c.u 2 1 = 1 → c.u 0 2 ≤ 255) →
    ∃ t, exec (.queStatus c) s = .next t ∧
      Answered c s t 0 (if c.u 2 1 = 0 then queueCtxAddr s (c.u 0 2) else cqCtxAddr s (c.u 0 2)) [] ∧ t = book t s) ∧
  (∀ c s tg, Runs 0x110 1 c tg s → c.params.length = 8 → c.u 0 1 ≠ 0 → c.u 2 2 / 2 ^ 10 % 32 = 0 → (∃ i < 11, c.u 4 4 = 64 * 2 ^ i) →
    (s.cq (c.u 0 1)).state ≠ 1 → spaceFits s (c.u 4 4 * 32) = true → let q := c.u 0 1
    ∃ t, exec (.queCqCreate c) s = .next t ∧ Answered c s t 0 (queueAddr s (t.cq q).ring) [] ∧
      t.cq q = { state := 1, dest := BitVec.ofNat 16 (c.u 2 2), depth := BitVec.ofNat 32 (c.u 4 4), ring := (t.cq q).ring } ∧
      (∃ g ∈ gaps s, g.1 ≤ (t.cq q).ring ∧ (t.cq q).ring + c.u 4 4 * 32 ≤ g.2) ∧
      (∀ n, n ≠ q → t.cq n = s.cq n) ∧ t = book t { s with cqs := t.cqs, freeNo := s.freeNo + 1 }) ∧
  (∀ c s tg, Runs 0x111 1 c tg s → c.params.length = 8 → c.u 0 1 ≠ 0 →
    (∀ e ∈ s.queues, e.2.state ≠ 0 → e.2.cq.toNat ≠ c.u 0 1) → let q := c.u 0 1
    ∃ t, exec (.queCqDelete c) s = .next t ∧ Answered c s t 0 0 [] ∧
      t.cq q = { s.cq q with state := 0, ring := 0, recs := [] } ∧ (∀ n, n ≠ q → t.cq n = s.cq n) ∧
      t = book t { s with cqs := t.cqs }) ∧
  (∀ a v s, WriteRuns (.que 0x00) v a noReach s →
    ∃ t u, exec (.devPortroleWrite a v) s = .next t ∧ Written a s t u ∧
      u = { s with works := u.works, role := v &&& 0x3F#32 }) ∧
  (∀ a v s, WriteRuns (.que 0x04) v a noReach s →
    ∃ t u, exec (.journalLostClear a v) s = .next t ∧ Written a s t u ∧
      u = { s with works := u.works, journalLost := s.journalLost && !bit v 31 })

/-- A packet is answered at intake and nothing of it is kept (R338): a record of this class and code goes to the arrival interface; no
command, queue or journal entry changes. -/
abbrev AnswersPacket (src : BitVec 3) (b : List Byte) (cls code detail : Nat) (s t : State) : Prop :=
  (∃ r : Cpl, r.key = pkKey b ∧ r.tag = BitVec.ofNat 16 (pkTag b) ∧ r.cls = BitVec.ofNat 4 cls ∧ r.code = BitVec.ofNat 12 code ∧
    r.detail = BitVec.ofNat 16 detail ∧
    (if src = 6 then t.spi = { s.spi with cpl := s.spi.cpl ++ [r], busy := false } else Out.answer src r ∈ t.out)) ∧
    t.queues = s.queues ∧ t.journal = s.journal ∧ t.works = s.works ∧ t.compl = s.compl

/-- The conditions of R338 steps 1 to 4 hold for an arriving packet. -/
abbrev PacketPasses (src : BitVec 3) (b : List Byte) (s : State) : Prop :=
  pkOk b = true ∧ ((s.queue (pkQid b)).state = 1 ∨ (s.queue (pkQid b)).state = 2) ∧
    bit (s.queue (pkQid b)).sources src.toNat = true ∧ pkLen b ≤ (s.queue (pkQid b)).maxlen.toNat

/-- Intake (R336 to R343): a packet that fails its CRC is counted and gone; one without a queue, a source, the length or a
credit is answered; one that passes waits. At its turn the packet in sequence is journaled and accepted, or held; one out of
sequence is answered SEQ_GAP; a duplicate is answered and never executed. Doorbells and the SPI window act likewise. Model's
choices in it: log entries 22 and 46. -/
def Obligations.IntakeHasItsEffect : Prop :=
  (∀ (src : BitVec 3) obs b s, s.takesPackets = true → src.toNat ≤ 6 → PacketPasses src b s →
    (atIntake s (pkQid b)).length < (s.queue (pkQid b)).credits.toNat →
    ∃ t, exec (.packetIntake src obs b) s = .next t ∧
      atIntake t (pkQid b) = atIntake s (pkQid b) ++ [{ src := src, obs := obs || observeSrc s src, bytes := b }] ∧
      (∀ n, n ≠ pkQid b → atIntake t n = atIntake s n) ∧ t = { s with intake := t.intake }) ∧
  (∀ (src : BitVec 3) obs b s, s.takesPackets = true → src.toNat ≤ 6 → pkOk b = false →
    ∃ t, exec (.packetIntake src obs b) s = .next t ∧ t.crcerr = satInc s.crcerr ∧ (t.source srcPktCrc).alarm = true ∧
      t.intake = s.intake ∧ t.works = s.works ∧ t.journal = s.journal ∧ t.out = s.out) ∧
  (∀ (src : BitVec 3) obs b s, s.takesPackets = true → src.toNat ≤ 6 → pkOk b = true → let q := s.queue (pkQid b)
    ∃ t, exec (.packetIntake src obs b) s = .next t ∧
      (q.state ≠ 1 → q.state ≠ 2 → AnswersPacket src b 2 Code.queueClosed 0 s t ∧ t.intake = s.intake) ∧
      ((q.state = 1 ∨ q.state = 2) → bit q.sources src.toNat = false →
        AnswersPacket src b 2 Code.source 0 s t ∧ t.intake = s.intake) ∧
      ((q.state = 1 ∨ q.state = 2) → bit q.sources src.toNat = true → q.maxlen.toNat < pkLen b →
        AnswersPacket src b 3 Code.pktLen 0 s t ∧ t.intake = s.intake) ∧
      (PacketPasses src b s → q.credits.toNat ≤ (atIntake s (pkQid b)).length →
        AnswersPacket src b 4 Code.noCredit 0 s t ∧ t.intake = s.intake)) ∧
  (∀ (n : BitVec 16) (p : Packet) l s, atIntake s n.toNat = p :: l → s.serving = true → pkQid p.bytes = n.toNat →
    ((s.queue n.toNat).state = 1 ∨ (s.queue n.toNat).state = 2) → BitVec.ofNat 32 (pkSeq p.bytes) = (s.queue n.toNat).nextSeq →
    intakeHeld p s = false → s.entry? (pkKey p.bytes) = none → s.work? (pkKey p.bytes) = none →
    ∃ t e w, exec (.intakeTurn n) s = .next t ∧ atIntake t n.toNat = l ∧ t.entry? (pkKey p.bytes) = some e ∧ e.state = 1 ∧
      e.src = p.src ∧ e.obs = p.obs ∧ e.bytes = p.bytes ∧ e.jsn = s.jsn + 1 ∧ e.accStamp = s.stamp ∧ t.jsn = s.jsn + 1 ∧
      t.work? (pkKey p.bytes) = some w ∧ w.started = false ∧ t.compl = s.compl ∧
      (t.queue n.toNat).nextSeq = (s.queue n.toNat).nextSeq + 1 ∧ (t.queue n.toNat).accepted = (s.queue n.toNat).accepted + 1 ∧
      (t.queue n.toNat).state = (s.queue n.toNat).state ∧
      (if p.src = 6 then t.spi.acc = true ∧ t.spi.busy = false ∧ t.spi.accSeq = BitVec.ofNat 32 (pkSeq p.bytes)
       else ∃ w0 w2, Out.notice p.src w0 (BitVec.ofNat 32 (pkSeq p.bytes)) w2 ∈ t.out)) ∧
  (∀ (n : BitVec 16) (p : Packet) l s, atIntake s n.toNat = p :: l → s.serving = true →
    let q := s.queue n.toNat; let d := (BitVec.ofNat 32 (pkSeq p.bytes) - q.nextSeq).toNat
    ∃ t, exec (.intakeTurn n) s = .next t ∧
      (q.state ≠ 1 → q.state ≠ 2 → AnswersPacket p.src p.bytes 2 Code.queueClosed 0 s t ∧ atIntake t n.toNat = l) ∧
      ((q.state = 1 ∨ q.state = 2) → d = 0 → intakeHeld p s = true →
        t = { s with jfull := !journalRoom s (cdiv (64 + p.bytes.length) 64 * 64) }) ∧
      ((q.state = 1 ∨ q.state = 2) → 0 < d → d < 2 ^ 31 →
        AnswersPacket p.src p.bytes 3 Code.seqGap (q.nextSeq.toNat % 65536) s t ∧ atIntake t n.toNat = l) ∧
      ((q.state = 1 ∨ q.state = 2) → 2 ^ 31 ≤ d → t.dups = satInc s.dups ∧ atIntake t n.toNat = l ∧ t.works = s.works ∧
        t.journal = s.journal ∧ t.queues = s.queues ∧ t.jsn = s.jsn ∧
        (pkQid p.bytes = n.toNat → (q.nextSeq - q.firstSeq).toNat < (q.nextSeq - BitVec.ofNat 32 (pkSeq p.bytes)).toNat →
          AnswersPacket p.src p.bytes 9 Code.staleSeq 0 s t))) ∧
  (∀ (src : BitVec 3) b s, s.serving = true → b.length = 16 → crc32c (b.take 12) = BitVec.ofNat 32 (rdLe b 12 4) →
    pkWord b 0 % 256 ≠ 0 → (s.cq (pkWord b 0 % 256)).state = 1 → (pkWord b 2).testBit 0 = false →
    let n := pkWord b 0 % 256; let h := BitVec.ofNat 32 (pkWord b 1)
    ∃ t, exec (.doorbell src b) s = .next t ∧
      t.cq n = (if (h - (s.cq n).head).toNat ≤ ((s.cq n).tail - (s.cq n).head).toNat then { s.cq n with head := h } else s.cq n) ∧
      (∀ i, i ≠ n → t.cq i = s.cq i) ∧ t = { s with cqs := t.cqs }) ∧
  (∀ b (v : Word) s, s.serving = true → let p := (padTo 4160 b).take (pkSize b)
    ∃ t, exec (.spiDbWrite b v) s = .next t ∧
      (v ≠ 1 → t = { s with spi := { s.spi with cmd := padTo 4160 b } }) ∧
      (v = 1 → s.spi.busy = true → t = { s with spi := { s.spi with cmd := padTo 4160 b, overrun := true } }) ∧
      (v = 1 → s.spi.busy = false → PacketPasses 6 p s → (atIntake s (pkQid p)).length < (s.queue (pkQid p)).credits.toNat →
        atIntake t (pkQid p) = atIntake s (pkQid p) ++ [{ src := 6, obs := false, bytes := p }] ∧
          t = { s with intake := t.intake, spi := { s.spi with cmd := padTo 4160 b, busy := true, acc := false } })) ∧
  (∀ s, ∃ t, exec .spiCplRead s = .next t ∧ t = { s with spi := { s.spi with cpl := s.spi.cpl.drop 1 } })

/-- An accepted command may start (R347, R348): it waits in the journal, its ordering rules hold and no link before it broke. -/
abbrev StartReady (k : Key) (e : JEntry) (s : State) : Prop :=
  s.entry? k = some e ∧ pkKey e.bytes = k ∧ e.state = 1 ∧ s.serving = true ∧ orderOk s e = true ∧ linkBroken s e = none ∧
    (∃ w, s.work? k = some w) ∧ e.retry = none

/-- The command of a journal entry that the class tables name, with a target (R327, R328, R357). -/
abbrev KnownCommand (e : JEntry) (op : Nat) (tg : Target) : Prop :=
  pkOp e.bytes = op ∧ op ∈ allOpcodes ∧ pkRsv e.bytes = false ∧ e.cmd.target = some tg

/-- Starts and completions (R335, R342, R345, R347 to R349, R357, R466, R473). A command whose rules hold starts; one aimed at a
sleeping bay asks for its wake and waits; one of an unknown opcode or with the reserved flag ends OPCODE; one whose link broke
ends LINK_BROKEN. A completion that may be posted is posted into its ring. Model's choices in it: log entries 15 and 20. -/
def Obligations.CommandsStartAndArePosted : Prop :=
  (∀ (q : BitVec 16) (n : BitVec 32) e op tg s, let k : Key := { qid := q, seq := n }
    StartReady k e s → KnownCommand e op tg → (∀ b ∈ aimedBays s op e.cmd, bayAwake s b = true) →
    seqFits s (newSeq op (aimedBays s op e.cmd).eraseDups) = true →
    ∃ t w, exec (.commandStart q n) s = .next t ∧ t.entry? k = some { e with state := 2 } ∧ t.work? k = some w ∧
      w.started = true ∧ t.compl = s.compl ∧ t = book t s) ∧
  (∀ (q : BitVec 16) (n : BitVec 32) e op tg s, let k : Key := { qid := q, seq := n }
    StartReady k e s → KnownCommand e op tg → (∃ b ∈ aimedBays s op e.cmd, bayAwake s b = false) →
    ∃ t, exec (.commandStart q n) s = .next t ∧ t.entry? k = some e ∧
      (∀ b ∈ aimedBays s op e.cmd, bayAwake s b = false → (t.bay b).wakeReq ≠ 0) ∧
      (∀ b, b ∉ aimedBays s op e.cmd → t.bay b = s.bay b) ∧ t = { s with bays := t.bays, works := t.works }) ∧
  (∀ (q : BitVec 16) (n : BitVec 32) e s, let k : Key := { qid := q, seq := n }
    StartReady k e s → (pkRsv e.bytes = true ∨ pkOp e.bytes ∉ allOpcodes) →
    ∃ t, exec (.commandStart q n) s = .next t ∧ EndedWith k 3 Code.opcode 0 s t ∧ t = book t s) ∧
  (∀ (q : BitVec 16) (n : BitVec 32) e x s, let k : Key := { qid := q, seq := n }
    s.entry? k = some e → e.state = 1 → e.retry = none → s.serving = true → orderOk s e = true → linkBroken s e = some x →
    (∃ w, s.work? k = some w) →
    ∃ t, exec (.commandStart q n) s = .next t ∧ EndedWith k 6 Code.linkBroken (x.key.seq.toNat % 65536) s t ∧ t = book t s) ∧
  (∀ (a b : List Cpl) (r : Cpl) s, s.compl = a ++ r :: b → (∀ x ∈ a, postable s x = false) → postable s r = true →
    s.serving = true → let n := r.key.qid.toNat; let m := (s.queue n).cq.toNat
    ∃ t, exec .completionPost s = .next t ∧ t.compl = a ++ b ∧ (t.queue n).posted = (s.queue n).posted + 1 ∧
      (∀ e, s.entry? r.key = some e → (t.entry? r.key).map (·.state) = some 4) ∧
      (m ≠ 0 → (t.cq m).tail = (s.cq m).tail + 1 ∧
        Tab.find (t.cq m).recs ((s.cq m).tail.toNat % max (s.cq m).depth.toNat 1) = some r.bytes) ∧
      t.works = s.works ∧ t.pins = s.pins ∧ t.runs = s.runs ∧ t.engines = s.engines ∧ t.mono = s.mono)

/-! ## The device's own commands (spec/15_command_catalogue.md, spec/20_startup_and_reset.md) -/

/-- DEV.INFO and the register accesses (R13, R14, R364). A read answers what the register reads as; a write of a register that
is read-only completes and changes nothing. Model's choices in it: log entries 3, 13 and 56. -/
def Obligations.DeviceAndRegisterCommandsHaveTheirEffect : Prop :=
  (∀ c s tg, Runs 0x000 1 c tg s → c.params.length = 0 →
    ∃ t, exec (.devInfo c) s = .next t ∧
      Answered c s t 0 (Config.siliconRevision.toNat * 65536 + s.devid.toNat * 16 + (if s.part16 = true then 2 else 1) +
        2 ^ 32 * s.boot.fwAct.toNat) [] ∧ t = book t s) ∧
  (∀ c zone n s tg, Runs 0x001 29 c tg s → c.params.length = 8 → regAt (c.u 0 4) = some n → regScope s tg n = none →
    ∃ t W, exec (.devRegRead c zone) s = .next t ∧
      let r := readReg zone n { s with works := W }
      Answered c s t 0 r.1.toNat [] ∧ t = book t r.2) ∧
  (∀ c zone p s tg, Runs 0x001 29 c tg s → c.params.length = 8 → tg.hasPin s p = true →
    (regAt (c.u 0 4) = some (.pin p 0x00) →
      ∃ t, exec (.devRegRead c zone) s = .next t ∧ Answered c s t 0 (s.pin p).lvl01.toNat [] ∧ t = book t s) ∧
    (regAt (c.u 0 4) = some (.pin p 0x24) →
      ∃ t, exec (.devRegRead c zone) s = .next t ∧ Answered c s t 0 (setFld (s.pin p).stat 9 2 zone.toNat).toNat [] ∧ t = book t s) ∧
    (regAt (c.u 0 4) = some (.pin p 0x28) →
      ∃ t, exec (.devRegRead c zone) s = .next t ∧ Answered c s t 0 (s.pin p).tavcnt.toNat [] ∧
        t.pin p = { s.pin p with tavcnt := 0 } ∧ (∀ i, i ≠ p → t.pin i = s.pin i) ∧ t = book t { s with pins := t.pins })) ∧
  (∀ c n s tg, Runs 0x002 29 c tg s → c.params.length = 8 → regAt (c.u 0 4) = some n →
    (∃ off, n = .obs off ∨ n = .boot off ∨ n = .fabric off) →
    ∃ t, exec (.devRegWrite c) s = .next t ∧ Answered c s t 0 0 [] ∧ t = book t s) ∧
  (∀ c i s tg, Runs 0x002 29 c tg s → c.params.length = 8 → regAt (c.u 0 4) = some (.route i) → c.u 4 4 % 8 ≠ 6 →
    c.u 4 4 / 8 % 8 ≠ 6 →
    ∃ t, exec (.devRegWrite c) s = .next t ∧ Answered c s t 0 0 [] ∧ Tab.find t.routes i = some (BitVec.ofNat 32 (c.u 4 4 % 64)) ∧
      (∀ j, j ≠ i → Tab.find t.routes j = Tab.find s.routes j) ∧ t = book t { s with routes := t.routes }) ∧
  (∀ c k s tg, Runs 0x002 29 c tg s → c.params.length = 8 → regAt (c.u 0 4) = some (.bay k 0x0) → c.u 4 4 % 65536 ≠ 0 →
    ∃ t, exec (.devRegWrite c) s = .next t ∧ Answered c s t 0 0 [] ∧
      t.bay k = { s.bay k with cfg := BitVec.ofNat 32 (c.u 4 4) &&& 0xC000FFFF#32 } ∧ (∀ j, j ≠ k → t.bay j = s.bay j) ∧
      t = book t { s with bays := t.bays })

/-- The image that DEV.FW_STAGE names is staged: COUNT READY slots within reach that meet no uncorrectable unit. -/
abbrev FwStageReady (c : Cmd) (s : State) (tg : Target) : Prop :=
  Runs 0x020 1 c tg s ∧ c.params.length = 8 ∧ (1 ≤ c.u 4 4 ∧ c.u 4 4 ≤ 16) ∧
    (∀ i < c.u 4 4, segSlot s (c.u 0 4 + i) 0 = none ∧ ∀ r ∈ readySlot s (c.u 0 4 + i), r = none) ∧
    s.boot.stbyFailed = false ∧ s.boot.switching = false ∧ readUe s (c.u 0 4 * slotSize) (c.u 4 4 * slotSize) = none

/-- The engine is as a reset leaves it (R149, R490): SR, LC and timer clear; IDLE, or STOPPED as before. -/
abbrev EngineReset (e : Nat) (s t : State) : Prop :=
  (t.eng e).sr = [] ∧ (t.eng e).lc = [] ∧ (t.eng e).timerEnd = 0 ∧ (t.eng e).latched = 0 ∧
    (t.eng e).state = (if (s.eng e).state = 3 then 3 else 0)

/-- Resets by command and firmware (R364, R483, R490 to R495): shown where no other command is in progress that the reset ends.
Model's choices in it: log entries 5, 16, 31 and 54. -/
def Obligations.ResetAndFirmwareCommandsHaveTheirEffect : Prop :=
  (∀ c s tg, Runs 0x010 8 c tg s → c.params.length = 0 → NothingRuns s → let n := tg.engNo
    ∃ t, exec (.devResetSlice c) s = .next t ∧ Answered c s t 0 0 [] ∧
      (∀ p ∈ slicePins n, (t.pin p).stage = .safe ∧ bit (t.pin p).ctrl 16 = false ∧ (t.pin p).tdc.fifo = []) ∧
      (∀ p, p ∉ slicePins n → t.pin p = s.pin p) ∧ EngineReset n s t ∧ (∀ i, i ≠ n → t.eng i = s.eng i) ∧
      t = book t { s with pins := t.pins, engines := t.engines }) ∧
  (∀ c s tg, Runs 0x011 4 c tg s → c.params.length = 0 → NothingRuns s → let k := tg.bayNo
    ∃ t, exec (.devResetBay c) s = .next t ∧ Answered c s t 0 0 [] ∧
      (∀ p, p / 16 = k → (t.pin p).stage = .safe ∧ bit (t.pin p).ctrl 16 = false ∧ (t.pin p).tdc.fifo = []) ∧
      (∀ p, p / 16 ≠ k → t.pin p = s.pin p) ∧ (∀ e ∈ baySlices k ++ [128 + k], EngineReset e s t) ∧
      (∀ e, e ∉ baySlices k ++ [128 + k] → t.eng e = s.eng e) ∧
      (∀ d, d / 2 = k → (t.dpsOf d).isOff = true) ∧ (∀ d, d / 2 ≠ k → t.dpsOf d = s.dpsOf d) ∧
      (∀ m, m / 4 = k → (t.mon m).en = false) ∧ (∀ m, m / 4 ≠ k → t.mon m = s.mon m) ∧ (t.awg k).eff.mode = 0 ∧
      bit (t.trg k).ctrl 31 = false ∧ (∀ j, j ≠ k → t.bay j = s.bay j) ∧
      t = book t { s with pins := t.pins, engines := t.engines, dps := t.dps, mons := t.mons, bays := t.bays }) ∧
  (∀ c s tg, Runs 0x012 1 c tg s → c.params.length = 0 →
    ∃ t, exec (.devResetWarm c) s = .next t ∧ Answered c s t 0 0 [] ∧ t.serving = false ∧
      t = book t { s with boot := { s.boot with warmBusy := true, warmCause := 3 } }) ∧
  (∀ c s tg, FwStageReady c s tg → let b := grnLoad (c.u 0 4 * slotSize) (c.u 4 4 * slotSize) s
    ∃ t, exec (.devFwStage c) s = .next t ∧
      (if fwGood (c.u 4 4 * slotSize) b = true then
        Answered c s t 0 (rdLe b 4 4) [] ∧ t.boot.fwStby = BitVec.ofNat 32 (rdLe b 4 4) ∧ t.boot.stbyImg = true ∧
          t.boot.recovery = false ∧
          t.boot.fwAct = (if s.boot.recovery = true then BitVec.ofNat 32 (rdLe b 4 4) else s.boot.fwAct) ∧
          t = book t { s with boot := t.boot }
       else EndedWith c.key 3 Code.fwSignature 0 s t ∧ t = book t s)) ∧
  (∀ c s tg, Runs 0x021 1 c tg s → c.params.length = 0 → s.boot.stbyImg = true → s.boot.stbyFailed = false →
    s.boot.switching = false →
    ∃ t, exec (.devFwSwitch c) s = .next t ∧ InProgress c s t ∧ t.mono = s.mono + 2 * msSteps ∧
      t.boot = { s.boot with
        active := !s.boot.active, fwAct := s.boot.fwStby, fwStby := s.boot.fwAct, switching := true, switchKey := some c.key } ∧
      t = { s with boot := t.boot, works := t.works, now := t.now, mono := t.mono })

/-! ## The Granary (spec/04_granary.md) -/

/-- GRN.READ is admitted and meets no uncorrectable unit (R94, R366). -/
abbrev GrnReadReady (c : Cmd) (s : State) (tg : Target) : Prop :=
  Runs 0x200 1 c tg s ∧ c.params.length = 16 ∧ c.u 0 8 < grnSize s ∧ c.u 8 4 % 8 = 0 ∧ 8 ≤ c.u 8 4 ∧ c.u 8 4 ≤ 4080 ∧
    c.u 0 8 + c.u 8 4 ≤ grnSize s ∧ slotFenceCheck s (c.u 0 8 / slotSize) = none ∧
    slotFenceCheck s ((c.u 0 8 + c.u 8 4 - 1) / slotSize) = none ∧
    ∀ u ∈ s.grn.ues, u < c.u 0 8 / 32 ∨ (c.u 0 8 + c.u 8 4 - 1) / 32 < u

/-- GRN.WRITE is admitted (R94, R95, R97): whole 8-byte units within one pattern slot that is not ACTIVE. -/
abbrev GrnWriteReady (c : Cmd) (s : State) (tg : Target) : Prop :=
  Runs 0x201 1 c tg s ∧ 16 ≤ c.params.length ∧ c.params.length % 8 = 0 ∧ c.u 0 8 % 8 = 0 ∧ c.u 0 8 < grnSize s ∧
    regionOf s (c.u 0 8 / slotSize) = .pattern ∧ c.u 0 8 % slotSize + (c.params.length - 8) ≤ slotSize ∧
    slotFenceCheck s (c.u 0 8 / slotSize) = none ∧ segState s (c.u 0 8 / slotSize) ≠ 3

/-- A segment command names a pattern slot of a stack that is not fenced (R96, R366). -/
abbrev NamesSegment (c : Cmd) (s : State) : Prop :=
  segSlot s (c.u 0 4) (c.u 0 4 % 65536) = none ∧ slotFenceCheck s (c.u 0 4) = none

/-- Only slot `n` changes among the slots. -/
abbrev OtherSlots (n : Nat) (s t : State) : Prop := ∀ i, i ≠ n → t.slot i = s.slot i

/-- The GRN commands (R94 to R99, R104, R114, R366). A commit that has fallen due is taken first (R99): `u` is the state after
it. Model's choices in it: log entries 6, 44 and 45. -/
def Obligations.GranaryCommandsHaveTheirEffect : Prop :=
  (∀ c s tg, GrnReadReady c s tg →
    ∃ t data, exec (.grnRead c) s = .next t ∧ Answered c s t 0 0 data ∧ data.length = c.u 8 4 ∧
      (∀ i < c.u 8 4, data.getD i 0 = grnByte s s.freeNo (c.u 0 8 + i)) ∧
      (∀ i < c.u 8 4, regionOf s ((c.u 0 8 + i) / slotSize) = .pattern → data.getD i 0 = memRead s.grn.mem (c.u 0 8 + i)) ∧
      t = book t { s with freeNo := s.freeNo + 1 }) ∧
  (∀ c s tg, let u := takeCommits s; let slot := c.u 0 8 / slotSize
    GrnWriteReady c u tg →
    ∃ t, exec (.grnWrite c) s = .next t ∧ Answered c u t 0 0 [] ∧ Stored (c.u 0 8) (c.params.drop 8) u t ∧
      t.slot slot = { u.slot slot with st := 1 } ∧ OtherSlots slot u t ∧
      t.grn.seals = u.grn.seals.map (fun x => if x.slot = slot then { x with spoilt := true } else x) ∧
      t = book t { u with grn := { u.grn with mem := t.grn.mem, slots := t.grn.slots, seals := t.grn.seals, ues := t.grn.ues } }) ∧
  (∀ c s tg, let u := takeCommits s
    Runs 0x202 1 c tg u → c.params.length = 16 → NamesSegment c u → c.u 4 4 % 8 = 0 → 8 ≤ c.u 4 4 → c.u 4 4 ≤ slotSize →
    (segState u (c.u 0 4) = 1 ∨ segState u (c.u 0 4) = 2) →
    ∃ t, exec (.grnSeal c) s = .next t ∧
      (if segState u (c.u 0 4) = 2 then Answered c u t 0 0 [] ∧ t = book t u
       else InProgress c u t ∧
        t = { u with
          works := t.works
          grn := { u.grn with
            seals := u.grn.seals ++ [{ slot := c.u 0 4, len := c.u 4 4, crc := BitVec.ofNat 32 (c.u 8 4), key := c.key }] } })) ∧
  (∀ (n : BitVec 16) (a b : List Seal) (x : Seal) (c : Cmd) s, s.grn.seals = a ++ x :: b → (∀ y ∈ a, y.slot ≠ n.toNat) →
    x.slot = n.toNat → x.key = c.key → (∃ w, s.work? c.key = some w) → (s.entry? c.key).bind (·.retry) = none →
    ∃ t, exec (.sealCheckDone n) s = .next t ∧ t.grn.seals = a ++ b ∧ OtherSlots n.toNat s t ∧
      (if x.spoilt = false ∧ crc32c (memReads s.grn.mem (n.toNat * slotSize) x.len) = x.crc then
        Answered c s t 0 0 [] ∧ t.slot n.toNat = { st := 2, len := x.len }
       else EndedWith c.key 3 Code.segCrc 0 s t ∧ t.slot n.toNat = s.slot n.toNat) ∧
      t = book t { s with grn := { s.grn with seals := t.grn.seals, slots := t.grn.slots } }) ∧
  (∀ c s tg, let u := takeCommits s
    Runs 0x203 1 c tg u → c.params.length = 8 → NamesSegment c u → segState u (c.u 0 4) ≤ 2 →
    ∃ t, exec (.grnRelease c) s = .next t ∧ t.slot (c.u 0 4) = {} ∧ OtherSlots (c.u 0 4) u t ∧
      t.grn.seals = u.grn.seals.filter (fun x => x.slot != c.u 0 4) ∧
      ((∀ x ∈ u.grn.seals, x.slot ≠ c.u 0 4) → Answered c u t 0 0 [] ∧
        t = book t { u with grn := { u.grn with slots := t.grn.slots, seals := t.grn.seals } }) ∧
      ∀ x, u.grn.seals.filter (fun x => x.slot == c.u 0 4) = [x] → x.key ≠ c.key → (∃ w, u.work? x.key = some w) →
        (u.entry? x.key).bind (·.retry) = none →
        t.work? x.key = none ∧ ∃ r r' : Cpl, t.compl = u.compl ++ [r, r'] ∧ r.key = c.key ∧ r.cls.toNat ≤ 1 ∧ r'.key = x.key ∧
          r'.cls = 2 ∧ r'.code = BitVec.ofNat 12 Code.segState ∧ r'.detail = 0) ∧
  (∀ c s tg, Runs 0x204 1 c tg s → c.params.length = 8 → 1 ≤ c.u 4 4 → c.u 4 4 ≤ 127 → c.u 0 4 < 2 * slotsPerStack s →
    ∃ t n data, exec (.grnSegStatus c) s = .next t ∧ Answered c s t 0 n data ∧ 1 ≤ n ∧ n ≤ c.u 4 4 ∧ data.length ≤ 4080 ∧
      data.take 32 = (slotRecord s (c.u 0 4)).take 32 ∧ rdLe data 0 4 = c.u 0 4 ∧
      rdLe data 4 1 = (if regionOf s (c.u 0 4) = .pattern then segState s (c.u 0 4) else 0) ∧
      rdLe data 5 1 = stackOf s (c.u 0 4) ∧ t = book t s) ∧
  (∀ c s tg, Runs 0x205 1 c tg s → c.params.length = 8 → slotFenceCheck s (c.u 0 4) = none →
    (∃ b ∈ s.grn.caps, b.first = c.u 0 4) → (∀ b ∈ s.grn.caps, b.first = c.u 0 4 → b.busy = false) →
    ∃ t, exec (.grnCapFree c) s = .next t ∧ Answered c s t 0 0 [] ∧
      t = book t { s with grn := { s.grn with caps := s.grn.caps.filter (fun b => b.first != c.u 0 4) } }) ∧
  (∀ c trainOk s tg, Runs 0x206 1 c tg s → c.params.length = 8 → c.u 0 1 ≤ 1 → stackFenced s (c.u 0 1) = true → let j := c.u 0 1
    ∃ t, exec (.grnStackRejoin c trainOk) s = .next t ∧
      (if trainOk = true then
        Answered c s t 0 0 [] ∧ fld t.grn.stat (2 * j) 2 = 3 ∧ bit t.grn.stat 18 = true ∧
          (∀ i, i ≠ 18 → i / 2 ≠ j → bit t.grn.stat i = bit s.grn.stat i) ∧
          (∀ n, t.slot n = if stackOf s n = j then {} else s.slot n) ∧
          t = book t { s with grn := { s.grn with stat := t.grn.stat, slots := t.grn.slots, ues := t.grn.ues } }
       else EndedWith c.key 8 0 j s t ∧ t = book t s))

/-- A write of GRN_RGN of stack `j` is admitted (R92, R116): the regions fit, no slot in use changes region, no queue is open where the
queue region changes, and the rings keep their place. -/
abbrev GrnRgnWriteReady (j : Nat) (v : Word) (s : State) : Prop :=
  let t := rgnAfter j v s
  8 ≤ fld v 0 11 ∧ fld v 0 11 ≤ 1024 ∧ captureSlots t 0 + queueSlots t ≤ configurable t 0 ∧
    captureSlots t 1 + queueSlots t ≤ configurable t 1 ∧ movedSlot s t = none ∧
    (fld v 0 11 = queueSlots s ∨ ∀ e ∈ s.queues, e.1 = 0 ∨ e.2.state = 0) ∧
    ∀ e ∈ s.cqs, (s.cq e.1).ring = 0 ∨ (s.cq e.1).ring + (s.cq e.1).space ≤ regionSize t

/-- The Granary's register write and its own events (R92, R108 to R110, R112 to R114). Model's choices in it: log entries 44 and
45. -/
def Obligations.GranaryEventsHaveTheirEffect : Prop :=
  (∀ a (j : Fin 2) v s, WriteRuns (.grn (0x10 + 4 * j.val)) v a (fun _ _ => false) s → GrnRgnWriteReady j.val v s →
    ∃ t u, exec (.grnRgnWrite a j v) s = .next t ∧ Written a s t u ∧ fld u.grn.rgn0 0 11 = fld v 0 11 ∧
      fld u.grn.rgn1 0 11 = fld v 0 11 ∧ fld (if j.val = 0 then u.grn.rgn0 else u.grn.rgn1) 16 14 = fld v 16 14 ∧
      fld (if j.val = 0 then u.grn.rgn1 else u.grn.rgn0) 16 14 = fld (if j.val = 0 then s.grn.rgn1 else s.grn.rgn0) 16 14 ∧
      u = { s with works := u.works, grn := { s.grn with rgn0 := u.grn.rgn0, rgn1 := u.grn.rgn1 } }) ∧
  (∀ (late : Bool) s, ∃ t, exec (.scrubPass [] late) s = .next t ∧ bit t.grn.scrub 16 = late ∧
      (∀ i, i ≠ 16 → bit t.grn.scrub i = bit s.grn.scrub i) ∧ (∀ u, u ∈ t.grn.ues ↔ u ∈ s.grn.ues) ∧
      t = { s with grn := { s.grn with scrub := t.grn.scrub, ues := t.grn.ues } }) ∧
  (∀ (e : MemErr) (late : Bool) s, let j := unitStack s e.unit
    ∃ t, exec (.scrubPass [e] late) s = .next t ∧ bit t.grn.scrub 16 = late ∧
      (e.fatal = false → (if j = 0 then t.grn.ce0 = satInc s.grn.ce0 else t.grn.ce1 = satInc s.grn.ce1) ∧
        Raised (srcCe j) 0 s t) ∧
      (e.fatal = true → (if j = 0 then t.grn.ue0 = satInc s.grn.ue0 else t.grn.ue1 = satInc s.grn.ue1) ∧
        (t.source (srcUe j)).alarm = true ∧ (mirrorUnit s e.unit = none → e.unit ∈ t.grn.ues ∧ Raised (srcUe j) 0 s t)) ∧
      t.grn.mem = s.grn.mem ∧ t.grn.slots = s.grn.slots ∧ t = { s with grn := t.grn, flt := t.flt }) ∧
  (∀ (j : Fin 2) s, Memory.wf s.grn.mem = true → fld s.grn.stat (2 * j.val) 2 = 3 →
    let src := masterBase s (1 - j.val); let dst := masterBase s j.val
    ∃ t, exec (.stackRejoinCopyDone j) s = .next t ∧ fld t.grn.stat (2 * j.val) 2 = 0 ∧ bit t.grn.stat 18 = false ∧
      bit t.grn.stat 17 = decide (fld s.grn.stat (2 * (1 - j.val)) 2 ≠ 0) ∧
      (∀ i < 32 * slotSize, memRead t.grn.mem (dst + i) = memRead s.grn.mem (src + i)) ∧
      (∀ a, a < dst ∨ dst + 32 * slotSize ≤ a → memRead t.grn.mem a = memRead s.grn.mem a) ∧
      t = { s with grn := { s.grn with mem := t.grn.mem, stat := t.grn.stat } }) ∧
  (∀ (j : Fin 2) s, stackFenced s j.val = false → NothingRuns s → s.grn.seals = [] →
    ∃ t, exec (.stackFence j) s = .next t ∧ fld t.grn.stat (2 * j.val) 2 = 2 ∧ bit t.grn.stat 17 = true ∧
      bit t.grn.stat 18 = false ∧ (t.source (srcStackFenced j.val)).alarm = true ∧
      (∀ n, t.slot n = if n / slotsPerStack s = j.val then {} else s.slot n) ∧
      t.grn.caps = s.grn.caps.filter (fun b => b.first / slotsPerStack s != j.val) ∧
      (if j.val = 0 then t.grn.rsv0 else t.grn.rsv1) = 0 ∧ t.grn.mem = s.grn.mem ∧ (∀ e, t.eng e = s.eng e) ∧
      (if j.val = 0 ∧ bit s.grn.stat 19 = false then
        bit t.grn.stat 19 = true ∧ t.flt.unread = 0 ∧ t.flt.head = 0 ∧ t.flt.tail = 0 ∧
          t.flt.size = 32768 * t.grn.spillOut.length ∧ fld t.grn.stat 20 6 = t.grn.spillOut.length ∧
          t.grn.spillOut.length ≤ 32 ∧ t.flt.lost = satAdd s.flt.lost s.flt.unread
       else t.grn.spillOut = s.grn.spillOut ∧ t.flt.size = s.flt.size ∧ t.flt.lost = s.flt.lost) ∧
      t = { s with grn := t.grn, flt := t.flt, engines := t.engines })

/-! ## Streams (spec/05_streams_and_sheaves.md, spec/09_winnow.md) -/

/-- STR.SITE is admitted (R19, R127, R128, R361): a well-formed map of free resources within units that serve; the site is in no run. -/
abbrev StrSiteReady (c : Cmd) (s : State) (tg : Target) : Prop :=
  Runs 0x300 16 c tg s ∧ c.params.length = 280 ∧ (∀ r ∈ siteMapChecks c, r = none) ∧
    (∀ r ∈ siteFree s c.index.toNat (siteOfMap c), r = none) ∧
    fenceCheck s ((siteOfMap c).home :: (siteOfMap c).pinNos.map (· / 2)) (siteOfMap c).bayNos = none ∧
    runOfSite s c.index.toNat = none

/-- STR.START is admitted (R137): its parameters are well formed and its checks hold. -/
abbrev StrStartReady (c : Cmd) (s : State) (tg : Target) : Prop :=
  Runs 0x303 2 c tg s ∧ c.params.length = 32 ∧ Blank c 4 4 ∧ bufField c 8 1 1024 = none ∧ Blank c 26 6 ∧
    startCheck s (startReqOf c tg.sheafNo) = none

/-- The run `r` of a start `q` is admitted (R137, R143): its listing and the segment of position 0 are ACTIVE. -/
abbrev Admits (q : StartReq) (r : Run) (s t : State) : Prop :=
  t.run? q.sheaf = some r ∧ r.key = q.key ∧ r.phase = 1 ∧ r.listing = q.listing ∧ r.first = q.first ∧ r.count = q.count ∧
    r.members = s.members q.sheaf ∧ (q.time ≠ 0 → r.startAt = s.monoOf q.time) ∧ (t.slot r.listing).st = 3 ∧
    (0 < r.poss.length → (t.slot (posAt r.poss 0).slot).st = 3) ∧ (q.count ≠ 0 → ∃ b ∈ t.grn.caps, b.first = q.first ∧ b.busy = true) ∧
    (∀ h, h ≠ q.sheaf → t.run? h = s.run? h) ∧
    t = book t { s with
      runs := t.runs, starts := t.starts, grn := t.grn, slices := t.slices, bays := t.bays, pins := t.pins, tim := t.tim }

/-- The STR commands on maps and Sheaves (R127 to R130, R367). Model's choices in it: log entry 18. -/
def Obligations.SiteAndSheafCommandsHaveTheirEffect : Prop :=
  (∀ c s tg, StrSiteReady c s tg →
    ∃ t, exec (.strSite c) s = .next t ∧ Answered c s t 0 0 [] ∧ t.site? c.index.toNat = some (siteOfMap c) ∧
      (siteOfMap c).home = c.u 1 1 ∧ (siteOfMap c).pins.length = c.u 2 1 ∧
      (∀ j < c.u 2 1, ((siteOfMap c).pins.getD j {}).pin = c.u (0x18 + 4 * j) 1 ∧
        ((siteOfMap c).pins.getD j {}).col = c.u (0x19 + 4 * j) 1 % 64) ∧
      (siteOfMap c).dps = (List.range (c.u 3 1)).map (fun j => c.u (8 + j) 1) ∧
      (∀ x, x ≠ c.index.toNat → t.site? x = s.site? x) ∧ t = book t { s with sites := t.sites }) ∧
  (∀ c s tg, Runs 0x301 16 c tg s → c.params.length = 0 → runOfSite s c.index.toNat = none →
    ∃ t, exec (.strSiteRelease c) s = .next t ∧ Answered c s t 0 0 [] ∧ t.site? c.index.toNat = none ∧
      (∀ x, x ≠ c.index.toNat → t.site? x = s.site? x) ∧ t = book t { s with sites := t.sites }) ∧
  (∀ c s tg, Runs 0x302 2 c tg s → c.params.length = 16 → (∀ x < 128, (c.u 0 16).testBit x = true → (s.site? x).isSome = true) →
    s.run? tg.sheafNo = none →
    ∃ t, exec (.strSheaf c) s = .next t ∧ Answered c s t 0 0 [] ∧
      Tab.find t.sheaves tg.sheafNo = (if c.u 0 16 = 0 then none else some (BitVec.ofNat 128 (c.u 0 16))) ∧
      (∀ h, h ≠ tg.sheafNo → Tab.find t.sheaves h = Tab.find s.sheaves h) ∧ t = book t { s with sheaves := t.sheaves })

/-- The STR commands on runs (R137 to R146, R367, R473): a start is admitted, or waits for its grant; a stop of a running Sheaf
or site ends its sites at their next vector boundary; a jump request stands until its commit point; STATUS gives the progress. A
commit that has fallen due is taken before a jump request (R139): `u` is the state after it. Model's choices in it: log entry
41. -/
def Obligations.StreamCommandsHaveTheirEffect : Prop :=
  (∀ c s tg, StrStartReady c s tg → let q := startReqOf c tg.sheafNo
    ∃ t, exec (.strStart c) s = .next t ∧
      (if startGranted s q = true then InProgress c s t ∧ t.starts = s.starts ∧ ∃ r, Admits q r s t
       else t.starts = s.starts ++ [q] ∧ t.compl = s.compl ∧ (∃ w, t.work? c.key = some w ∧ w.started = false ∧ w.th = true) ∧
        t = { s with works := t.works, starts := t.starts })) ∧
  (∀ c h x r s tg, Runs 0x304 18 c tg s → c.params.length = 0 → stopTarget s tg = some (h, x) → s.run? h = some r → r.phase = 2 →
    (∀ z, x = some z → (r.site z).live = true) →
    ∃ t r', exec (.strStop c) s = .next t ∧ InProgress c s t ∧ t.run? h = some r' ∧
      r'.stopKeys = r.stopKeys ++ [(x, c.key)] ∧ r'.stopped = (r.stopped || x.isNone) ∧
      (∀ y, (match x with
        | none => y ∈ r.live
        | some z => y = z) → (r'.site y).ending = (r.site y).ending.or (some (3, 0, 0xFF))) ∧
      (∀ y, (r'.site y).live = (r.site y).live ∧ (r'.site y).idx = (r.site y).idx) ∧
      (∀ g, g ≠ h → t.run? g = s.run? g) ∧ t = { s with works := t.works, runs := t.runs }) ∧
  (∀ c r s tg, let u := takeCommits s
    Runs 0x305 2 c tg u → c.params.length = 8 → u.run? tg.sheafNo = some r → r.admitted = true → r.jumpPending = false →
    c.u 0 4 < r.poss.length → (posAt r.poss (c.u 0 4)).jtgt = true →
    ∃ t, exec (.strJump c) s = .next t ∧ InProgress c u t ∧
      t.run? tg.sheafNo = some { r with
        jump := some { key := some c.key, target := c.u 0 4, cycle := u.now.toNat / eclkSteps
                       onTime := r.sel.isNone && r.com.isNone } } ∧
      (∀ g, g ≠ tg.sheafNo → t.run? g = u.run? g) ∧ t = { u with works := t.works, runs := t.runs }) ∧
  (∀ c h s, Runs 0x306 18 c (.sheaf h) s → c.params.length = 0 →
    ∃ t, exec (.strStatus c) s = .next t ∧
      (match (s.run? h).filter (·.admitted) with
       | some r => Answered c s t 1 r.front []
       | none => Answered c s t 0 0 []) ∧ t = book t s) ∧
  (∀ c x s, Runs 0x306 18 c (.site x) s → c.params.length = 0 →
    ∃ t, exec (.strStatus c) s = .next t ∧
      (match (runOfSite s x).filter (·.2.admitted) with
       | some e => Answered c s t 1 (e.2.site x).idx []
       | none => Answered c s t 0 0 []) ∧ t = book t s)

/-- Site `x` is about to play an inner row of a running stream without loops: no commit, jump, end or private fetch concerns it. -/
abbrev PlainRow (h x : Nat) (r : Run) (s : State) : Prop :=
  let q := r.site x
  runOfSite s x = some (h, r) ∧ s.run? h = some r ∧ r.phase = 2 ∧ q.live = true ∧ q.ending = none ∧ q.stopPos = none ∧
    q.priv = false ∧ q.hpos = q.pos ∧ q.loops = [] ∧ r.loops = [] ∧ r.com = none ∧ r.sel = none ∧ r.scheds = [] ∧ r.jumps = [] ∧
    r.taken = [] ∧ r.under = false ∧ q.row + 1 < r.rows q.pos ∧ q.row + 257 ≠ r.rows q.pos ∧ s.grn.ues = [] ∧
    r.frontAt q.vstart - q.nidx ≤ r.maxLag ∧ r.frontAt q.vstart - q.nidx ≤ 16384

/-- A commit point that waits selects the position `p` that follows (R102). -/
abbrev CommitsTo (h p : Nat) (r : Run) (c : ComPt) (s : State) : Prop :=
  s.run? h = some r ∧ r.com = some c ∧ r.under = false ∧ r.memUe = none ∧ r.sel.bind (·.jump) = none ∧ r.jump = none ∧
    c.sched = none ∧ c.nominal = some p

/-- The events of runs (R73, R102, R104, R105, R134, R143 to R146, R219, R225). A waiting start is granted; the first vectors
begin at the start time; a site plays a row and moves to the next, or ends as it was told or for its lag; a commit point selects
a READY segment, or the stream underruns; a refill warning is raised; a log record is drained; a verdict is written, and after
the last the run completes. Model's choices in it: log entries 41, 42 and 43. -/
def Obligations.StreamEventsHaveTheirEffect : Prop :=
  (∀ (h : Fin 128) (a b : List StartReq) (q : StartReq) s, s.starts = a ++ q :: b → (∀ y ∈ a, y.sheaf ≠ h.val) → q.sheaf = h.val →
    startGranted s q = true → startCheck { s with starts := a ++ b } q = none → (∃ w, s.work? q.key = some w) →
    ∃ t, exec (.sequenceGrant h) s = .next t ∧ t.starts = a ++ b ∧ (∃ w, t.work? q.key = some w ∧ w.started = true) ∧
      t.compl = s.compl ∧ ∃ r, Admits q r s t) ∧
  (∀ (h : Fin 128) r s, s.run? h.val = some r → r.phase = 1 →
    ∃ t r', exec (.runFirstVector h) s = .next t ∧ t.mono = max s.mono r.startAt ∧ t.run? h.val = some r' ∧ r'.phase = 2 ∧
      r'.start = t.now ∧ r'.members = r.members ∧ (∀ x ∈ r.live, (r'.site x).vstart = t.mono ∧ (r'.site x).ep = t.ep) ∧
      (∀ g, g ≠ h.val → t.run? g = s.run? g) ∧
      t = book t { s with runs := t.runs, pins := t.pins, slices := t.slices, now := t.now, mono := t.mono }) ∧
  (∀ (x : Fin 128) h r obs s, PlainRow h x.val r s → let q := r.site x.val
    ∃ t r', exec (.vector x obs) s = .next t ∧ t.mono = max s.mono q.vstart ∧ t.run? h = some r' ∧
      (r'.site x.val).idx = q.nidx ∧ (r'.site x.val).nidx = q.nidx + 1 ∧ (r'.site x.val).pos = q.pos ∧
      (r'.site x.val).row = q.row + 1 ∧ (r'.site x.val).vstart = q.vstart + r.period s q.pos ∧ (r'.site x.val).live = true ∧
      r'.front = (if r.begun = true ∧ q.nidx ≤ r.front then r.front else q.nidx) ∧
      (∀ y, y ≠ x.val → r'.site y = r.site y) ∧ (∀ g, g ≠ h → t.run? g = s.run? g) ∧
      (∀ p, (∀ e ∈ ((s.site? x.val).map (·.pins)).getD [], e.pin ≠ p) → t.pin p = s.pin p) ∧
      (∀ e, (s.site? x.val).map (·.pins) = some [e] → let w := rowWord s r q.pos q.row
        t.pin e.pin = (playPin (bit r.symcols e.col) (w / 16 ^ e.col % 16) (if e.paired then some (w / 16 ^ e.pair % 16) else none)
          (posAt r.poss q.pos).tset q.vstart (obs.getD 0 { zone := 0, exc := false }) (s.pin e.pin)).pin) ∧
      t = book t { s with runs := t.runs, pins := t.pins, slices := t.slices, now := t.now, mono := t.mono }) ∧
  (∀ (x : Fin 128) h r obs s st ca lp, runOfSite s x.val = some (h, r) → s.run? h = some r → r.phase = 2 →
    (r.site x.val).live = true → r.com = none →
    ((r.site x.val).ending = some (st, ca, lp) ∨
      (r.site x.val).ending = none ∧ r.maxLag < r.frontAt (r.site x.val).vstart - (r.site x.val).nidx ∧ st = 1 ∧ ca = 2 ∧ lp = 0xFF) →
    ∃ t r', exec (.vector x obs) s = .next t ∧ t.mono = max s.mono (r.site x.val).vstart ∧ t.run? h = some r' ∧
      (r'.site x.val).live = false ∧ (r'.site x.val).status = st ∧ (r'.site x.val).cause = ca ∧ (r'.site x.val).loopNo = lp ∧
      (r'.site x.val).idx = (r.site x.val).idx ∧ (r'.site x.val).endStamp = t.stamp ∧
      ((∀ y ∈ r.live, y = x.val) → r'.phase = 3 ∧ r'.endStamp = t.stamp)) ∧
  (∀ (h : Fin 128) p r c s, CommitsTo h.val p r c s →
    ∃ t r', exec (.commitPoint h) s = .next t ∧ t.run? h.val = some r' ∧ r'.com = none ∧
      (if segmentReady s r p = true then
        (t.slot (posAt r.poss p).slot).st = 3 ∧ r'.sel = some { pos := c.pos, idx := c.idx, row := c.row, next := some p } ∧
          r'.under = false ∧ (posAt r.poss p).slot ∈ r'.held
       else r'.under = true ∧ r'.sel = none ∧ (t.source srcUnderrun).alarm = true ∧ t.grn = s.grn ∧
        ∀ x q, Tab.find r.sites x = some q → q.live = true → (r'.site x).stopPos = q.stopPos.or (some q.hpos)) ∧
      (∀ g, g ≠ h.val → t.run? g = s.run? g) ∧ t = book t { s with runs := t.runs, grn := t.grn, flt := t.flt }) ∧
  (∀ (h : Fin 128) (pos : BitVec 32) r d s, s.run? h.val = some r → deadlineOf s r pos.toNat = some d → fld s.grn.warn 0 20 ≠ 0 →
    pos.toNat ∉ r.warned → segState s (posAt r.poss pos.toNat).slot ≠ 2 →
    ∃ t, exec (.refillWarn h pos) s = .next t ∧ t.mono = max s.mono (d - fld s.grn.warn 0 20 * usSteps) ∧
      t.run? h.val = some { r with warned := r.warned ++ [pos.toNat] } ∧ (t.source srcRefillWarn).alarm = true ∧
      (∀ g, g ≠ h.val → t.run? g = s.run? g) ∧ t = { s with runs := t.runs, flt := t.flt, now := t.now, mono := t.mono }) ∧
  (∀ (x : Fin 128) h r (b : List Byte) (l : List (List Byte)) s, runOfSite s x.val = some (h, r) → (r.site x.val).drained = false →
    let n := homeOf s x.val; let w := (s.slice n).win
    w.fifo = b :: l → w.refused = 0 → 0 < r.logRoom → w.recs.toNat - w.fifo.length < r.logRoom →
    ∃ t, exec (.logFifoDrain x) s = .next t ∧ Stored (r.areaAddr x.val + 512 + 32 * (w.recs.toNat - w.fifo.length)) b s t ∧
      (t.slice n).win.fifo = l ∧ (t.slice n).win.lost = w.lost ∧ (∀ m, m ≠ n → t.slice m = s.slice m) ∧
      t = book t { s with grn := { s.grn with mem := t.grn.mem }, slices := t.slices }) ∧
  (∀ (x : Fin 128) h r s, runOfSite s x.val = some (h, r) → s.run? h = some r → (r.site x.val).live = false →
    (r.site x.val).drained = false → stackFenced s (stackOf s r.first) = false → (s.slice (homeOf s x.val)).win.fifo = [] →
    (∃ y ∈ r.members, y ≠ x.val ∧ (r.site y).drained = false) →
    ∃ t r', exec (.verdictWrite x) s = .next t ∧ t.run? h = some r' ∧ (r'.site x.val).drained = true ∧ r'.phase = r.phase ∧
      Stored (r.areaAddr x.val) (verdictRecord x.val (r.site x.val) (s.slice (homeOf s x.val)).win) s t ∧
      (t.slice (homeOf s x.val)).win.verdict = true ∧
      t = book t { s with grn := { s.grn with mem := t.grn.mem }, slices := t.slices, runs := t.runs }) ∧
  (∀ (x : Fin 128) h r (c : Cmd) s, runOfSite s x.val = some (h, r) → s.run? h = some r → (r.site x.val).live = false →
    (r.site x.val).drained = false → (∀ y ∈ r.members, y ≠ x.val → (r.site y).drained = true) → r.phase = 3 →
    r.key = c.key → (∃ w, s.work? c.key = some w) → (s.entry? c.key).bind (·.retry) = none → r.begun = true →
    ∃ t, exec (.verdictWrite x) s = .next t ∧ t.run? h = none ∧ t.work? c.key = none ∧
      (∃ v : Cpl, t.compl = s.compl ++ [v] ∧ v.key = c.key ∧
        v.w6 = BitVec.ofNat 32 (r.first * slotSize) ∧ v.w7 = BitVec.ofNat 32 (r.first * slotSize / 2 ^ 32) ∧
        (v.cls.toNat = r.result.1 ∨ r.result.1 = 0 ∧ v.cls = 1)) ∧
      (∀ b ∈ t.grn.caps, b.first = r.first → b.busy = false) ∧ (∀ g, g ≠ h → t.run? g = s.run? g))

/-! ## Engines (spec/06_engines.md, spec/07_control_store_and_traps.md) -/

/-- The work of a command exists and QUE.RESUME does not execute it again. -/
abbrev Waits (k : Key) (s : State) : Prop := (∃ w, s.work? k = some w) ∧ (s.entry? k).bind (·.retry) = none

/-- ENG.CALL is admitted (R160, R368). -/
abbrev EngCallReady (c : Cmd) (s : State) (tg : Target) : Prop :=
  Runs 0x400 12 c tg s ∧ c.params.length = 0x10 + cdiv (4 * c.u 2 1) 8 * 8 ∧ c.u 0 2 < storeSize (isSliceEng tg.engNo) ∧
    c.u 2 1 ≤ 64 ∧ Blank c 3 5 ∧ BufReady c 8 0 1024 s ∧ ((s.eng tg.engNo).state = 3 → (s.eng tg.engNo).loading = true) ∧
    engUnitFence s tg.engNo = none ∧ bit (s.eng tg.engNo).ctrl 18 = true ∧ (s.eng tg.engNo).calls.length < 8

/-- ENG.STORE_MASTER is admitted (R173, R368): the slot is READY and sound and its image passes every check; no addressed engine reloads. -/
abbrev EngStoreReady (c : Cmd) (s : State) (tg : Target) : Prop :=
  let a := c.u 0 4 * slotSize; let h := grnLoad a 32 s; let n := imageBytes h
  Runs 0x401 13 c tg s ∧ c.params.length = 8 ∧ segSlot s (c.u 0 4) 0 = none ∧ (∀ r ∈ readySlot s (c.u 0 4), r = none) ∧
    (tg = .device ∨ engUnitFence s tg.engNo = none) ∧ (∀ e ∈ storeEngines tg (rdLe h 4 1), (s.eng e).reload = none) ∧
    readUe s a (32 + n) = none ∧ (∀ r ∈ imageChecks tg h (grnLoad (a + 32) n s), r = none)

/-- Only engine `e` changes among the engines. -/
abbrev OtherEngines (e : Nat) (s t : State) : Prop := ∀ i, i ≠ e → t.eng i = s.eng i

/-- The byte at `a` lies outside the header and the words that a bank of engine `e` holds in copy `j`. -/
abbrev OutsideBank (s : State) (j e : Nat) (b : Bool) (n a : Nat) : Prop :=
  (a < headerAddr s j b e ∨ headerAddr s j b e + 64 ≤ a) ∧ (a < wordsAddr s j b e ∨ wordsAddr s j b e + n ≤ a)

/-- A failed load of engine `e` (R175): it stays STOPPED, its unit is fenced, CS_VERIFY is raised. -/
abbrev LoadFails (e : Nat) (s t : State) : Prop :=
  (t.eng e).state = 3 ∧ (t.eng e).loading = false ∧ (t.eng e).reload = none ∧ (t.eng e).store = (s.eng e).store ∧
    fenceUnitOf e ∈ t.fenced ∧ (t.source srcCsVerify).alarm = true

/-- The ENG commands and writes of ENG_CTRL (R160, R162, R167, R173 to R175, R177, R180, R181, R187, R368), with the ends of
loads and repairs. Model's choices in it: log entries 27 and 30. -/
def Obligations.EngineCommandsHaveTheirEffect : Prop :=
  (∀ c s tg, EngCallReady c s tg → let e := tg.engNo
    ∃ t, exec (.engCall c) s = .next t ∧ InProgress c s t ∧
      t.eng e = { s.eng e with
        calls := (s.eng e).calls ++ [{
          key := c.key, entry := BitVec.ofNat 14 (c.u 0 2)
          args := (List.range (c.u 2 1)).map (fun i => BitVec.ofNat 32 (c.u (16 + 4 * i) 4)), first := c.u 8 4, count := c.u 12 2 }] } ∧
      OtherEngines e s t ∧
      t.grn.caps = s.grn.caps ++ (if c.u 12 2 = 0 then [] else [{ first := c.u 8 4, count := c.u 12 2, busy := true }]) ∧
      t = { s with works := t.works, engines := t.engines, grn := { s.grn with caps := t.grn.caps } }) ∧
  (∀ c s tg, EngStoreReady c s tg →
    let a := c.u 0 4 * slotSize; let h := grnLoad a 32 s; let n := imageBytes h; let l := storeEngines tg (rdLe h 4 1)
    ∃ t, exec (.engStoreMaster c) s = .next t ∧ Answered c s t 0 0 [] ∧
      (∀ e ∈ l, ∀ j ∈ liveStacks s, let b := !(s.eng e).bank
        memReads t.grn.mem (headerAddr s j b e) 32 = h ∧ rdLe (memReads t.grn.mem (headerAddr s j b e + 32) 4) 0 4 = 1 ∧
        memReads t.grn.mem (wordsAddr s j b e) n = grnLoad (a + 32) n s) ∧
      (∀ x, (∀ e ∈ l, ∀ j ∈ liveStacks s, OutsideBank s j e (!(s.eng e).bank) n x) → memRead t.grn.mem x = memRead s.grn.mem x) ∧
      t = book t { s with grn := { s.grn with mem := t.grn.mem, ues := t.grn.ues } }) ∧
  (∀ c s tg, let e := tg.engNo; let b := (s.eng e).bank != (c.u 0 1 == 1); let busy := (s.eng e).state = 1 ∨ (s.eng e).state = 2
    Runs 0x402 12 c tg s → c.params.length = 8 → c.u 0 1 ≤ 1 → c.u 1 1 ≤ 1 → (busy → c.u 1 1 = 1) → bankValid s b e = true →
    (s.eng e).reload = none →
    ∃ t, exec (.engReload c) s = .next t ∧ InProgress c s t ∧
      (busy → t.eng e = { s.eng e with reload := some (b, c.key) }) ∧
      (¬busy → t.eng e = { s.eng e with reload := some (b, c.key), loading := true, state := 3 }) ∧
      OtherEngines e s t ∧ t = { s with works := t.works, engines := t.engines }) ∧
  (∀ (e : Fin 144) ok1 ok2 b (c : Cmd) s, s.serving = true → (s.eng e.val).loading = true → (s.eng e.val).reload = some (b, c.key) →
    Waits c.key s →
    ∃ t, exec (.csLoadDone e ok1 ok2) s = .next t ∧
      (∀ l ver crc, loadAttempts s b e.val ok1 ok2 = some (l, ver, crc) →
        Answered c s t 0 (ver.toNat + 2 ^ 32 * crc.toNat) [] ∧
        t.eng e.val = { s.eng e.val with
          store := (t.eng e.val).store, bank := b, ver := ver, crc := crc, loading := false, state := 0, mcFence := false, repair := []
          reload := none } ∧
        (∀ a, (t.eng e.val).entry a = entryOf (l.getD a.toNat haltWord)) ∧ OtherEngines e.val s t ∧
        (∀ j ∈ liveStacks s, memRead t.grn.mem (selectAddr s j e.val) = BitVec.ofNat 8 b.toNat) ∧
        (∀ x, (∀ j ∈ liveStacks s, x ≠ selectAddr s j e.val) → memRead t.grn.mem x = memRead s.grn.mem x) ∧
        (∀ u, u ∈ t.fenced ↔ u ∈ s.fenced ∧ ¬((s.eng e.val).mcFence = true ∧ u = fenceUnitOf e.val)) ∧
        t = book t { s with grn := { s.grn with mem := t.grn.mem }, engines := t.engines, fenced := t.fenced }) ∧
      (loadAttempts s b e.val ok1 ok2 = none → NothingRuns { s with engines := [] } →
        (∀ i, (s.eng i).calls = [] ∧ (s.eng i).open? = none) →
        EndedWith c.key 8 Code.csVerify 0 s t ∧ LoadFails e.val s t)) ∧
  (∀ (e : Fin 144) s, s.serving = true → (s.eng e.val).state = 0 → (s.eng e.val).repair ≠ [] →
    ∃ t, exec (.csRepair e) s = .next t ∧
      (∀ l ver crc, loadAttempts s (s.eng e.val).bank e.val true true = some (l, ver, crc) →
        t.eng e.val = { s.eng e.val with repair := [], store := (t.eng e.val).store } ∧
        (∀ a, (t.eng e.val).entry a =
          if a ∈ (s.eng e.val).repair then entryOf (l.getD a.toNat haltWord) else (s.eng e.val).entry a) ∧
        OtherEngines e.val s t ∧ t = { s with engines := t.engines }) ∧
      (loadAttempts s (s.eng e.val).bank e.val true true = none → NothingRuns s → LoadFails e.val s t)) ∧
  (∀ a (e : Fin 144) v s, WriteRuns (.eng e.val 0) v a noReach s → engFence a e.val s = none → fld v 16 2 ≤ 1 →
    ∃ t u, exec (.engCtrlWrite a e v) s = .next t ∧ Written a s t u ∧
      u.eng e.val = { s.eng e.val with ctrl := setBit (s.eng e.val).ctrl 18 (bit v 18), ctrlPend := some (v &&& 0x00033FFF#32) } ∧
      OtherEngines e.val s u ∧ u = { s with works := u.works, engines := u.engines }) ∧
  (∀ (e : Fin 144) s, (s.eng e.val).state ≠ 2 → (s.eng e.val).group = false → (s.eng e.val).cur = none →
    ∃ t, exec (.engModeApply e) s = .next t ∧
      (∀ v, (s.eng e.val).ctrlPend = some v →
        t.eng e.val = { s.eng e.val with
          ctrl := ((s.eng e.val).ctrl &&& 0x00040000#32) ||| (v &&& 0x00033FFF#32), ctrlPend := none }) ∧
      ((s.eng e.val).ctrlPend = none → t.eng e.val = s.eng e.val) ∧ OtherEngines e.val s t ∧ t = { s with engines := t.engines })

/-- Neither the engine's timer nor its open group ends by `m`. -/
abbrev Calm (e m : Nat) (s : State) : Prop :=
  ((s.eng e).timerEnd = 0 ∨ m < (s.eng e).timerEnd) ∧ ((s.eng e).group = true → m < (s.eng e).groupAt + 64 * eclkSteps)

/-- The engine is at a boundary at which it takes an event (R164, R183, R186): idle, or before a sound word outside every group, after the word that a
RESUME owes and, in poll mode, after a safe point. -/
abbrev AtBoundary (e : Nat) (m : Nat) (s : State) : Prop :=
  let x := s.eng e
  s.serving = true ∧ x.reload = none ∧ Calm e m s ∧
    (x.state = 0 ∨ x.state = 1 ∧ x.cur = none ∧ x.mustRun = false ∧ x.group = false ∧ syndrome (x.entry x.pc) = 0 ∧
      (x.waiting = true → x.waitEnd = 0 ∨ m < x.waitEnd) ∧
      (fld x.applyMode.ctrl 16 2 = 1 → x.sp = true ∨ x.waiting = true ∧ mwSp ((x.entry x.pc).setWidth 128) = true))

/-- The engine fetches a word now that fails its check (R169). -/
abbrev FetchFails (e : Nat) (s : State) : Prop :=
  let m := max s.mono (s.eng e).nextAt
  engRunning s e = true ∧ (s.eng e).cur = none ∧ (s.eng e).waiting = false ∧ ((s.eng e).timerEnd = 0 ∨ m < (s.eng e).timerEnd)

/-- The engines' events (R149, R153, R154, R160, R163, R179, R181 to R185): a call taken, a trap, a WAIT that times out, the
timer, an overrun group, a machine check, the patrol. Model's choices in it: log entries 14, 16, 29 and 31. -/
def Obligations.EngineEventsHaveTheirEffect : Prop :=
  (∀ (e : Fin 144) c l s, let x := (s.eng e.val).applyMode
    s.serving = true → x.state = 0 → x.reload = none → takeable s e.val = 0 → Calm e.val s.mono s → x.calls = c :: l →
    ∃ t, exec (.callTake e) s = .next t ∧
      t.eng e.val = { x with
        calls := l, open? := some { call := c, left := c.args }, z := false, n := false, c := false, v := false, uf := 0
        partialFx := false, sp := false, groupEnd := false, mustRun := false, cur := none, waiting := false, pc := c.entry, state := 1
        nextAt := nextCycle s 1 } ∧
      OtherEngines e.val s t ∧ t = book t { s with engines := t.engines }) ∧
  (∀ (e : Fin 144) i s, let x := (s.eng e.val).applyMode; let m := if x.state = 1 then max s.mono x.nextAt else s.mono
    AtBoundary e.val m s → topEvent (takeable s e.val) = some i →
    ∃ t, exec (.trapEntry e) s = .next t ∧ t.mono = m ∧
      let y := t.eng e.val
      y = { x with
        save := y.save, sr := y.sr, z := false, n := false, c := false, v := false, idleOrigin := x.state == 0, state := 2
        waiting := false, waitEnd := 0, groupEnd := false, sp := false, cur := none, nextAt := nextCycle t 1
        latched := if i = 3 ∨ i = 4 then setBit x.latched i false else x.latched
        pc := engAddr e.val (fld x.ctrl 0 14) } ∧
      y.srv 15 = y.save.info ∧ (∀ r, r ≠ 15 → y.srv r = x.srv r) ∧ y.save.sr = x.sr ∧ y.save.lc = x.lc ∧
      y.save.flags = BitVec.ofNat 32 (x.uf.toNat * 16 + x.aluf) ∧
      y.save.wait = (if x.waiting = true ∧ x.waitEnd ≠ 0 then BitVec.ofNat 32 (cdiv (x.waitEnd - m) eclkSteps) else 0) ∧
      fld y.save.info 30 2 = (if x.state = 0 then 2 else if fld x.ctrl 16 2 = 1 then 1 else 0) ∧
      bit y.save.info 29 = (x.state != 0 && x.partialFx) ∧ bit y.save.info 28 = (x.state != 0 && x.groupEnd) ∧
      bit y.save.info 27 = x.waiting ∧ fld y.save.info 24 3 = i ∧ fld y.save.info 18 6 = pendOf s e.val ∧
      fld y.save.info 14 4 = 0 ∧ fld y.save.info 0 14 = x.pc.toNat ∧
      OtherEngines e.val s t ∧ t = book t { s with engines := t.engines, now := t.now, mono := t.mono }) ∧
  (∀ (e : Fin 144) w s, let x := s.eng e.val; let m := max s.mono x.waitEnd
    engRunning s e.val = true → syndrome (x.entry x.pc) = 0 → (x.entry x.pc).setWidth 128 = w → x.waiting = true → x.waitEnd ≠ 0 →
    Calm e.val m s → condOf s e.val w = false →
    ∃ t, exec (.waitTimeout e w) s = .next t ∧ t.mono = m ∧
      t.eng e.val = { x with
        waiting := false, waitEnd := 0, group := x.group && mwEg w != 2, groupEnd := x.group && mwEg w == 2
        sp := mwSp w && !(x.group && mwEg w != 2), cur := none, mustRun := false, pc := engAddr e.val (mwTgt w)
        nextAt := nextCycle t 1 } ∧
      OtherEngines e.val s t ∧ t = book t { s with engines := t.engines, now := t.now, mono := t.mono }) ∧
  (∀ (e : Fin 144) s, (s.eng e.val).timerEnd ≠ 0 →
    ∃ t, exec (.engineTimerZero e) s = .next t ∧ t.mono = max s.mono (s.eng e.val).timerEnd ∧
      t.eng e.val = { s.eng e.val with
        timerEnd := 0, timerZero := true
        latched := if bit (s.eng e.val).even 3 = true then setBit (s.eng e.val).latched 3 true else (s.eng e.val).latched } ∧
      OtherEngines e.val s t ∧ t = { s with engines := t.engines, now := t.now, mono := t.mono }) ∧
  (∀ (e : Fin 144) s, (s.eng e.val).group = true →
    ∃ t, exec (.groupOverrun e) s = .next t ∧ t.mono = max s.mono ((s.eng e.val).groupAt + 64 * eclkSteps) ∧
      t.eng e.val = { s.eng e.val with group := false, groupEnd := (s.eng e.val).cur.isNone, govr := satInc (s.eng e.val).govr } ∧
      OtherEngines e.val s t ∧ Raised srcGroupOverrun 0 s t ∧
      t = { s with engines := t.engines, flt := t.flt, now := t.now, mono := t.mono }) ∧
  (∀ (e : Fin 144) s, let x := s.eng e.val
    FetchFails e.val s → NothingRuns s →
    ∃ t y, exec (.machineCheck e) s = .next t ∧ y = t.eng e.val ∧ t.mono = max s.mono x.nextAt ∧
      y = { x with
        store := y.store, state := 3, cur := none, waiting := false, waitEnd := 0, latched := 0, mustRun := false
        idleOrigin := false, group := false, groupEnd := false, mcFence := true, mcInfo := y.mcInfo, mcWord := y.mcWord
        mcStamp := t.stamp, mcCount := satInc x.mcCount } ∧
      syndrome (y.entry x.pc) ≠ 0 ∧ (syndrome (x.entry x.pc) ≠ 0 → y.store = x.store) ∧
      (∀ a, a ≠ x.pc → y.entry a = x.entry a) ∧
      bit y.mcInfo 31 = true ∧ bit y.mcInfo 30 = x.group ∧ bit y.mcInfo 29 = (x.state == 2) ∧ fld y.mcInfo 22 7 = 0 ∧
      fld y.mcInfo 14 8 = syndrome (y.entry x.pc) ∧ fld y.mcInfo 0 14 = x.pc.toNat ∧
      (∀ i < 5, Tab.get 0 y.mcWord i = BitVec.ofNat 32 (fld (y.entry x.pc) (32 * i) 32)) ∧
      fenceUnitOf e.val ∈ t.fenced ∧
      (∀ p, (if e.val < 128 then p / 2 = e.val else p / 16 = e.val - 128) →
        (t.pin p).stage = .safe ∧ bit (t.pin p).ctrl 16 = false) ∧
      (∀ p, ¬(if e.val < 128 then p / 2 = e.val else p / 16 = e.val - 128) → t.pin p = s.pin p) ∧
      (∃ f, (t.source (srcCsParity (engBay e.val))).entry = some f ∧ f.detail = BitVec.ofNat 32 x.pc.toNat) ∧
      (t.source (srcCsParity (engBay e.val))).alarm = true) ∧
  (∀ (e : Fin 144) c s, FetchFails e.val s →
    (c ∈ (s.eng e.val).calls ∨ (s.eng e.val).open?.map (·.call) = some c) → (∃ w, s.work? c.key = some w) →
    (∀ x ∈ s.journal, x.retry = none) →
    ∃ t, exec (.machineCheck e) s = .next t ∧ t.work? c.key = none ∧
      ∃ r ∈ t.compl, r.key = c.key ∧ r.cls = 8 ∧ r.code = BitVec.ofNat 12 Code.csParity) ∧
  (∀ (e : Fin 144) (a : BitVec 14) s, s.serving = true → (s.eng e.val).loading = false →
    a.toNat < (if e.val < 128 then 4096 else 16384) → a ∉ (s.eng e.val).repair →
    ∃ t y, exec (.csPatrol e a) s = .next t ∧ y = t.eng e.val ∧
      y = { s.eng e.val with store := y.store, repair := (s.eng e.val).repair ++ [a] } ∧ syndrome (y.entry a) ≠ 0 ∧
      (syndrome ((s.eng e.val).entry a) ≠ 0 → y.store = (s.eng e.val).store) ∧ (∀ b, b ≠ a → y.entry b = (s.eng e.val).entry b) ∧
      OtherEngines e.val s t ∧ Raised srcCsPatrol 0 s t ∧ t = { s with engines := t.engines, flt := t.flt, freeNo := t.freeNo })

/-- A unit fences (R33, R437): shown where no command is in progress that it ends. Its pins go SAFE, its engines are idle or
stay STOPPED, its outputs are off; everything else stays. The standby pair's failure affects no work. Model's choices in it: log
entry 31. -/
def Obligations.UnitFencesHaveTheirEffect : Prop :=
  (∀ (n : Fin 128) s, NothingRuns s →
    ∃ t, exec (.unitFence (.slice n)) s = .next t ∧ (∀ u, u ∈ t.fenced ↔ u ∈ s.fenced ∨ u = .slice n) ∧
      (∀ p ∈ slicePins n.val, (t.pin p).stage = .safe ∧ bit (t.pin p).ctrl 16 = false) ∧
      (∀ p, p ∉ slicePins n.val → t.pin p = s.pin p) ∧
      (t.eng n.val).state = (if (s.eng n.val).state = 3 then 3 else 0) ∧ OtherEngines n.val s t ∧
      t = book t { s with pins := t.pins, engines := t.engines, fenced := t.fenced }) ∧
  (∀ (k : Fin 16) s, NothingRuns s →
    ∃ t, exec (.unitFence (.bay k)) s = .next t ∧ (∀ u, u ∈ t.fenced ↔ u ∈ s.fenced ∨ u = .bay k) ∧
      (∀ p, p / 16 = k.val → (t.pin p).stage = .safe ∧ bit (t.pin p).ctrl 16 = false) ∧ (∀ p, p / 16 ≠ k.val → t.pin p = s.pin p) ∧
      (∀ e ∈ baySlices k.val ++ [128 + k.val], (t.eng e).state = (if (s.eng e).state = 3 then 3 else 0)) ∧
      (∀ e, e ∉ baySlices k.val ++ [128 + k.val] → t.eng e = s.eng e) ∧
      (∀ d, d / 2 = k.val → (t.dpsOf d).isOff = true) ∧ (∀ d, d / 2 ≠ k.val → t.dpsOf d = s.dpsOf d) ∧
      (∀ m, m / 4 = k.val → (t.mon m).en = false) ∧ (∀ m, m / 4 ≠ k.val → t.mon m = s.mon m) ∧
      (t.awg k.val).eff.mode = 0 ∧ bit (t.trg k.val).ctrl 31 = false ∧ (∀ j, j ≠ k.val → t.bay j = s.bay j) ∧
      (t.source (srcBay k.val)).alarm = true ∧ t.runs = s.runs ∧ t.mono = s.mono ∧ t.queues = s.queues ∧ t.grn = s.grn) ∧
  (∀ (j : Fin 2) s, NothingRuns s →
    ∃ t, exec (.unitFence (.peDie j)) s = .next t ∧ (∀ u, u ∈ t.fenced ↔ u ∈ s.fenced ∨ u = .peDie j) ∧
      (∀ p, p / 128 = j.val → (t.pin p).stage = .safe ∧ bit (t.pin p).ctrl 16 = false) ∧ (∀ p, p / 128 ≠ j.val → t.pin p = s.pin p) ∧
      (∀ d, d / 16 = j.val → (t.dpsOf d).isOff = true) ∧ (∀ d, d / 16 ≠ j.val → t.dpsOf d = s.dpsOf d) ∧
      (∀ m, m / 32 = j.val → (t.mon m).en = false) ∧ (∀ m, m / 32 ≠ j.val → t.mon m = s.mon m) ∧
      (∀ k, k / 8 ≠ j.val → t.bay k = s.bay k ∧ t.eng (128 + k) = s.eng (128 + k)) ∧
      (t.source (srcPeDie j.val)).alarm = true ∧ t.runs = s.runs ∧ t.mono = s.mono ∧ t.queues = s.queues ∧ t.grn = s.grn) ∧
  (∀ s, ∃ t, exec .standbyPairFail s = .next t ∧ t.boot.stbyFailed = true ∧ Raised srcMgmtStandby 0 s t ∧
    t = { s with boot := { s.boot with stbyFailed := true }, flt := t.flt })

/-! ## Microwords (spec/06_engines.md) -/

/-- The engine may begin or go on with the word `w` that stands at its PC (R152, R169): where the word is not begun, no timer or group
ends first and the condition of a WAIT holds (or, with `hold`, does not). -/
abbrev WordReady (hold : Bool) (e : Fin 144) (w : MWord) (s : State) : Prop :=
  wordAt s e.val w = true ∧
    ((s.eng e.val).cur = none → Calm e.val (max s.mono (s.eng e.val).nextAt) s ∧ (mwSeq w = 5 → condOf s e.val w = !hold)) ∧
    ((s.eng e.val).cur ≠ none → (s.eng e.val).group = true → s.mono < (s.eng e.val).groupAt + 64 * eclkSteps)

/-- `u` is `s` with the word begun, its condition and counter taken at the start of its first cycle (R152 step 1, R163): `c` tells what is
fixed of it. A word already begun stays as it is. -/
abbrev Begun (e : Fin 144) (w : MWord) (s u : State) (c : WordCur) : Prop :=
  let x := s.eng e.val
  (x.cur = some c ∧ u = s) ∨
    (x.cur = none ∧ u.mono = max s.mono x.nextAt ∧ u.now = s.now + BitVec.ofNat 80 (u.mono - s.mono) ∧
      c = { cond := condOf s e.val w, lc := x.lcv (mwLcs w), aluDone := mwAlu w == 0, ifDone := mwIfu w == 0 } ∧
      u.eng e.val = { x with
        cur := some c, waiting := false, group := x.group || mwEg w == 1
        groupAt := if mwEg w = 1 ∧ x.group = false then u.mono else x.groupAt } ∧
      OtherEngines e.val s u ∧ u = { s with engines := u.engines, now := u.now, mono := u.mono })

/-- The ALU and the interface have nothing left to do in this word. -/
abbrev SeqReady (code : Nat) (e : Fin 144) (w : MWord) (s : State) : Prop :=
  WordReady false e w s ∧ mwSeq w = code ∧ ((s.eng e.val).cur = none → mwAlu w = 0 ∧ mwIfu w = 0) ∧
    ∀ c, (s.eng e.val).cur = some c → c.aluDone = true ∧ c.ifDone = true

/-- The engine `x` at the end of a word that goes to `next` (R150, R152, R163): UF acts, EG closes the group, the next word starts at the next
cycle. -/
abbrev Ends (e : Fin 144) (w : MWord) (next : Nat) (x : Engine) (u : State) (y : Engine) : Prop :=
  (∀ i < 4, bit y.uf i =
    if i = fld w 60 2 then (match fld w 62 2 with | 0 => bit x.uf i | 1 => true | 2 => false | _ => !bit x.uf i) else bit x.uf i) ∧
  y = { x with
    uf := y.uf, group := x.group && mwEg w != 2, groupEnd := x.group && mwEg w == 2, sp := mwSp w && !(x.group && mwEg w != 2)
    cur := none, waiting := false, waitEnd := 0, mustRun := false, pc := engAddr e.val next, nextAt := nextCycle u 1 }

/-- The word ends in `t`, from the engine `x` with the word begun in `u`; nothing but the engine and the counters changes. -/
abbrev WordEnds (e : Fin 144) (w : MWord) (next : Nat) (x : Engine) (u t : State) : Prop :=
  Ends e w next x u (t.eng e.val) ∧ OtherEngines e.val u t ∧ t = book t { u with engines := t.engines }

/-- PC + 1 (R153). -/
abbrev Next (e : Fin 144) (u : State) : Nat := (u.eng e.val).pc.toNat + 1

/-- A call ends OK or OK_QUALIFIED (R161, R162): at most two words in W6 and W7, or the result block in its buffer with its address. -/
abbrev CallEnds (c : Cmd) (o : OpenCall) (detail : Nat) (s t : State) : Prop :=
  let a := o.call.first * slotSize
  (o.call.count = 0 → Answered c s t detail ((o.put.getD 0 0).toNat + 2 ^ 32 * (o.put.getD 1 0).toNat) [] ∧ t.grn = s.grn) ∧
  (o.call.count ≠ 0 → Answered c s t detail a [] ∧
    Stored a (leBytes 4 o.put.length ++ leBytes 4 0 ++ o.put.flatMap (fun v => leBytes 4 v.toNat)) s t ∧
    t.grn.caps = s.grn.caps.map (fun b => if b.first = o.call.first then { b with busy := false } else b) ∧
    t.grn = { s.grn with mem := t.grn.mem, caps := t.grn.caps })

/-- The sequencer's part of a word (R149, R152, R153, R161 to R163, R186): the next address of every SEQ code, the WAIT that
holds, HALT with and without an open call, RESUME with the saved state. Model's choices in it: log entries 16, 28 and 29. -/
def Obligations.SequencerWordsHaveTheirEffect : Prop :=
  (∀ e w s, SeqReady 0 e w s →
    ∃ t u c, exec (.seqNext e w) s = .next t ∧ Begun e w s u c ∧ WordEnds e w (Next e u) (u.eng e.val) u t) ∧
  (∀ e w s, SeqReady 1 e w s →
    ∃ t u c, exec (.seqJump e w) s = .next t ∧ Begun e w s u c ∧
      WordEnds e w (if c.cond = true then mwTgt w else Next e u) (u.eng e.val) u t) ∧
  (∀ e w s, SeqReady 2 e w s →
    ∃ t u c, exec (.seqCall e w) s = .next t ∧ Begun e w s u c ∧
      (c.cond = true → WordEnds e w (mwTgt w) { u.eng e.val with sr := (t.eng e.val).sr } u t ∧
        (t.eng e.val).srv 15 = BitVec.ofNat 32 (Next e u) ∧ ∀ r, r ≠ 15 → (t.eng e.val).srv r = (u.eng e.val).srv r) ∧
      (c.cond = false → WordEnds e w (Next e u) (u.eng e.val) u t)) ∧
  (∀ e w s, SeqReady 3 e w s →
    ∃ t u c, exec (.seqRet e w) s = .next t ∧ Begun e w s u c ∧
      WordEnds e w (if c.cond = true then ((u.eng e.val).srv 15).toNat else Next e u) (u.eng e.val) u t) ∧
  (∀ e w s, SeqReady 4 e w s →
    ∃ t u c, exec (.seqLoop e w) s = .next t ∧ Begun e w s u c ∧
      let v := if c.lc = 0 then 0 else c.lc - 1
      WordEnds e w (if v ≠ 0 ∧ c.cond = true then mwTgt w else Next e u) { u.eng e.val with lc := (t.eng e.val).lc } u t ∧
      (t.eng e.val).lcv (mwLcs w) = (if c.aluLc = true then (u.eng e.val).lcv (mwLcs w) else v) ∧
      ∀ r, r ≠ mwLcs w → (t.eng e.val).lcv r = (u.eng e.val).lcv r) ∧
  (∀ e w s, SeqReady 5 e w s →
    ∃ t u c, exec (.seqWait e w) s = .next t ∧ Begun e w s u c ∧ WordEnds e w (Next e u) (u.eng e.val) u t) ∧
  (∀ e w s, WordReady true e w s → mwSeq w = 5 → (s.eng e.val).cur = none → let x := s.eng e.val
    ∃ t, exec (.seqWait e w) s = .next t ∧ t.mono = max s.mono x.nextAt ∧
      t.eng e.val = { x with
        waiting := true, group := x.group || mwEg w == 1, groupAt := if mwEg w = 1 ∧ x.group = false then t.mono else x.groupAt
        waitEnd := if x.waiting = true then x.waitEnd else if mwCnt w = 0 then 0 else t.mono + mwCnt w * eclkSteps } ∧
      OtherEngines e.val s t ∧ t = { s with engines := t.engines, now := t.now, mono := t.mono }) ∧
  (∀ e w s, SeqReady 6 e w s →
    ∃ t u c, exec (.seqDisp e w) s = .next t ∧ Begun e w s u c ∧
      WordEnds e w (if c.cond = true then mwTgt w / 16 * 16 + ((u.eng e.val).srv (mwSa w)).toNat % 16 else Next e u)
        (u.eng e.val) u t) ∧
  (∀ e w s, SeqReady 7 e w s →
    ∃ t u k y, exec (.seqHalt e w) s = .next t ∧ Begun e w s u k ∧ Ends e w (u.eng e.val).pc.toNat (u.eng e.val) u y ∧
      t.eng e.val = { y with
        group := false, groupEnd := false, sp := false, partialFx := false, idleOrigin := false, open? := none
        state := if y.reload = none then 0 else 3, loading := y.loading || y.reload.isSome } ∧
      OtherEngines e.val u t ∧
      ((s.eng e.val).open? = none → t = book t { u with engines := t.engines }) ∧
      ∀ (c : Cmd) o, (s.eng e.val).open? = some o → o.call.key = c.key → Waits c.key s →
        CallEnds c o 0 u t ∧ t = book t { u with engines := t.engines, grn := t.grn }) ∧
  (∀ e w s, SeqReady 8 e w s → (s.eng e.val).state ≠ 2 →
    ∃ t u c, exec (.seqResume e w) s = .next t ∧ Begun e w s u c ∧ WordEnds e w (Next e u) (u.eng e.val) u t) ∧
  (∀ e w s, SeqReady 8 e w s → (s.eng e.val).state = 2 →
    ∃ t u c x y, exec (.seqResume e w) s = .next t ∧ Begun e w s u c ∧ x = u.eng e.val ∧ y = t.eng e.val ∧
      (∀ r < 16, y.srv r = if bit w 0 = true ∧ r < 8 then x.srv r else Tab.get 0 x.save.sr r) ∧
      y.uf = BitVec.ofNat 4 (fld x.save.flags 4 4) ∧
      (if x.idleOrigin = false then
        y = { x with
          state := 1, pc := BitVec.ofNat 14 (fld x.save.info 0 14), lc := x.save.lc, sr := y.sr, uf := y.uf, z := bit x.save.flags 3
          n := bit x.save.flags 2, c := bit x.save.flags 1, v := bit x.save.flags 0, waiting := bit x.save.info 27
          waitEnd := if bit x.save.info 27 = true ∧ x.save.wait ≠ 0 then y.nextAt + x.save.wait.toNat * eclkSteps else 0
          partialFx := bit x.save.info 29, mustRun := true, cur := none, nextAt := nextCycle u 1
          group := x.group && mwEg w != 2, groupEnd := x.group && mwEg w == 2, sp := mwSp w && !(x.group && mwEg w != 2) }
       else
        y = { x with
          state := if x.reload = none then 0 else 3, loading := x.loading || x.reload.isSome
          pc := BitVec.ofNat 14 (fld x.save.info 0 14), lc := x.save.lc, sr := y.sr, uf := y.uf, z := bit x.save.flags 3
          n := bit x.save.flags 2, c := bit x.save.flags 1, v := bit x.save.flags 0, waiting := false, waitEnd := 0
          partialFx := false, mustRun := false, idleOrigin := false, cur := none, nextAt := nextCycle u 1
          group := false, groupEnd := false, sp := false }) ∧
      OtherEngines e.val u t ∧ t = book t { u with engines := t.engines })

/-- The ALU may act next in this word (R152): before the interface, but after it where B is what the interface returns. -/
abbrev AluReady (code : Nat) (e : Fin 144) (w : MWord) (s : State) : Prop :=
  WordReady false e w s ∧ mwAlu w = code ∧ ((s.eng e.val).cur = none → mwBsel w = 2 → mwIfu w = 0) ∧
    ∀ c, (s.eng e.val).cur = some c → c.aluDone = false ∧ (mwBsel w = 2 → c.ifDone = true)

/-- The ALU operation `i` of code `code` (R155, R156): with A and B as selected, `f A B` is the result, C and V; Z and N follow the result;
it goes to DST where `store`. -/
abbrev AluRow (i : Fin 144 → BitVec 128 → Instr) (code : Nat) (store : Bool) (f : Word → Word → Word × Bool × Bool) : Prop :=
  ∀ e w s, AluReady code e w s →
    ∃ t u c x y r, exec (i e w) s = .next t ∧ Begun e w s u c ∧ x = u.eng e.val ∧ y = t.eng e.val ∧
      r = f (x.srv (mwSa w)) (match mwBsel w with
        | 0 => x.srv (mwSb w) | 1 => BitVec.ofNat 32 (mwImm w) | 2 => c.ret | _ => x.lcv (mwSb w % 4)) ∧
      y = { x with
        z := r.1 == 0, n := r.1.msb, c := r.2.1, v := r.2.2, sr := y.sr, lc := y.lc
        cur := some { c with aluDone := true, aluLc := store && mwDst w == 16 + mwLcs w } } ∧
      (∀ k, y.srv k = if store = true ∧ mwDst w = k ∧ k < 16 then r.1 else x.srv k) ∧
      (∀ k, y.lcv k = if store = true ∧ mwDst w = 16 + k then r.1 else x.lcv k) ∧
      OtherEngines e.val u t ∧ t = { u with engines := t.engines }

/-- The ALU's part of a word (R155, R156): each operation's result and flags; NOP leaves registers and flags; no store takes a
word with a reserved code. The order of the parts of a word (log entry 28) stands in the hypotheses alone. -/
def Obligations.AluWordsHaveTheirEffect : Prop :=
  (∀ slice w, 12 ≤ mwAlu w ∨ 20 ≤ mwDst w → wordLegal slice w = false) ∧
  (∀ e w s, WordReady false e w s → mwAlu w = 0 → ∃ t c, exec (.aluNop e w) s = .next t ∧ Begun e w s t c) ∧
  AluRow .aluMov 1 true (fun _ b => (b, false, false)) ∧
  AluRow .aluAdd 2 true (fun a b =>
    (BitVec.ofNat 32 (a.toNat + b.toNat), decide (2 ^ 32 ≤ a.toNat + b.toNat),
      decide (a.toInt + b.toInt < -(2 ^ 31) ∨ 2 ^ 31 ≤ a.toInt + b.toInt))) ∧
  AluRow .aluSub 3 true (fun a b =>
    (BitVec.ofInt 32 (a.toInt - b.toInt), decide (b.toNat ≤ a.toNat),
      decide (a.toInt - b.toInt < -(2 ^ 31) ∨ 2 ^ 31 ≤ a.toInt - b.toInt))) ∧
  AluRow .aluCmp 4 false (fun a b =>
    (BitVec.ofInt 32 (a.toInt - b.toInt), decide (b.toNat ≤ a.toNat),
      decide (a.toInt - b.toInt < -(2 ^ 31) ∨ 2 ^ 31 ≤ a.toInt - b.toInt))) ∧
  AluRow .aluAnd 5 true (fun a b => (a &&& b, false, false)) ∧
  AluRow .aluOr 6 true (fun a b => (a ||| b, false, false)) ∧
  AluRow .aluXor 7 true (fun a b => (a ^^^ b, false, false)) ∧
  AluRow .aluShl 8 true (fun a b => (BitVec.ofNat 32 (a.toNat * 2 ^ (b.toNat % 32)), false, false)) ∧
  AluRow .aluShr 9 true (fun a b => (BitVec.ofNat 32 (a.toNat / 2 ^ (b.toNat % 32)), false, false)) ∧
  AluRow .aluSar 10 true (fun a b => (BitVec.ofInt 32 (a.toInt / 2 ^ (b.toNat % 32)), false, false)) ∧
  AluRow .aluMul 11 true (fun a b => (BitVec.ofInt 32 (a.toInt * b.toInt), false, false))

/-- The interface may issue this word's operation next: the engine has the unit (R147), and the ALU has acted or waits for its value. -/
abbrev IfuReady (unit op : Nat) (e : Fin 144) (w : MWord) (s : State) : Prop :=
  WordReady false e w s ∧ mwIfu w = unit ∧ mwIfop w = op ∧ (unit ≤ 5 → e.val < 128) ∧
    ((s.eng e.val).cur = none → mwAlu w = 0 ∨ mwBsel w = 2) ∧
    ∀ c, (s.eng e.val).cur = some c → c.ifDone = false ∧ (c.aluDone = true ∨ mwBsel w = 2 ∧ mwAlu w ≠ 0)

/-- The interface operation of the word acts (R152, R157, R185): from the begun word in `u` it returns `ret` and gives `v` as `P` says; the
word notes the value, and a visible effect sets the routine's partial flag. -/
abbrev IfuActs (i : Fin 144 → BitVec 128 → Instr) (vis : Bool) (e : Fin 144) (w : MWord) (s : State) (P : State → Word → State → Prop) : Prop :=
  ∃ t u c ret v, exec (i e w) s = .next t ∧ Begun e w s u c ∧ P u ret v ∧
    t.eng e.val = { v.eng e.val with
      cur := some { c with ret := ret, ifDone := true }, partialFx := (v.eng e.val).partialFx || (vis && (v.eng e.val).state == 1) } ∧
    OtherEngines e.val v t ∧ t = { v with engines := t.engines }

/-- The operation is refused (R148, R159): it sets REFUSE, returns 0 and changes nothing else. -/
abbrev Refuses (e : Fin 144) (u : State) (ret : Word) (v : State) : Prop := ret = 0 ∧ v = setRefuse e.val true u

/-- The operation is accepted with the effect `u'` and clears REFUSE (R159). -/
abbrev Accepts (e : Fin 144) (ret0 : Word) (u' : State) (ret : Word) (v : State) : Prop := ret = ret0 ∧ v = setRefuse e.val false u'

/-- Only pin `p` changes among the pins. -/
abbrev OtherPins (p : Nat) (s t : State) : Prop := ∀ q, q ≠ p → t.pin q = s.pin q

/-- The argument SR[IFA]. -/
abbrev Arg (e : Fin 144) (w : MWord) (s : State) : Word := (s.eng e.val).srv (mwIfa w)

/-- An engine may use the PMU of a pin (R20, R148, R191). -/
abbrev PmuUsable (e : Fin 144) (p : Nat) (s : State) : Prop := engPin s e.val p = true ∧ (s.pin p).pmu.holder ≠ 2

/-- A force by an engine is admitted (R190, R192, R198). -/
abbrev EngForceReady (e : Fin 144) (w : MWord) (s : State) : Prop :=
  let p := selPin s e.val
  PmuUsable e p s ∧ (s.pin p).pmu.holder ≠ 3 ∧ fld w 0 4 ≤ 7 ∧ bit (s.pin p).stat 0 = false ∧ streamOn s p = false ∧
    (fld w 0 4 = 7 → hiRangeUsers s p < 2)

/-- A force by an engine holds (R189, R194, R200): the selected pin's PMU is in its mode, held by the engine, at range and value, SETTLING. -/
abbrev EngForces (e : Fin 144) (w : MWord) (mode : Nat) (u : State) (ret : Word) (v : State) : Prop :=
  let p := selPin u e.val; let y := v.pin p
  Accepts e 0 { u with pins := v.pins, freeNo := v.freeNo } ret v ∧ y.pmu.mode = mode ∧ y.pmu.holder = 1 ∧
    fld y.pmu.ctrl 8 4 = fld w 0 4 ∧ y.pmu.force = (Arg e w u).toInt ∧ bit y.pmu.stat 5 = true ∧
    y = { u.pin p with pmu := y.pmu, stat := y.stat, stage := y.stage } ∧ OtherPins p u v

/-- The interface units of pins and registers (R148, R152, R157 to R159, R166, R189 to R202, R231): PIN, BAY, PMU and TDC
operations, with what is refused. Model's choices in it: log entries 19, 27, 29 and 33. -/
def Obligations.PinAndRegisterWordsHaveTheirEffect : Prop :=
  (∀ e w zone n s, IfuReady 1 0 e w s → ifuPinName e.val w = some n → pinUnitReach s e.val n = true →
    IfuActs (fun e w => .ifuPinRead e w zone) false e w s (fun u ret v =>
      let r := readReg zone n (if mwBsel w = 2 then advance (4 * eclkSteps) u else u)
      ret = r.1 ∧ v = r.2 ∧ ∀ p, n = .pin p 0x00 → ret = (u.pin p).lvl01)) ∧
  (∀ e w zone s, IfuReady 1 0 e w s → (∀ n, ifuPinName e.val w = some n → pinUnitReach s e.val n = false) →
    IfuActs (fun e w => .ifuPinRead e w zone) false e w s (Refuses e)) ∧
  (∀ e w n s, IfuReady 1 1 e w s → ifuPinName e.val w = some n → pinUnitReach s e.val n = true →
    IfuActs .ifuPinWrite true e w s (fun u ret v => ret = 0 ∧
      (∀ x, (writeReg (.engine e) n (Arg e w u) u = .done x ∨ writeReg (.engine e) n (Arg e w u) u = .later x) →
        v = setRefuse e.val false x) ∧
      (∀ r, writeReg (.engine e) n (Arg e w u) u = .refused r → v = setRefuse e.val true u) ∧
      ∀ m, n = .adc m → Accepts e 0 { u with slices := v.slices } ret v ∧ (v.slice m).adc = Arg e w u &&& 1#32 ∧
        ∀ j, j ≠ m → v.slice j = u.slice j)) ∧
  (∀ e w s, IfuReady 1 1 e w s → (∀ n, ifuPinName e.val w = some n → pinUnitReach s e.val n = false) →
    IfuActs .ifuPinWrite true e w s (Refuses e)) ∧
  (∀ e w n s, IfuReady 10 0 e w s → ifuBayName e.val w = some n → bayUnitReach s e.val n = true →
    IfuActs .ifuBayRead false e w s (fun u ret v =>
      let r := readReg 0 n (if mwBsel w = 2 then advance (4 * eclkSteps) u else u)
      ret = r.1 ∧ v = r.2 ∧ ∀ i, n = .blk i 0x00 → ret = (u.blk i).cfg)) ∧
  (∀ e w s, IfuReady 10 0 e w s → (∀ n, ifuBayName e.val w = some n → bayUnitReach s e.val n = false) →
    IfuActs .ifuBayRead false e w s (Refuses e)) ∧
  (∀ e w n s, IfuReady 10 1 e w s → ifuBayName e.val w = some n → bayUnitReach s e.val n = true →
    IfuActs .ifuBayWrite true e w s (fun u ret v => ret = 0 ∧
      (∀ x, (writeReg (.engine e) n (Arg e w u) u = .done x ∨ writeReg (.engine e) n (Arg e w u) u = .later x) →
        v = setRefuse e.val false x) ∧
      (∀ r, writeReg (.engine e) n (Arg e w u) u = .refused r → v = setRefuse e.val true u) ∧
      ∀ i, n = .blk i 0x00 → bayRegReach s (i / 4) = none → fld (Arg e w u) 20 4 ≤ 4 → fld (Arg e w u) 0 19 ≤ 400000 →
        Accepts e 0 { u with blks := v.blks } ret v ∧
          (v.blk i).cfg = setBit (Arg e w u &&& 0x00F7FFFF#32) 31 (bit (u.blk i).cfg 31) ∧ ∀ j, j ≠ i → v.blk j = u.blk j)) ∧
  (∀ e w s, IfuReady 10 1 e w s → (∀ n, ifuBayName e.val w = some n → bayUnitReach s e.val n = false) →
    IfuActs .ifuBayWrite true e w s (Refuses e)) ∧
  (∀ e w o s, IfuReady 2 0 e w s → let p := 2 * e.val + (bit w 0).toNat
    PmuUsable e p s → (s.pin p).pmu.holder ≠ 3 → ((s.pin p).pmu.mode = 0 → bit (s.pin p).stat 0 = false) →
    IfuActs (fun e w => .ifuPmuConn e w o) true e w s (fun u ret v =>
      ret = 0 ∧ v = { u with pins := v.pins, engines := v.engines } ∧ v.eng e.val = { u.eng e.val with sel := bit w 0, refuse := false } ∧
      OtherEngines e.val u v ∧ OtherPins p u v ∧ ((u.pin p).pmu.mode ≠ 0 → v.pin p = u.pin p) ∧
      ((u.pin p).pmu.mode = 0 → (v.pin p).pmu.mode = 3 ∧ (v.pin p).pmu.holder = 1))) ∧
  (∀ e w o s, IfuReady 2 0 e w s → let p := 2 * e.val + (bit w 0).toNat
    (¬PmuUsable e p s ∨ (s.pin p).pmu.mode = 0 ∧ bit (s.pin p).stat 0 = true) →
    IfuActs (fun e w => .ifuPmuConn e w o) true e w s (Refuses e)) ∧
  (∀ e w s, IfuReady 2 1 e w s → PmuUsable e (selPin s e.val) s → (s.pin (selPin s e.val)).pmu.keys = [] →
    IfuActs .ifuPmuDisc true e w s (fun u ret v => Accepts e 0 { u with pins := v.pins } ret v ∧
      (v.pin (selPin u e.val)).pmu = (u.pin (selPin u e.val)).pmu.toOff ∧ (v.pin (selPin u e.val)).pmu.mode = 0 ∧
      OtherPins (selPin u e.val) u v)) ∧
  (∀ e w s, IfuReady 2 1 e w s → ¬PmuUsable e (selPin s e.val) s → IfuActs .ifuPmuDisc true e w s (Refuses e)) ∧
  (∀ e w s, IfuReady 2 2 e w s → EngForceReady e w s → -1500000 ≤ (Arg e w s).toInt → (Arg e w s).toInt ≤ 6500000 →
    IfuActs .ifuPmuFv true e w s (EngForces e w 1)) ∧
  (∀ e w s, IfuReady 2 2 e w s → (¬PmuUsable e (selPin s e.val) s ∨ 7 < fld w 0 4 ∨ (Arg e w s).toInt < -1500000 ∨
      6500000 < (Arg e w s).toInt ∨ bit (s.pin (selPin s e.val)).stat 0 = true ∨ streamOn s (selPin s e.val) = true) →
    IfuActs .ifuPmuFv true e w s (Refuses e)) ∧
  (∀ e w s, IfuReady 2 3 e w s → EngForceReady e w s → -(rangeFs (fld w 0 4)) ≤ (Arg e w s).toInt →
    (Arg e w s).toInt ≤ rangeFs (fld w 0 4) → IfuActs .ifuPmuFi true e w s (EngForces e w 2)) ∧
  (∀ e w s, IfuReady 2 4 e w s → let p := selPin s e.val
    PmuUsable e p s → (s.pin p).pmu.mode ≠ 0 → ((s.pin p).pmu.mode = 3 → bit w 0 = false) → let n := max (fld w 8 8) 1
    IfuActs .ifuPmuMeas true e w s (fun u ret v => Accepts e 0 { u with pins := v.pins } ret v ∧ OtherPins p u v ∧
      bit (v.pin p).pmu.stat 0 = true ∧
      (if bit (u.pin p).pmu.stat 0 = true then (v.pin p).pmu.next = (u.pin p).pmu.next ++ [(bit w 0, n, none)]
       else (v.pin p).pmu.measKind = bit w 0 ∧ (v.pin p).pmu.measN = n ∧ (v.pin p).pmu.measBy = none ∧
        (v.pin p).pmu.measT0 = u.stamp))) ∧
  (∀ e w s, IfuReady 2 5 e w s → let p := selPin s e.val
    PmuUsable e p s → let r := max (-2147483647) (min 2147483647 (s.pin p).pmu.res)
    IfuActs .ifuPmuRead true e w s (fun u ret v => ret.toInt = r ∧ bit (v.pin p).pmu.stat 2 = false ∧
      (∀ i, i ≠ 2 → bit (v.pin p).pmu.stat i = bit (u.pin p).pmu.stat i) ∧ OtherPins p u v ∧
      v.eng e.val = { u.eng e.val with sat := bit (u.pin p).pmu.stat 1 || r != (u.pin p).pmu.res } ∧ OtherEngines e.val u v ∧
      v = { u with pins := v.pins, engines := v.engines })) ∧
  (∀ e w s, IfuReady 3 0 e w s → let p := 2 * e.val + (bit w 0).toNat
    engPin s e.val p = true → fld w 1 2 ≠ 0 → (s.pin p).tdc.holder ≠ 2 →
    IfuActs .ifuTdcArm true e w s (fun u ret v => Accepts e 0 { u with pins := v.pins } ret v ∧ OtherPins p u v ∧
      v.pin p = { u.pin p with tdc := { (u.pin p).tdc with holder := 1, pol := BitVec.ofNat 2 (fld w 1 2) } })) ∧
  (∀ e w s, IfuReady 3 1 e w s → let p := 2 * e.val + (bit w 0).toNat
    engPin s e.val p = true → (s.pin p).tdc.holder ≠ 2 →
    IfuActs .ifuTdcDisarm true e w s (fun u ret v => Accepts e 0 { u with pins := v.pins } ret v ∧ OtherPins p u v ∧
      v.pin p = { u.pin p with tdc := { (u.pin p).tdc with fifo := [], holder := 0, pol := 0, lostPending := 0 } })) ∧
  (∀ e w a l s, IfuReady 3 2 e w s → let p := 2 * e.val + (bit w 0).toNat
    engPin s e.val p = true → (s.pin p).tdc.holder ≠ 2 → (s.pin p).tdc.fifo = a :: l →
    IfuActs .ifuTdcPoplo true e w s (fun u ret v => Accepts e (BitVec.ofNat 32 a.full.toNat) { u with pins := v.pins } ret v ∧
      OtherPins p u v ∧ v.pin p = { u.pin p with tdc := { (u.pin p).tdc with fifo := l, popped := a } })) ∧
  (∀ e w s, IfuReady 3 2 e w s → let p := 2 * e.val + (bit w 0).toNat
    (engPin s e.val p = false ∨ (s.pin p).tdc.fifo = []) → IfuActs .ifuTdcPoplo true e w s (Refuses e)) ∧
  (∀ e w s, IfuReady 3 3 e w s → let p := 2 * e.val + (bit w 0).toNat
    engPin s e.val p = true →
    IfuActs .ifuTdcPophi true e w s (fun u ret v => v = u ∧
      ret = BitVec.ofNat 32 ((u.pin p).tdc.popped.full.toNat / 2 ^ 32)))

/-- Engine `i` receives what engine `e` sends: the bay engine of a slice engine, or the slices of the bay that IMM[7:0] sets (R157). -/
abbrev EvtGoesTo (e : Fin 144) (w : MWord) (i : Nat) : Prop :=
  if e.val < 128 then i = 128 + e.val / 8 else ∃ j < 8, bit w j = true ∧ i = 8 * (e.val - 128) + j

/-- The interface units of sites, triggers, peers, calls and the timer (R126, R132, R138 to R141, R148, R154, R157, R159, R161,
R162, R223, R305, R308), with what is refused. Model's choices in it: log entries 19 and 29. -/
def Obligations.SiteCallAndTimerWordsHaveTheirEffect : Prop :=
  (∀ e w x s, IfuReady 4 0 e w s → homeSite s e.val = some x →
    IfuActs .ifuWinCount false e w s (fun u ret v => ret = BitVec.ofNat 32 (u.slice e.val).win.fcnt.toNat ∧ v = u)) ∧
  (∀ e w x s, IfuReady 4 1 e w s → homeSite s e.val = some x →
    IfuActs .ifuWinClear true e w s (fun u ret v => Accepts e 0 { u with slices := v.slices } ret v ∧
      v.slice e.val = { u.slice e.val with win := { (u.slice e.val).win with fail := false, iter := false } } ∧
      ∀ n, n ≠ e.val → v.slice n = u.slice n)) ∧
  (∀ e w x h r s, IfuReady 4 2 e w s → homeSite s e.val = some x → siteAdmitted s x = some (h, r) → (s.slice e.val).win.logRate ≠ 0 →
    (s.slice e.val).win.fifo.length < winFifoMax →
    IfuActs .ifuWinMark true e w s (fun u ret v => Accepts e 0 { u with slices := v.slices } ret v ∧
      (∀ n, n ≠ e.val → v.slice n = u.slice n) ∧
      v.slice e.val = { u.slice e.val with win := { (u.slice e.val).win with
        fifo := (u.slice e.val).win.fifo ++ [eventRecord 3 (r.site x).priv (Arg e w u).toNat (r.site x).idx u.now]
        recs := satInc (u.slice e.val).win.recs } })) ∧
  (∀ e w x s, IfuReady 5 0 e w s → homeSite s e.val = some x →
    IfuActs .ifuStrMset true e w s (fun u ret v => Accepts e 0 { u with match? := setBit u.match? x true } ret v)) ∧
  (∀ e w x s, IfuReady 5 1 e w s → homeSite s e.val = some x →
    IfuActs .ifuStrMclr true e w s (fun u ret v => Accepts e 0 { u with match? := setBit u.match? x false } ret v)) ∧
  (∀ e w x s, IfuReady 5 2 e w s → homeSite s e.val = some x →
    IfuActs .ifuStrJreq true e w s (fun u ret v =>
      let y := takeCommits u; let t := (Arg e w u).toNat
      (siteAdmitted y x = none → Refuses e y ret v) ∧
      ∀ h r, siteAdmitted y x = some (h, r) → y.run? h = some r →
        if t < r.poss.length ∧ (posAt r.poss t).jtgt = true ∧ r.jump = none ∧ r.taken = [] then
          Accepts e 0 { y with runs := v.runs } ret v ∧ (∀ g, g ≠ h → v.run? g = y.run? g) ∧
          v.run? h = some { r with jump := some {
            key := none, target := t, cycle := y.now.toNat / eclkSteps + 3, onTime := r.sel.isNone && r.com.isNone } }
        else Refuses e y ret v)) ∧
  (∀ e w x h r s, IfuReady 5 3 e w s → homeSite s e.val = some x → siteAdmitted s x = some (h, r) → s.run? h = some r →
    IfuActs .ifuStrJsched true e w s (fun u ret v =>
      let n := (Arg e w u).toNat; let k := ((u.eng e.val).srv (mwIfa w + 1)).toNat; let t := fld w 0 16
      if n < r.poss.length ∧ t < r.poss.length ∧ (posAt r.poss t).jtgt = true ∧ 511 ≤ k ∧ k < r.rows n ∧ r.inBody n k = false ∧
          r.scheds.length < 4 then
        Accepts e 0 { u with runs := v.runs } ret v ∧ v.run? h = some { r with scheds := r.scheds ++ [(n, k, t)] } ∧
          ∀ g, g ≠ h → v.run? g = u.run? g
      else Refuses e u ret v)) ∧
  (∀ e w x h r s, IfuReady 5 4 e w s → homeSite s e.val = some x → runOfSite s x = some (h, r) →
    IfuActs .ifuStrProg false e w s (fun u ret v => ret = BitVec.ofNat 32 (r.site x).idx ∧ v = u)) ∧
  (∀ e w s, homeSite s e.val = none →
    (IfuReady 4 0 e w s → IfuActs .ifuWinCount false e w s (Refuses e)) ∧
    (IfuReady 4 1 e w s → IfuActs .ifuWinClear true e w s (Refuses e)) ∧
    (IfuReady 4 2 e w s → IfuActs .ifuWinMark true e w s (Refuses e)) ∧
    (IfuReady 5 0 e w s → IfuActs .ifuStrMset true e w s (Refuses e)) ∧
    (IfuReady 5 1 e w s → IfuActs .ifuStrMclr true e w s (Refuses e)) ∧
    (IfuReady 5 2 e w s → IfuActs .ifuStrJreq true e w s (fun u ret v => Refuses e (takeCommits u) ret v)) ∧
    (IfuReady 5 3 e w s → IfuActs .ifuStrJsched true e w s (Refuses e)) ∧
    (IfuReady 5 4 e w s → IfuActs .ifuStrProg false e w s (Refuses e))) ∧
  (∀ e w s, IfuReady 6 0 e w s → let k := engBay e.val
    IfuActs .ifuTrgFire true e w s (fun u ret v => Accepts e 0 { u with bays := v.bays } ret v ∧ (∀ j, j ≠ k → v.bay j = u.bay j) ∧
      v.bay k = (if bit (u.trg k).ctrl 31 = true then { u.bay k with trg := { u.trg k with
        pulses := (u.trg k).pulses ++ [{ at_ := u.mono + 3 * eclkSteps, code := 1 + lineOf e.val, stamp := u.cycleStamp }] } }
        else u.bay k))) ∧
  (∀ e w s, IfuReady 6 1 e w s → let k := engBay e.val
    IfuActs .ifuTrgTake true e w s (fun u ret v =>
      Accepts e (BitVec.ofNat 32 (Tab.get (0 : BitVec 3) (u.trg k).pend (lineOf e.val)).toNat) { u with bays := v.bays } ret v ∧
      v.bay k = { u.bay k with trg := { u.trg k with set := setBit (u.trg k).set (lineOf e.val) false } } ∧
      ∀ j, j ≠ k → v.bay j = u.bay j)) ∧
  (∀ e w s, IfuReady 7 0 e w s →
    IfuActs .ifuEvtSend true e w s (fun u ret v => ret = 0 ∧
      (∀ i, i ≠ e.val → EvtGoesTo e w i → (u.eng i).peer.length < 4 →
        v.eng i = { u.eng i with peer := (u.eng i).peer ++ [Arg e w u] }) ∧
      (∀ i, i ≠ e.val → (¬EvtGoesTo e w i ∨ 4 ≤ (u.eng i).peer.length) → v.eng i = u.eng i) ∧
      ((∃ i, EvtGoesTo e w i ∧ 4 ≤ (u.eng i).peer.length) → v.eng e.val = { u.eng e.val with refuse := true }) ∧
      ((∀ i, EvtGoesTo e w i → (u.eng i).peer.length < 4) → v.eng e.val = { u.eng e.val with refuse := false }) ∧
      v = { u with engines := v.engines })) ∧
  (∀ e w s, IfuReady 7 1 e w s →
    IfuActs .ifuEvtTake true e w s (fun u ret v => (∀ a l, (u.eng e.val).peer = a :: l → ret = a) ∧
      v.eng e.val = { u.eng e.val with peer := (u.eng e.val).peer.drop 1, refuse := false } ∧ OtherEngines e.val u v ∧
      v = { u with engines := v.engines })) ∧
  (∀ e w s, (s.eng e.val).open? = none →
    (IfuReady 8 0 e w s → IfuActs .ifuQueArg true e w s (Refuses e)) ∧ (IfuReady 8 1 e w s → IfuActs .ifuQuePut true e w s (Refuses e)) ∧
    (IfuReady 8 2 e w s → IfuActs .ifuQueDone true e w s (Refuses e))) ∧
  (∀ e w o s, (s.eng e.val).open? = some o → IfuReady 8 0 e w s →
    IfuActs .ifuQueArg true e w s (fun u ret v => (o.left = [] → Refuses e u ret v) ∧
      ∀ a l, o.left = a :: l → ret = a ∧ v.eng e.val = { u.eng e.val with open? := some { o with left := l }, refuse := false } ∧
        OtherEngines e.val u v ∧ v = { u with engines := v.engines })) ∧
  (∀ e w o s, (s.eng e.val).open? = some o → IfuReady 8 1 e w s →
    IfuActs .ifuQuePut true e w s (fun u ret v =>
      if o.put.length < (if o.call.count = 0 then 2 else 1024) then
        ret = 0 ∧ v.eng e.val = { u.eng e.val with open? := some { o with put := o.put ++ [Arg e w u] }, refuse := false } ∧
          OtherEngines e.val u v ∧ v = { u with engines := v.engines }
      else Refuses e u ret v)) ∧
  (∀ e w o (c : Cmd) s, (s.eng e.val).open? = some o → IfuReady 8 2 e w s → o.call.key = c.key → Waits c.key s →
    IfuActs .ifuQueDone true e w s (fun u ret v => ret = 0 ∧ CallEnds c o (fld w 0 16) u v ∧
      (bit w 16 = true → v.compl.getLast?.map (·.cls) = some 1) ∧
      v.eng e.val = { u.eng e.val with open? := none, refuse := false } ∧ OtherEngines e.val u v ∧
      v = book v { u with engines := v.engines, grn := v.grn })) ∧
  (∀ e w s, IfuReady 9 0 e w s →
    IfuActs .ifuTmrLoad true e w s (fun u ret v => ret = 0 ∧ OtherEngines e.val u v ∧ v = { u with engines := v.engines } ∧
      (Arg e w u ≠ 0 → v.eng e.val = { u.eng e.val with
        timerEnd := u.mono + (Arg e w u).toNat * eclkSteps, timerZero := false, refuse := false }))) ∧
  (∀ e w s, IfuReady 9 1 e w s →
    IfuActs .ifuTmrRead false e w s (fun u ret v => v = u ∧
      ret = BitVec.ofNat 32 (if (u.eng e.val).timerEnd ≤ u.mono then 0 else cdiv ((u.eng e.val).timerEnd - u.mono) eclkSteps)))

/-! ## Firmware and the management pairs, resets and starts (spec/20_startup_and_reset.md) -/

/-- Every slow-path command in progress failed with MGMT_FAILOVER and `w6` in W6, the others go on (R33, R352, R495). -/
abbrev SlowWorkFails (w6 : Work → Word) (s t : State) : Prop :=
  (∀ w ∈ s.works, w.slow = true → (∀ x ∈ s.journal, x.retry = none) → t.work? w.key = none ∧
    ∃ r ∈ t.compl, r.key = w.key ∧ r.cls = 8 ∧ r.code = BitVec.ofNat 12 Code.mgmtFailover ∧ r.w6 = w6 w) ∧
  ((∀ x ∈ s.journal, x.retry = none) → ∀ k, (∀ w ∈ s.works, w.key = k → w.slow = false) → t.work? k = s.work? k)

/-- The pairs and the firmware (R33, R352, R494, R495). A lockstep mismatch in probation returns control to the former pair and
discards the image; else the standby takes over and the failed pair is fenced. Probation ends after 1 s with the version in W6;
the image goes into the flash copy with the lower VERSION. Model's choices in it: log entries 16 and 54. -/
def Obligations.FirmwareEventsHaveTheirEffect : Prop :=
  (∀ s, s.boot.switching = true →
    ∃ t, exec .mgmtFailover s = .next t ∧ t.mono = s.mono + 2 * msSteps ∧
      t.boot = { s.boot with
        active := !s.boot.active, fwAct := s.boot.fwStby, fwStby := s.boot.fwAct, stbyImg := false, switching := false
        switchKey := none } ∧
      (t.source srcMgmtActive).alarm = true ∧
      SlowWorkFails (fun w => if s.boot.switchKey = some w.key then s.boot.fwStby else 0) s t ∧
      t.pins = s.pins ∧ t.runs = s.runs ∧ t.mons = s.mons ∧ t.dps = s.dps) ∧
  (∀ s, s.boot.switching = false → s.serving = true → s.boot.stbyFailed = false → s.boot.stbyImg = true →
    ∃ t, exec .mgmtFailover s = .next t ∧ t.mono = s.mono ∧
      t.boot = { s.boot with
        active := !s.boot.active, fwAct := s.boot.fwStby, fwStby := s.boot.fwAct, stbyFailed := true } ∧
      (t.source srcMgmtActive).alarm = true ∧
      SlowWorkFails (fun w => if s.boot.switchKey = some w.key then s.boot.fwStby else 0) s t ∧
      t.pins = s.pins ∧ t.runs = s.runs ∧ t.mons = s.mons ∧ t.dps = s.dps) ∧
  (∀ s, s.boot.switching = true → s.serving = true →
    ∃ t, exec .fwProbationEnd s = .next t ∧ t.mono = s.mono + 1000 * msSteps ∧
      t.boot = { s.boot with switching := false, switchKey := none, flashWb := s.boot.flashOk } ∧
      (s.boot.switchKey = none → t = { s with boot := t.boot, now := t.now, mono := t.mono }) ∧
      ∀ c : Cmd, s.boot.switchKey = some c.key → Waits c.key s →
        Answered c s t 0 s.boot.fwAct.toNat [] ∧ t = book t { s with boot := t.boot, now := t.now, mono := t.mono }) ∧
  (∀ s, s.boot.flashWb = true →
    ∃ t, exec .fwWritebackDone s = .next t ∧
      t = { s with boot :=
        if s.boot.fwVer0.toNat < s.boot.fwVer1.toNat then { s.boot with flashWb := false, fwVer0 := s.boot.fwAct, fwBad0 := false }
        else { s.boot with flashWb := false, fwVer1 := s.boot.fwAct, fwBad1 := false } })

/-- No queued fault entry waits to be written. -/
abbrev NoEntries (s : State) : Prop := ∀ e ∈ s.flt.sources, e.2.entry = none

/-- Every control store has a good copy to load from (R175, R178). -/
abbrev StoresLoad (s : State) : Prop := ∀ e < 144, (loadAttempts s (s.eng e).bank e true true).isSome = true

/-- Outputs and work are as step 1 of a warm reset leaves them (R491): pins SAFE with PIN_EN 0 and their PMU OFF, no run, engine registers and
calls clear, time outputs stopped, completion queues and intake as they were. -/
abbrev Quieted (s t : State) : Prop :=
  (∀ p, (t.pin p).stage = .safe ∧ bit (t.pin p).ctrl 16 = false ∧ (t.pin p).pmu.mode = 0 ∧ (t.pin p).tdc.fifo = [] ∧
    (t.pin p).lvl01 = (s.pin p).lvl01) ∧
  t.runs = [] ∧ t.seqs = [] ∧ t.tim.tpo = [] ∧
  (∀ e, (t.eng e).sr = [] ∧ (t.eng e).lc = [] ∧ (t.eng e).timerEnd = 0 ∧ (t.eng e).calls = [] ∧ (t.eng e).open? = none) ∧
  (∀ k < 16, (t.awg k).eff.mode = 0 ∧ bit (t.trg k).ctrl 31 = false) ∧ t.cqs = s.cqs ∧ t.intake = s.intake

/-- Steps 2 to 4 of a warm reset from `s`, in which every store loads (R352, R453, R491): the engines are IDLE, started commands end
ABORTED_RESET, the device serves at its full level. -/
abbrev Restarts (counted : Bool) (cause : BitVec 4) (s t : State) : Prop :=
  t.boot.warmBusy = false ∧ t.boot.held = false ∧ t.boot.cause = cause ∧
    t.boot.warms = (if counted = true then satInc s.boot.warms else s.boot.warms) ∧ t.boot.active = s.boot.active ∧
    t.boot.fwAct = s.boot.fwAct ∧ t.boot.fwStby = s.boot.fwStby ∧
    t.boot.sl = (if s.boot.calDone = true then (if s.tim.refPresent = true then 3 else 2) else 1) ∧
    t.ce = s.ce ∧ (∀ e < 144, (t.eng e).state = 0 ∧ (t.eng e).loading = false) ∧
    (cause = 4 → bit s.flt.dump 15 = true → (t.source srcDumpDone).alarm = true) ∧
    ((∀ x ∈ s.journal, x.retry = none) → (∀ d, (s.dpsOf d).cmds = []) → ∀ w ∈ s.works, w.started = true →
      t.queues = s.queues ∧ t.work? w.key = none ∧
        ∃ r ∈ t.compl, r.key = w.key ∧ r.cls = 7 ∧ r.code = BitVec.ofNat 12 Code.resetWarm)

/-- Warm resets (R63, R149, R453, R456, R469, R488, R491, R492, R511): RST_N low holds one, its rise ends it; one that was asked
for runs through; the exit from SL0 with retention follows its path. A dump is written first. Model's choices in it: log entries
16, 53 and 55. -/
def Obligations.WarmResetsHaveTheirEffect : Prop :=
  (∀ s, s.flt.dumping = true →
    (∃ t, exec .rstNLow s = .next t ∧ t = { s with flt := { s.flt with warmAfter := true } }) ∧
    (∃ t, exec .rstNRise s = .next t ∧ t = { s with flt := { s.flt with warmAfter := false } })) ∧
  (∀ s, s.flt.dumping = false → s.powered = true → NoEntries s →
    ∃ t, exec .rstNLow s = .next t ∧ t.mono = s.mono + usSteps ∧ t.boot.warmBusy = true ∧ t.boot.held = true ∧
      t.boot.warmCause = 2 ∧ t.boot.sl = s.boot.sl ∧ Quieted s t ∧ ((∀ d, (s.dpsOf d).cmds = []) → t.compl = s.compl ∧ t.journal = s.journal ∧ t.queues = s.queues ∧
        ∀ k, (t.work? k).isSome = (s.work? k).isSome) ∧
      t.grn.mem = s.grn.mem ∧ t.ce = s.ce) ∧
  (∀ s, s.flt.dumping = false → s.boot.coldPend = false → s.boot.warmBusy = true → s.boot.held = true → StoresLoad s →
    ∃ t, exec .rstNRise s = .next t ∧ t.mono = s.mono + 2 * usSteps + 6 * msSteps ∧ Restarts true s.boot.warmCause s t ∧
      t.pins = s.pins ∧ t.runs.length = s.runs.length) ∧
  (∀ s, s.boot.warmBusy = true → s.boot.held = false → s.boot.coldPend = false → StoresLoad s → NoEntries s →
    ∃ t, exec .warmReset s = .next t ∧ t.mono = s.mono + 2 * usSteps + 6 * msSteps ∧ Restarts true s.boot.warmCause s t ∧ Quieted s t) ∧
  (∀ s, s.thm.inSl0 = true → s.boot.off = false → bit s.thm.sl0 1 = true → StoresLoad s → NoEntries s →
    ∃ t, exec .sl0Exit s = .next t ∧ t.mono = s.mono + 2 * usSteps + 6 * msSteps ∧ t.thm.inSl0 = false ∧ Restarts false 5 s t ∧
      Quieted s t) ∧
  (∀ trunc s, s.flt.dumping = true →
    ∃ t, exec (.dumpComplete trunc) s = .next t ∧ t.flt.dumping = false ∧ t.boot.warmBusy = true ∧ t.boot.warmCause = 4 ∧
      (s.flt.warmAfter = true → t.boot.held = true) ∧
      fld t.flt.dump 16 16 = (fld s.flt.dump 16 16 + 1) % 65536 ∧ bit t.flt.dump 15 = true ∧ bit t.flt.dump 14 = true ∧
      bit t.flt.dump 12 = trunc ∧ fld t.flt.dump 10 2 = (dumpStacks s).foldl (fun n j => n + 2 ^ j) 0 ∧
      (∀ j ∈ dumpStacks s, memReads t.grn.mem (dumpBase s j) 4 = leBytes 4 0x5A444D50) ∧
      t.flt.fatalTimes.head? = some t.mono ∧ s.mono ≤ t.mono ∧ t.mono ≤ s.mono + 50 * msSteps ∧
      (trunc = true → t.mono = s.mono + 50 * msSteps))

/-- A start from nothing leaves the blocks as R486 has them: every pin as at power-up, the time unset, no run, queue 0 and CQ 0 alone. -/
abbrev StartsFresh (s t : State) : Prop :=
  (∀ p, t.pin p = {}) ∧ t.runs = [] ∧ t.works = [] ∧ t.journal = [] ∧ t.queues = State.reset.queues ∧ t.cqs = State.reset.cqs ∧
    t.grn.slots = [] ∧ t.tim.tpo = [] ∧ t.pending = s.pending ∧ t.devid = s.devid ∧ t.journalLost = true ∧
    (t.source srcJournalLost).alarm = true ∧ t.boot.sl = 1 ∧ t.boot.warmBusy = false ∧ t.boot.coldPend = false ∧
    t.boot.off = false ∧ t.boot.calDone = false ∧ t.boot.active = false ∧ t.mono = s.mono + 2 * msSteps

/-- The control stores hold the seed image's words (R172), or with both sections bad HALT words, with EN 0. -/
abbrev StoresFromSeed (s t : State) : Prop :=
  let b := s.boot
  (∀ e < 144, let l := if e < 128 then b.sliceImg else b.bayImg
    if b.mcFirstBad = true ∧ b.mcSecondBad = true then
      (∀ a, (t.eng e).entry a = haltEntry) ∧ bit (t.eng e).ctrl 18 = false
    else
      (∀ a, (t.eng e).entry a = entryOf (l.getD a.toNat haltWord)) ∧ (t.eng e).ver = b.mcVersion ∧ (t.eng e).bank = false ∧
        bit (t.eng e).ctrl 18 = true) ∧
    (b.mcFirstBad = true → (t.source srcSeedMc).alarm = true)

/-- The firmware that a cold start loads (R483, R485): of the copies that verify the one with the higher VERSION, copy 0 of equal ones; with
none the device is in recovery. A copy that a write-back left incomplete does not verify. -/
abbrev FirmwareLoads (s t : State) : Prop :=
  let b := s.boot
  let bad0 := b.fwBad0 = true ∨ b.flashWb = true ∧ b.fwVer0.toNat < b.fwVer1.toNat
  let bad1 := b.fwBad1 = true ∨ b.flashWb = true ∧ ¬b.fwVer0.toNat < b.fwVer1.toNat
  (bad0 → bad1 → t.boot.recovery = true) ∧
    (bad0 → ¬bad1 → t.boot.recovery = false ∧ t.boot.fwCopy = true ∧ t.boot.fwAct = b.fwVer1 ∧ t.boot.fwStby = b.fwVer1) ∧
    (¬bad0 → bad1 → t.boot.recovery = false ∧ t.boot.fwCopy = false ∧ t.boot.fwAct = b.fwVer0 ∧ t.boot.fwStby = b.fwVer0) ∧
    (¬bad0 → ¬bad1 → t.boot.recovery = false ∧ t.boot.fwCopy = decide (b.fwVer0.toNat < b.fwVer1.toNat) ∧
      t.boot.fwAct = (if b.fwVer0.toNat < b.fwVer1.toNat then b.fwVer1 else b.fwVer0) ∧ t.boot.fwStby = t.boot.fwAct)

/-- Cold resets and starts (R172, R279, R355, R457, R469, R481 to R488): a cold reset puts every output off; a cold start loads
firmware and stores and reaches SL1, or with a failed flash stays below with FAULT_N held; start-up calibration leads to full
service; an exit from SL0 without retention is a cold start that keeps system time and the Gleaner. Model's choices in it: log
entries 2, 13, 16, 54 and 55. -/
def Obligations.ColdStartsHaveTheirEffect : Prop :=
  (∀ s, s.boot.off = false → s.thm.shutdown = false →
    ∃ t, exec .coldReset s = .next t ∧ t.boot.coldPend = true ∧ t.boot.warmBusy = true ∧ t.boot.held = false ∧
      t.flt.dumping = false ∧ (∀ p < 256, (t.pin p).stage = .safe ∧ bit (t.pin p).ctrl 16 = false) ∧
      (∀ d < 32, bit (t.dpsOf d).ctrl 16 = false ∧ fld (t.dpsOf d).stat 0 2 = 0) ∧ (∀ m < 64, (t.mon m).en = false) ∧
      (∀ k < 16, (t.awg k).eff.mode = 0) ∧ t.mono = s.mono) ∧
  (∀ ref s, s.boot.flashOk = true → (s.boot.off = true ∨ s.boot.coldPend = true) →
    ∃ t, exec (.coldStart true ref) s = .next t ∧ StartsFresh s t ∧ StoresFromSeed s t ∧ FirmwareLoads s t ∧
      t.tim.tq = 0 ∧ t.tim.refPresent = ref ∧ t.ce = 0 ∧
      (s.boot.off = true → t.flt.gleaner = [] ∧ t.boot.cause = 0) ∧
      (s.boot.off = false → t.flt.gleaner.map (·.seq) = s.flt.gleaner.map (·.seq) ∧ t.boot.cause = 1)) ∧
  (∀ ref s, s.boot.flashOk = true → (s.boot.off = true ∨ s.boot.coldPend = true) →
    ∃ t, exec (.coldStart false ref) s = .next t ∧ t.boot.sl = 1 ∧ t.boot.off = false ∧ (t.source srcPeRail).alarm = true ∧
      t.peRail = true ∧ StoresFromSeed s t ∧ FirmwareLoads s t) ∧
  (∀ vpe ref s, s.boot.flashOk = false → (s.boot.off = true ∨ s.boot.coldPend = true) →
    ∃ t, exec (.coldStart vpe ref) s = .next t ∧ t.boot.sl = 0 ∧ t.flt.asserted = true ∧ bit t.flt.pin 30 = true ∧
      (∃ r ∈ t.flt.gleaner, r.src = BitVec.ofNat 12 srcFlash)) ∧
  (∀ s, s.serving = true → s.boot.sl = 1 → s.boot.calDone = false → s.boot.recovery = false → s.boot.coefNom = false →
    s.peRail = false →
    ∃ t, exec .startupCalDone s = .next t ∧ t.boot.calDone = true ∧ t.boot.sl = (if s.tim.refPresent = true then 3 else 2) ∧
      t.ce ≠ 0 ∧ t.pins = s.pins ∧ t.engines = s.engines ∧ t.grn = s.grn ∧ t.queues = s.queues ∧ t.journal = s.journal ∧
      t.mono = s.mono) ∧
  (∀ s, s.thm.inSl0 = true → s.boot.off = false → bit s.thm.sl0 1 = false → s.boot.flashOk = true → s.peRail = false →
    ∃ t, exec .sl0Exit s = .next t ∧ StartsFresh s t ∧ StoresFromSeed s t ∧ FirmwareLoads s t ∧ t.boot.cause = 6 ∧
      t.now = s.now + BitVec.ofNat 80 (2 * msSteps) ∧ t.flt.gleaner.map (·.seq) = s.flt.gleaner.map (·.seq) ∧ t.thm.inSl0 = false)

/-! ## The block as a whole -/

/-- Host commands with their opcode, the scopes that take them and the length of their parameters (spec/15_command_catalogue.md), part A. -/
abbrev hostRowsA : List (Nat × Nat × Nat × (Cmd → Instr)) :=
  [(0x000, 1, 0, .devInfo), (0x002, 29, 8, .devRegWrite), (0x010, 8, 0, .devResetSlice), (0x011, 4, 0, .devResetBay),
   (0x012, 1, 0, .devResetWarm), (0x020, 1, 8, .devFwStage), (0x021, 1, 0, .devFwSwitch), (0x100, 1, 16, .queCreate),
   (0x101, 1, 8, .queDelete), (0x102, 1, 8, .queResume), (0x103, 1, 8, .queStatus), (0x110, 1, 8, .queCqCreate),
   (0x111, 1, 8, .queCqDelete), (0x200, 1, 16, .grnRead), (0x204, 1, 8, .grnSegStatus), (0x205, 1, 8, .grnCapFree),
   (0x300, 16, 280, .strSite), (0x301, 16, 0, .strSiteRelease), (0x302, 2, 16, .strSheaf), (0x303, 2, 32, .strStart)]

/-- Host commands with their opcode, the scopes that take them and the length of their parameters (spec/15_command_catalogue.md), part B. -/
abbrev hostRowsB : List (Nat × Nat × Nat × (Cmd → Instr)) :=
  [(0x304, 18, 0, .strStop), (0x306, 18, 0, .strStatus), (0x401, 13, 8, .engStoreMaster), (0x402, 12, 8, .engReload),
   (0x500, 29, 32, .pinLevels), (0x501, 29, 24, .pinThresh), (0x502, 29, 24, .pinLoad), (0x503, 29, 16, .pinClamp),
   (0x504, 29, 16, .pinCtrl), (0x505, 29, 24, .pinTset), (0x603, 29, 8, .pmuMeas), (0x604, 29, 8, .pmuDisc),
   (0x700, 17, 64, .tdcCapture), (0x701, 8, 32, .tdcInterval), (0x702, 29, 16, .tdcFreq), (0x703, 25, 8, .tdcStop),
   (0x704, 29, 16, .tdcCalRead), (0x800, 21, 8, .pwrOn), (0x801, 21, 8, .pwrOff), (0x802, 21, 8, .pwrSet)]

/-- Host commands with their opcode, the scopes that take them and the length of their parameters (spec/15_command_catalogue.md), part C. -/
abbrev hostRowsC : List (Nat × Nat × Nat × (Cmd → Instr)) :=
  [(0x805, 21, 16, .pwrGang), (0x900, 4, 16, .anaLoad), (0x901, 4, 40, .anaSource), (0x902, 4, 0, .anaSourceStop),
   (0x903, 4, 8, .anaSpan), (0x904, 4, 56, .anaCapture), (0x905, 4, 0, .anaCaptureStop), (0xA00, 1, 8, .trgArm),
   (0xA01, 1, 8, .trgDisarm), (0xA02, 1, 8, .trgFire), (0xA03, 4, 24, .trgAcquire), (0xA04, 4, 0, .trgAcqStop),
   (0xB00, 1, 24, .timSet), (0xB02, 1, 8, .timTci), (0xB03, 1, 0, .timSyncCal), (0xB04, 1, 8, .timRelease),
   (0xB05, 1, 16, .timAsym), (0xB06, 1, 0, .timStatus), (0xC00, 1, 8, .lnkTrain), (0xC01, 1, 8, .lnkPort)]

/-- Host commands with their opcode, the scopes that take them and the length of their parameters (spec/15_command_catalogue.md), part D. -/
abbrev hostRowsD : List (Nat × Nat × Nat × (Cmd → Instr)) :=
  [(0xC03, 1, 8, .lnkMcast), (0xC04, 1, 8, .lnkStatus), (0xD00, 1, 0, .fltAck), (0xD01, 1, 16, .fltSource),
   (0xD02, 1, 8, .fltRead), (0xD03, 1, 0, .fltAlarms), (0xD04, 1, 64, .fltAlarmClr), (0xD05, 1, 0, .fltSnapRelease),
   (0xE00, 1, 0, .thmStatus), (0xE01, 4, 0, .thmBaySleep), (0xE02, 4, 0, .thmBayWake), (0xE03, 4, 8, .thmBayPin),
   (0xE04, 1, 8, .thmVinMode), (0xE05, 1, 8, .thmTdLimit), (0xF00, 1, 16, .obsTrace), (0xF01, 1, 8, .obsCounters)]
/-- A refused command changes nothing (R97, R223, R342, R351, R358, R359, R491): while the device serves no commands, or for a
command that has ended, nothing happens; a scope that its entry does not list and a parameter block of another length are
refused before anything else; a write of an ACTIVE segment is refused with the slot and a stream that holds it; a refused
execution by QUE.RESUME reports to that. A WIN.MARK without an admitted run or with LOGRATE 0 sets REFUSE alone. The order of
checks, DETAIL 0 and the report of a refused RETRY are the model's choices (log entries 11, 15, 17 and 47). -/
def Obligations.RefusedCommandsChangeNothing : Prop :=
  (∀ r ∈ hostRowsA ++ hostRowsB ++ hostRowsC ++ hostRowsD, ∀ c s,
    ((s.serving = false ∨ mayRun r.1 c s = false) → exec (r.2.2.2 c) s = .next s) ∧
    (s.serving = true → mayRun r.1 c s = true → (s.entry? c.key).bind (·.retry) = none →
      (∀ tg, c.target = some tg → r.2.1 &&& tg.scopeBit = 0) → c.params.length = r.2.2.1 →
      ∃ t, exec (r.2.2.2 c) s = .next t ∧ EndedWith c.key 3 Code.scope 0 s t ∧ t = book t s) ∧
    (∀ tg, s.serving = true → mayRun r.1 c s = true → (s.entry? c.key).bind (·.retry) = none →
      c.target = some tg → r.2.1 &&& tg.scopeBit ≠ 0 → c.params.length ≠ r.2.2.1 →
      ∃ t, exec (r.2.2.2 c) s = .next t ∧ EndedWith c.key 3 Code.paramLen 0 s t ∧ t = book t s) ∧
    (∀ tg e rk, s.serving = true → mayRun r.1 c s = true → s.entry? c.key = some e → e.retry = some rk → rk ≠ c.key →
      c.target = some tg → r.2.1 &&& tg.scopeBit ≠ 0 → c.params.length ≠ r.2.2.1 →
      ∃ t x, exec (r.2.2.2 c) s = .next t ∧ t.work? rk = none ∧ t.work? c.key = none ∧ t.compl = s.compl ++ [x] ∧ x.key = rk ∧
        x.cls = 3 ∧ x.code = BitVec.ofNat 12 Code.paramLen ∧ t = bookQ t s ∧
        (∀ q, t.queue q =
          if q = c.qid.toNat ∧ (s.queue q).state = 2 then { s.queue q with state := 1 } else s.queue q))) ∧
  (∀ c s tg, let u := takeCommits s; let slot := c.u 0 8 / slotSize
    Runs 0x201 1 c tg u → 16 ≤ c.params.length → c.params.length % 8 = 0 → c.u 0 8 % 8 = 0 → c.u 0 8 < grnSize u →
    regionOf u slot = .pattern → c.u 0 8 % slotSize + (c.params.length - 8) ≤ slotSize → slotFenceCheck u slot = none →
    segState u slot = 3 →
    ∃ t x, exec (.grnWrite c) s = .next t ∧ EndedWith c.key 2 Code.segActive 0 u t ∧ t.compl = u.compl ++ [x] ∧
      x.w6 = BitVec.ofNat 32 slot ∧
      ((∃ e ∈ u.runs, e.2.uses slot = true) → ∃ e ∈ u.runs, e.2.uses slot = true ∧ x.w7 = BitVec.ofNat 32 e.1) ∧
      t.grn = u.grn ∧ t = bookQ t u) ∧
  (∀ e w x s, IfuReady 4 2 e w s → homeSite s e.val = some x → (siteAdmitted s x = none ∨ (s.slice e.val).win.logRate = 0) →
    IfuActs .ifuWinMark true e w s (Refuses e))

/-- One step takes the command at the front of the queue and runs it with the rest behind it. On an empty queue one ECLK cycle passes and
nothing else changes (DESIGN CHOICE, log entry 9). -/
def Obligations.StepRunsTheFrontCommand : Prop :=
  (∀ i l (s : State), step { s with pending := i :: l } = exec i { s with pending := l }) ∧
  (∀ s : State, s.pending = [] → step s = .next { s with now := s.now + 2048#80, mono := s.mono + 2048 })

/-- The state right after reset (R64, R91, R115, R248, R259, R279, R293, R332, R356, R416, R437, R486): every pin SAFE and
disabled, no unit active, engines IDLE and enabled in trap mode, bays awake, queue 0 alone, TQ UNSET, ports CONTROL without
routes, SL1. Model's choices in it: log entries 1 and 2. -/
def Obligations.ResetStateIsAsSpecified : Prop :=
  let s := State.reset
  (∀ p, (s.pin p).stage = .safe ∧ bit (s.pin p).ctrl 16 = false ∧ bit (s.pin p).stat 0 = true ∧ (s.pin p).pmu.mode = 0 ∧
    (s.pin p).pmu.holder = 0 ∧ (s.pin p).tdc.holder = 0 ∧ (s.pin p).tdc.fifo = []) ∧
  (∀ d, (s.dpsOf d).isOff = true) ∧ (∀ m, (s.mon m).en = false) ∧
  (∀ k, (s.awg k).eff.mode = 0 ∧ bit (s.dig k).ctrl 31 = false ∧ bit (s.trg k).ctrl 31 = false ∧ (s.bay k).state = 0) ∧
  (∀ g, (s.group g).state = 0) ∧
  (∀ e, (s.eng e).state = 0 ∧ (s.eng e).ctrl = 0x00040000#32 ∧ (s.eng e).even = 0 ∧ (s.eng e).sr = [] ∧ (s.eng e).lc = [] ∧
    (s.eng e).calls = []) ∧
  s.queue 0 = { state := 1, flags := 0, cq := 0, domain := 0, credits := 16, maxlen := 510, sources := 0x7F } ∧
  (∀ q, q ≠ 0 → (s.queue q).state = 0) ∧ (s.cq 0).state = 1 ∧ (∀ n, n ≠ 0 → (s.cq n).state = 0) ∧
  (∀ i < 2 * slotsPerStack s, (s.slot i).st = 0) ∧ patternSlots s 0 = 11392 ∧ patternSlots s 1 = 11424 ∧
  s.now = 0 ∧ s.tim.tq = 0 ∧ bit s.tim.cfg 0 = false ∧ s.tim.tpo = [] ∧ s.role = 0x3F#32 ∧ s.routes = [] ∧ s.journalLost = true ∧
  (∀ i < 512, (s.source i).base = resetBase i ∧ (s.source i).alarm = false ∧ (s.source i).entry = none) ∧
  s.obs.en = false ∧ s.obs.buffer = [] ∧ s.boot.sl = 1 ∧ s.ce = 0 ∧ s.runs = [] ∧ s.works = [] ∧ s.journal = [] ∧ s.pending = []

/-- The invariant holds right after reset. -/
def Obligations.InvariantHoldsAtReset : Prop := State.reset.Inv

/-- Every step keeps the invariant (R445, R510, and the canonical forms of the model's tables): memory, pins and fault sources
stay in canonical form, the Gleaner holds at most 256 records, the trace buffer at most 4,096. Model's choices in it: log entry
20. -/
def Obligations.EveryStepKeepsTheInvariant : Prop := ∀ s t, s.Inv → step s = .next t → t.Inv
end

