-- ==== Sys2Proof/Laws/Bits.lean ====
section
/-!
SUPPORT. Laws of bit fields: a field reads back what was put into it, and no other bit changes.
-/
namespace Sys2Proof.Machine

/-- A bit of a word whose field was replaced. -/
theorem bit_setFld {n : Nat} (w : BitVec n) (lo len v j : Nat) (hj : j < n) :
    bit (setFld w lo len v) j = if lo ≤ j ∧ j < lo + len then v.testBit (j - lo) else bit w j := by
  unfold bit setFld
  simp only [BitVec.getLsbD_or, BitVec.getLsbD_and, BitVec.getLsbD_not, BitVec.getLsbD_ofNat, hj, decide_true, Bool.true_and,
    Nat.testBit_shiftLeft, Nat.testBit_two_pow_sub_one, Nat.testBit_mod_two_pow]
  by_cases h1 : lo ≤ j
  · by_cases h2 : j < lo + len
    · have h3 : j - lo < len := by omega
      simp [h1, h2, h3]
    · have h3 : ¬ j - lo < len := by omega
      simp [h1, h2, h3]
  · simp [h1]

/-- A bit of a word one of whose bits was replaced. -/
theorem bit_setBit {n : Nat} (w : BitVec n) (i j : Nat) (b : Bool) (hi : i < n) :
    bit (setBit w i b) j = if j = i then b else bit w j := by
  by_cases hj : j < n
  · unfold setBit
    rw [bit_setFld _ _ _ _ _ hj]
    by_cases h : j = i
    · subst h; cases b <;> simp
    · rw [if_neg (by omega), if_neg h]
  · have h : j ≠ i := by omega
    rw [if_neg h]
    unfold bit
    rw [BitVec.getLsbD_of_ge _ _ (by omega), BitVec.getLsbD_of_ge _ _ (by omega)]

@[simp] theorem bit_setBit_same {n : Nat} (w : BitVec n) (i : Nat) (b : Bool) (hi : i < n) : bit (setBit w i b) i = b := by
  rw [bit_setBit _ _ _ _ hi, if_pos rfl]

theorem bit_setBit_other {n : Nat} (w : BitVec n) {i j : Nat} (b : Bool) (hi : i < n) (h : j ≠ i) :
    bit (setBit w i b) j = bit w j := by
  rw [bit_setBit _ _ _ _ hi, if_neg h]

/-- A bit of a field read as a number. -/
theorem testBit_fld {n : Nat} (w : BitVec n) (lo len j : Nat) : (fld w lo len).testBit j = (decide (j < len) && bit w (lo + j)) := by
  unfold fld bit
  rw [Nat.testBit_mod_two_pow, Nat.testBit_shiftRight, BitVec.testBit_toNat]

/-- A field reads back what was put into it. -/
theorem fld_setFld {n : Nat} (w : BitVec n) (lo len v : Nat) (h : lo + len ≤ n) : fld (setFld w lo len v) lo len = v % 2 ^ len := by
  apply Nat.eq_of_testBit_eq
  intro j
  rw [testBit_fld, Nat.testBit_mod_two_pow]
  by_cases hj : j < len
  · rw [bit_setFld _ _ _ _ _ (by omega), if_pos (by omega)]
    simp [hj]
  · simp [hj]

/-- A field apart from the one replaced keeps its value. -/
theorem fld_setFld_other {n : Nat} (w : BitVec n) (lo len v lo' len' : Nat) (h : lo' + len' ≤ n)
    (hd : lo' + len' ≤ lo ∨ lo + len ≤ lo') : fld (setFld w lo len v) lo' len' = fld w lo' len' := by
  apply Nat.eq_of_testBit_eq
  intro j
  rw [testBit_fld, testBit_fld]
  by_cases hj : j < len'
  · rw [bit_setFld _ _ _ _ _ (by omega), if_neg (by omega)]
  · simp [hj]

end Sys2Proof.Machine
end

