-- ==== Sys2Proof/Laws/State.lean ====
section
/-!
SUPPORT. The small lemmas of State: what reading a unit gives after an update of one, and one lemma per field per update.
-/
namespace Sys2Proof.Machine

/-! ## Tables -/

/-- Reading a table after a write: the written entry at its key, every other entry as before. -/
@[simp] theorem Tab.get_set {α : Type} (d : α) (t : Tab α) (k j : Nat) (v : α) :
    Tab.get d (Tab.set t k v) j = if j = k then v else Tab.get d t j := by
  induction t with
  | nil => rfl
  | cons e t ih =>
    obtain ⟨k', v'⟩ := e
    unfold Tab.set
    split
    · subst_vars
      simp only [Tab.get]
      split <;> simp_all
    · split
      · simp [Tab.get]
      · simp only [Tab.get, ih]
        split
        · rename_i h; subst h
          rw [if_neg (fun h => by simp_all)]
        · rfl

theorem Tab.get_upd {α : Type} (d : α) (t : Tab α) (k j : Nat) (f : α → α) :
    Tab.get d (Tab.upd d t k f) j = if j = k then f (Tab.get d t k) else Tab.get d t j := Tab.get_set ..

@[simp] theorem Tab.get_upd_same {α : Type} (d : α) (t : Tab α) (k : Nat) (f : α → α) :
    Tab.get d (Tab.upd d t k f) k = f (Tab.get d t k) := by rw [Tab.get_upd, if_pos rfl]

theorem Tab.find_set {α : Type} (t : Tab α) (k j : Nat) (v : α) :
    Tab.find (Tab.set t k v) j = if j = k then some v else Tab.find t j := by
  induction t with
  | nil => rfl
  | cons e t ih =>
    obtain ⟨k', v'⟩ := e
    unfold Tab.set
    split
    · subst_vars
      simp only [Tab.find]
      split <;> simp_all
    · split
      · simp [Tab.find]
      · simp only [Tab.find, ih]
        split
        · rename_i h; subst h
          rw [if_neg (fun h => by simp_all)]
        · rfl

/-! ## Units after the update of one -/

theorem State.updPin_pin (s : State) (i j : Nat) (f : Pin → Pin) :
    (s.updPin i f).pin j = if j = i then f (s.pin i) else s.pin j := Tab.get_upd ..
@[simp] theorem State.updPin_pin_same (s : State) (i : Nat) (f : Pin → Pin) :
    (s.updPin i f).pin i = f (s.pin i) := Tab.get_upd_same ..
theorem State.updPin_pin_other (s : State) {i j : Nat} (h : j ≠ i) (f : Pin → Pin) :
    (s.updPin i f).pin j = s.pin j := by rw [State.updPin_pin, if_neg h]

theorem State.updSlice_slice (s : State) (i j : Nat) (f : Slice → Slice) :
    (s.updSlice i f).slice j = if j = i then f (s.slice i) else s.slice j := Tab.get_upd ..
@[simp] theorem State.updSlice_slice_same (s : State) (i : Nat) (f : Slice → Slice) :
    (s.updSlice i f).slice i = f (s.slice i) := Tab.get_upd_same ..
theorem State.updSlice_slice_other (s : State) {i j : Nat} (h : j ≠ i) (f : Slice → Slice) :
    (s.updSlice i f).slice j = s.slice j := by rw [State.updSlice_slice, if_neg h]

theorem State.updEng_eng (s : State) (i j : Nat) (f : Engine → Engine) :
    (s.updEng i f).eng j = if j = i then f (s.eng i) else s.eng j := Tab.get_upd ..
@[simp] theorem State.updEng_eng_same (s : State) (i : Nat) (f : Engine → Engine) :
    (s.updEng i f).eng i = f (s.eng i) := Tab.get_upd_same ..
theorem State.updEng_eng_other (s : State) {i j : Nat} (h : j ≠ i) (f : Engine → Engine) :
    (s.updEng i f).eng j = s.eng j := by rw [State.updEng_eng, if_neg h]

theorem State.updDps_dpsOf (s : State) (i j : Nat) (f : Dps → Dps) :
    (s.updDps i f).dpsOf j = if j = i then f (s.dpsOf i) else s.dpsOf j := Tab.get_upd ..
@[simp] theorem State.updDps_dpsOf_same (s : State) (i : Nat) (f : Dps → Dps) :
    (s.updDps i f).dpsOf i = f (s.dpsOf i) := Tab.get_upd_same ..
theorem State.updDps_dpsOf_other (s : State) {i j : Nat} (h : j ≠ i) (f : Dps → Dps) :
    (s.updDps i f).dpsOf j = s.dpsOf j := by rw [State.updDps_dpsOf, if_neg h]

theorem State.updMon_mon (s : State) (i j : Nat) (f : Mon → Mon) :
    (s.updMon i f).mon j = if j = i then f (s.mon i) else s.mon j := Tab.get_upd ..
@[simp] theorem State.updMon_mon_same (s : State) (i : Nat) (f : Mon → Mon) :
    (s.updMon i f).mon i = f (s.mon i) := Tab.get_upd_same ..
theorem State.updMon_mon_other (s : State) {i j : Nat} (h : j ≠ i) (f : Mon → Mon) :
    (s.updMon i f).mon j = s.mon j := by rw [State.updMon_mon, if_neg h]

theorem State.updBay_bay (s : State) (i j : Nat) (f : Bay → Bay) :
    (s.updBay i f).bay j = if j = i then f (s.bay i) else s.bay j := Tab.get_upd ..
@[simp] theorem State.updBay_bay_same (s : State) (i : Nat) (f : Bay → Bay) :
    (s.updBay i f).bay i = f (s.bay i) := Tab.get_upd_same ..
theorem State.updBay_bay_other (s : State) {i j : Nat} (h : j ≠ i) (f : Bay → Bay) :
    (s.updBay i f).bay j = s.bay j := by rw [State.updBay_bay, if_neg h]

theorem State.updGroup_group (s : State) (i j : Nat) (f : Ag → Ag) :
    (s.updGroup i f).group j = if j = i then f (s.group i) else s.group j := Tab.get_upd ..
@[simp] theorem State.updGroup_group_same (s : State) (i : Nat) (f : Ag → Ag) :
    (s.updGroup i f).group i = f (s.group i) := Tab.get_upd_same ..
theorem State.updGroup_group_other (s : State) {i j : Nat} (h : j ≠ i) (f : Ag → Ag) :
    (s.updGroup i f).group j = s.group j := by rw [State.updGroup_group, if_neg h]

theorem State.updPort_port (s : State) (i j : Nat) (f : Port → Port) :
    (s.updPort i f).port j = if j = i then f (s.port i) else s.port j := Tab.get_upd ..
@[simp] theorem State.updPort_port_same (s : State) (i : Nat) (f : Port → Port) :
    (s.updPort i f).port i = f (s.port i) := Tab.get_upd_same ..
theorem State.updPort_port_other (s : State) {i j : Nat} (h : j ≠ i) (f : Port → Port) :
    (s.updPort i f).port j = s.port j := by rw [State.updPort_port, if_neg h]

theorem State.updQueue_queue (s : State) (i j : Nat) (f : Queue → Queue) :
    (s.updQueue i f).queue j = if j = i then f (s.queue i) else s.queue j := Tab.get_upd ..
@[simp] theorem State.updQueue_queue_same (s : State) (i : Nat) (f : Queue → Queue) :
    (s.updQueue i f).queue i = f (s.queue i) := Tab.get_upd_same ..
theorem State.updQueue_queue_other (s : State) {i j : Nat} (h : j ≠ i) (f : Queue → Queue) :
    (s.updQueue i f).queue j = s.queue j := by rw [State.updQueue_queue, if_neg h]

theorem State.updCq_cq (s : State) (i j : Nat) (f : Cq → Cq) :
    (s.updCq i f).cq j = if j = i then f (s.cq i) else s.cq j := Tab.get_upd ..
@[simp] theorem State.updCq_cq_same (s : State) (i : Nat) (f : Cq → Cq) :
    (s.updCq i f).cq i = f (s.cq i) := Tab.get_upd_same ..
theorem State.updCq_cq_other (s : State) {i j : Nat} (h : j ≠ i) (f : Cq → Cq) :
    (s.updCq i f).cq j = s.cq j := by rw [State.updCq_cq, if_neg h]

theorem State.updBlk_blk (s : State) (i j : Nat) (f : Blk → Blk) :
    (s.updBlk i f).blk j = if j = i then f (s.blk i) else s.blk j := Tab.get_upd ..
@[simp] theorem State.updBlk_blk_same (s : State) (i : Nat) (f : Blk → Blk) :
    (s.updBlk i f).blk i = f (s.blk i) := Tab.get_upd_same ..
theorem State.updBlk_blk_other (s : State) {i j : Nat} (h : j ≠ i) (f : Blk → Blk) :
    (s.updBlk i f).blk j = s.blk j := by rw [State.updBlk_blk, if_neg h]

theorem State.updTport_tport (s : State) (i j : Nat) (f : TPort → TPort) :
    (s.updTport i f).tport j = if j = i then f (s.tport i) else s.tport j := Tab.get_upd ..

theorem State.updZone_zone (s : State) (i j : Nat) (f : Zone → Zone) :
    (s.updZone i f).zone j = if j = i then f (s.zone i) else s.zone j := Tab.get_upd ..

theorem State.updSlot_slot (s : State) (i j : Nat) (f : Slot → Slot) :
    (s.updSlot i f).slot j = if j = i then f (s.slot i) else s.slot j := Tab.get_upd ..

/-! ## Fields after `updPin` -/

@[simp] theorem State.updPin_f_pending (s : State) (i : Nat) (f : Pin → Pin) : (s.updPin i f).pending = s.pending := rfl
@[simp] theorem State.updPin_f_now (s : State) (i : Nat) (f : Pin → Pin) : (s.updPin i f).now = s.now := rfl
@[simp] theorem State.updPin_f_mono (s : State) (i : Nat) (f : Pin → Pin) : (s.updPin i f).mono = s.mono := rfl
@[simp] theorem State.updPin_f_part16 (s : State) (i : Nat) (f : Pin → Pin) : (s.updPin i f).part16 = s.part16 := rfl
@[simp] theorem State.updPin_f_devid (s : State) (i : Nat) (f : Pin → Pin) : (s.updPin i f).devid = s.devid := rfl
@[simp] theorem State.updPin_f_ce (s : State) (i : Nat) (f : Pin → Pin) : (s.updPin i f).ce = s.ce := rfl
@[simp] theorem State.updPin_f_boot (s : State) (i : Nat) (f : Pin → Pin) : (s.updPin i f).boot = s.boot := rfl
@[simp] theorem State.updPin_f_works (s : State) (i : Nat) (f : Pin → Pin) : (s.updPin i f).works = s.works := rfl
@[simp] theorem State.updPin_f_compl (s : State) (i : Nat) (f : Pin → Pin) : (s.updPin i f).compl = s.compl := rfl
@[simp] theorem State.updPin_f_queues (s : State) (i : Nat) (f : Pin → Pin) : (s.updPin i f).queues = s.queues := rfl
@[simp] theorem State.updPin_f_cqs (s : State) (i : Nat) (f : Pin → Pin) : (s.updPin i f).cqs = s.cqs := rfl
@[simp] theorem State.updPin_f_intake (s : State) (i : Nat) (f : Pin → Pin) : (s.updPin i f).intake = s.intake := rfl
@[simp] theorem State.updPin_f_journal (s : State) (i : Nat) (f : Pin → Pin) : (s.updPin i f).journal = s.journal := rfl
@[simp] theorem State.updPin_f_jsn (s : State) (i : Nat) (f : Pin → Pin) : (s.updPin i f).jsn = s.jsn := rfl
@[simp] theorem State.updPin_f_jtail (s : State) (i : Nat) (f : Pin → Pin) : (s.updPin i f).jtail = s.jtail := rfl
@[simp] theorem State.updPin_f_jfull (s : State) (i : Nat) (f : Pin → Pin) : (s.updPin i f).jfull = s.jfull := rfl
@[simp] theorem State.updPin_f_journalLost (s : State) (i : Nat) (f : Pin → Pin) : (s.updPin i f).journalLost = s.journalLost := rfl
@[simp] theorem State.updPin_f_role (s : State) (i : Nat) (f : Pin → Pin) : (s.updPin i f).role = s.role := rfl
@[simp] theorem State.updPin_f_crcerr (s : State) (i : Nat) (f : Pin → Pin) : (s.updPin i f).crcerr = s.crcerr := rfl
@[simp] theorem State.updPin_f_dups (s : State) (i : Nat) (f : Pin → Pin) : (s.updPin i f).dups = s.dups := rfl
@[simp] theorem State.updPin_f_spi (s : State) (i : Nat) (f : Pin → Pin) : (s.updPin i f).spi = s.spi := rfl
@[simp] theorem State.updPin_f_out (s : State) (i : Nat) (f : Pin → Pin) : (s.updPin i f).out = s.out := rfl
@[simp] theorem State.updPin_f_slices (s : State) (i : Nat) (f : Pin → Pin) : (s.updPin i f).slices = s.slices := rfl
@[simp] theorem State.updPin_f_caps (s : State) (i : Nat) (f : Pin → Pin) : (s.updPin i f).caps = s.caps := rfl
@[simp] theorem State.updPin_f_engines (s : State) (i : Nat) (f : Pin → Pin) : (s.updPin i f).engines = s.engines := rfl
@[simp] theorem State.updPin_f_dps (s : State) (i : Nat) (f : Pin → Pin) : (s.updPin i f).dps = s.dps := rfl
@[simp] theorem State.updPin_f_mons (s : State) (i : Nat) (f : Pin → Pin) : (s.updPin i f).mons = s.mons := rfl
@[simp] theorem State.updPin_f_blks (s : State) (i : Nat) (f : Pin → Pin) : (s.updPin i f).blks = s.blks := rfl
@[simp] theorem State.updPin_f_bays (s : State) (i : Nat) (f : Pin → Pin) : (s.updPin i f).bays = s.bays := rfl
@[simp] theorem State.updPin_f_groups (s : State) (i : Nat) (f : Pin → Pin) : (s.updPin i f).groups = s.groups := rfl
@[simp] theorem State.updPin_f_seqs (s : State) (i : Nat) (f : Pin → Pin) : (s.updPin i f).seqs = s.seqs := rfl
@[simp] theorem State.updPin_f_fenced (s : State) (i : Nat) (f : Pin → Pin) : (s.updPin i f).fenced = s.fenced := rfl
@[simp] theorem State.updPin_f_sites (s : State) (i : Nat) (f : Pin → Pin) : (s.updPin i f).sites = s.sites := rfl
@[simp] theorem State.updPin_f_sheaves (s : State) (i : Nat) (f : Pin → Pin) : (s.updPin i f).sheaves = s.sheaves := rfl
@[simp] theorem State.updPin_f_runs (s : State) (i : Nat) (f : Pin → Pin) : (s.updPin i f).runs = s.runs := rfl
@[simp] theorem State.updPin_f_starts (s : State) (i : Nat) (f : Pin → Pin) : (s.updPin i f).starts = s.starts := rfl
@[simp] theorem State.updPin_f_matchQ (s : State) (i : Nat) (f : Pin → Pin) : (s.updPin i f).match? = s.match? := rfl
@[simp] theorem State.updPin_f_grn (s : State) (i : Nat) (f : Pin → Pin) : (s.updPin i f).grn = s.grn := rfl
@[simp] theorem State.updPin_f_flt (s : State) (i : Nat) (f : Pin → Pin) : (s.updPin i f).flt = s.flt := rfl
@[simp] theorem State.updPin_f_tim (s : State) (i : Nat) (f : Pin → Pin) : (s.updPin i f).tim = s.tim := rfl
@[simp] theorem State.updPin_f_ports (s : State) (i : Nat) (f : Pin → Pin) : (s.updPin i f).ports = s.ports := rfl
@[simp] theorem State.updPin_f_routes (s : State) (i : Nat) (f : Pin → Pin) : (s.updPin i f).routes = s.routes := rfl
@[simp] theorem State.updPin_f_mcast (s : State) (i : Nat) (f : Pin → Pin) : (s.updPin i f).mcast = s.mcast := rfl
@[simp] theorem State.updPin_f_noroute (s : State) (i : Nat) (f : Pin → Pin) : (s.updPin i f).noroute = s.noroute := rfl
@[simp] theorem State.updPin_f_ttldrop (s : State) (i : Nat) (f : Pin → Pin) : (s.updPin i f).ttldrop = s.ttldrop := rfl
@[simp] theorem State.updPin_f_thm (s : State) (i : Nat) (f : Pin → Pin) : (s.updPin i f).thm = s.thm := rfl
@[simp] theorem State.updPin_f_obs (s : State) (i : Nat) (f : Pin → Pin) : (s.updPin i f).obs = s.obs := rfl
@[simp] theorem State.updPin_f_freeNo (s : State) (i : Nat) (f : Pin → Pin) : (s.updPin i f).freeNo = s.freeNo := rfl

/-! ## Fields after `updSlice` -/

@[simp] theorem State.updSlice_f_pending (s : State) (i : Nat) (f : Slice → Slice) : (s.updSlice i f).pending = s.pending := rfl
@[simp] theorem State.updSlice_f_now (s : State) (i : Nat) (f : Slice → Slice) : (s.updSlice i f).now = s.now := rfl
@[simp] theorem State.updSlice_f_mono (s : State) (i : Nat) (f : Slice → Slice) : (s.updSlice i f).mono = s.mono := rfl
@[simp] theorem State.updSlice_f_part16 (s : State) (i : Nat) (f : Slice → Slice) : (s.updSlice i f).part16 = s.part16 := rfl
@[simp] theorem State.updSlice_f_devid (s : State) (i : Nat) (f : Slice → Slice) : (s.updSlice i f).devid = s.devid := rfl
@[simp] theorem State.updSlice_f_ce (s : State) (i : Nat) (f : Slice → Slice) : (s.updSlice i f).ce = s.ce := rfl
@[simp] theorem State.updSlice_f_boot (s : State) (i : Nat) (f : Slice → Slice) : (s.updSlice i f).boot = s.boot := rfl
@[simp] theorem State.updSlice_f_works (s : State) (i : Nat) (f : Slice → Slice) : (s.updSlice i f).works = s.works := rfl
@[simp] theorem State.updSlice_f_compl (s : State) (i : Nat) (f : Slice → Slice) : (s.updSlice i f).compl = s.compl := rfl
@[simp] theorem State.updSlice_f_queues (s : State) (i : Nat) (f : Slice → Slice) : (s.updSlice i f).queues = s.queues := rfl
@[simp] theorem State.updSlice_f_cqs (s : State) (i : Nat) (f : Slice → Slice) : (s.updSlice i f).cqs = s.cqs := rfl
@[simp] theorem State.updSlice_f_intake (s : State) (i : Nat) (f : Slice → Slice) : (s.updSlice i f).intake = s.intake := rfl
@[simp] theorem State.updSlice_f_journal (s : State) (i : Nat) (f : Slice → Slice) : (s.updSlice i f).journal = s.journal := rfl
@[simp] theorem State.updSlice_f_jsn (s : State) (i : Nat) (f : Slice → Slice) : (s.updSlice i f).jsn = s.jsn := rfl
@[simp] theorem State.updSlice_f_jtail (s : State) (i : Nat) (f : Slice → Slice) : (s.updSlice i f).jtail = s.jtail := rfl
@[simp] theorem State.updSlice_f_jfull (s : State) (i : Nat) (f : Slice → Slice) : (s.updSlice i f).jfull = s.jfull := rfl
@[simp] theorem State.updSlice_f_journalLost (s : State) (i : Nat) (f : Slice → Slice) : (s.updSlice i f).journalLost = s.journalLost := rfl
@[simp] theorem State.updSlice_f_role (s : State) (i : Nat) (f : Slice → Slice) : (s.updSlice i f).role = s.role := rfl
@[simp] theorem State.updSlice_f_crcerr (s : State) (i : Nat) (f : Slice → Slice) : (s.updSlice i f).crcerr = s.crcerr := rfl
@[simp] theorem State.updSlice_f_dups (s : State) (i : Nat) (f : Slice → Slice) : (s.updSlice i f).dups = s.dups := rfl
@[simp] theorem State.updSlice_f_spi (s : State) (i : Nat) (f : Slice → Slice) : (s.updSlice i f).spi = s.spi := rfl
@[simp] theorem State.updSlice_f_out (s : State) (i : Nat) (f : Slice → Slice) : (s.updSlice i f).out = s.out := rfl
@[simp] theorem State.updSlice_f_pins (s : State) (i : Nat) (f : Slice → Slice) : (s.updSlice i f).pins = s.pins := rfl
@[simp] theorem State.updSlice_f_caps (s : State) (i : Nat) (f : Slice → Slice) : (s.updSlice i f).caps = s.caps := rfl
@[simp] theorem State.updSlice_f_engines (s : State) (i : Nat) (f : Slice → Slice) : (s.updSlice i f).engines = s.engines := rfl
@[simp] theorem State.updSlice_f_dps (s : State) (i : Nat) (f : Slice → Slice) : (s.updSlice i f).dps = s.dps := rfl
@[simp] theorem State.updSlice_f_mons (s : State) (i : Nat) (f : Slice → Slice) : (s.updSlice i f).mons = s.mons := rfl
@[simp] theorem State.updSlice_f_blks (s : State) (i : Nat) (f : Slice → Slice) : (s.updSlice i f).blks = s.blks := rfl
@[simp] theorem State.updSlice_f_bays (s : State) (i : Nat) (f : Slice → Slice) : (s.updSlice i f).bays = s.bays := rfl
@[simp] theorem State.updSlice_f_groups (s : State) (i : Nat) (f : Slice → Slice) : (s.updSlice i f).groups = s.groups := rfl
@[simp] theorem State.updSlice_f_seqs (s : State) (i : Nat) (f : Slice → Slice) : (s.updSlice i f).seqs = s.seqs := rfl
@[simp] theorem State.updSlice_f_fenced (s : State) (i : Nat) (f : Slice → Slice) : (s.updSlice i f).fenced = s.fenced := rfl
@[simp] theorem State.updSlice_f_sites (s : State) (i : Nat) (f : Slice → Slice) : (s.updSlice i f).sites = s.sites := rfl
@[simp] theorem State.updSlice_f_sheaves (s : State) (i : Nat) (f : Slice → Slice) : (s.updSlice i f).sheaves = s.sheaves := rfl
@[simp] theorem State.updSlice_f_runs (s : State) (i : Nat) (f : Slice → Slice) : (s.updSlice i f).runs = s.runs := rfl
@[simp] theorem State.updSlice_f_starts (s : State) (i : Nat) (f : Slice → Slice) : (s.updSlice i f).starts = s.starts := rfl
@[simp] theorem State.updSlice_f_matchQ (s : State) (i : Nat) (f : Slice → Slice) : (s.updSlice i f).match? = s.match? := rfl
@[simp] theorem State.updSlice_f_grn (s : State) (i : Nat) (f : Slice → Slice) : (s.updSlice i f).grn = s.grn := rfl
@[simp] theorem State.updSlice_f_flt (s : State) (i : Nat) (f : Slice → Slice) : (s.updSlice i f).flt = s.flt := rfl
@[simp] theorem State.updSlice_f_tim (s : State) (i : Nat) (f : Slice → Slice) : (s.updSlice i f).tim = s.tim := rfl
@[simp] theorem State.updSlice_f_ports (s : State) (i : Nat) (f : Slice → Slice) : (s.updSlice i f).ports = s.ports := rfl
@[simp] theorem State.updSlice_f_routes (s : State) (i : Nat) (f : Slice → Slice) : (s.updSlice i f).routes = s.routes := rfl
@[simp] theorem State.updSlice_f_mcast (s : State) (i : Nat) (f : Slice → Slice) : (s.updSlice i f).mcast = s.mcast := rfl
@[simp] theorem State.updSlice_f_noroute (s : State) (i : Nat) (f : Slice → Slice) : (s.updSlice i f).noroute = s.noroute := rfl
@[simp] theorem State.updSlice_f_ttldrop (s : State) (i : Nat) (f : Slice → Slice) : (s.updSlice i f).ttldrop = s.ttldrop := rfl
@[simp] theorem State.updSlice_f_thm (s : State) (i : Nat) (f : Slice → Slice) : (s.updSlice i f).thm = s.thm := rfl
@[simp] theorem State.updSlice_f_obs (s : State) (i : Nat) (f : Slice → Slice) : (s.updSlice i f).obs = s.obs := rfl
@[simp] theorem State.updSlice_f_freeNo (s : State) (i : Nat) (f : Slice → Slice) : (s.updSlice i f).freeNo = s.freeNo := rfl

/-! ## Fields after `updEng` -/

@[simp] theorem State.updEng_f_pending (s : State) (i : Nat) (f : Engine → Engine) : (s.updEng i f).pending = s.pending := rfl
@[simp] theorem State.updEng_f_now (s : State) (i : Nat) (f : Engine → Engine) : (s.updEng i f).now = s.now := rfl
@[simp] theorem State.updEng_f_mono (s : State) (i : Nat) (f : Engine → Engine) : (s.updEng i f).mono = s.mono := rfl
@[simp] theorem State.updEng_f_part16 (s : State) (i : Nat) (f : Engine → Engine) : (s.updEng i f).part16 = s.part16 := rfl
@[simp] theorem State.updEng_f_devid (s : State) (i : Nat) (f : Engine → Engine) : (s.updEng i f).devid = s.devid := rfl
@[simp] theorem State.updEng_f_ce (s : State) (i : Nat) (f : Engine → Engine) : (s.updEng i f).ce = s.ce := rfl
@[simp] theorem State.updEng_f_boot (s : State) (i : Nat) (f : Engine → Engine) : (s.updEng i f).boot = s.boot := rfl
@[simp] theorem State.updEng_f_works (s : State) (i : Nat) (f : Engine → Engine) : (s.updEng i f).works = s.works := rfl
@[simp] theorem State.updEng_f_compl (s : State) (i : Nat) (f : Engine → Engine) : (s.updEng i f).compl = s.compl := rfl
@[simp] theorem State.updEng_f_queues (s : State) (i : Nat) (f : Engine → Engine) : (s.updEng i f).queues = s.queues := rfl
@[simp] theorem State.updEng_f_cqs (s : State) (i : Nat) (f : Engine → Engine) : (s.updEng i f).cqs = s.cqs := rfl
@[simp] theorem State.updEng_f_intake (s : State) (i : Nat) (f : Engine → Engine) : (s.updEng i f).intake = s.intake := rfl
@[simp] theorem State.updEng_f_journal (s : State) (i : Nat) (f : Engine → Engine) : (s.updEng i f).journal = s.journal := rfl
@[simp] theorem State.updEng_f_jsn (s : State) (i : Nat) (f : Engine → Engine) : (s.updEng i f).jsn = s.jsn := rfl
@[simp] theorem State.updEng_f_jtail (s : State) (i : Nat) (f : Engine → Engine) : (s.updEng i f).jtail = s.jtail := rfl
@[simp] theorem State.updEng_f_jfull (s : State) (i : Nat) (f : Engine → Engine) : (s.updEng i f).jfull = s.jfull := rfl
@[simp] theorem State.updEng_f_journalLost (s : State) (i : Nat) (f : Engine → Engine) : (s.updEng i f).journalLost = s.journalLost := rfl
@[simp] theorem State.updEng_f_role (s : State) (i : Nat) (f : Engine → Engine) : (s.updEng i f).role = s.role := rfl
@[simp] theorem State.updEng_f_crcerr (s : State) (i : Nat) (f : Engine → Engine) : (s.updEng i f).crcerr = s.crcerr := rfl
@[simp] theorem State.updEng_f_dups (s : State) (i : Nat) (f : Engine → Engine) : (s.updEng i f).dups = s.dups := rfl
@[simp] theorem State.updEng_f_spi (s : State) (i : Nat) (f : Engine → Engine) : (s.updEng i f).spi = s.spi := rfl
@[simp] theorem State.updEng_f_out (s : State) (i : Nat) (f : Engine → Engine) : (s.updEng i f).out = s.out := rfl
@[simp] theorem State.updEng_f_pins (s : State) (i : Nat) (f : Engine → Engine) : (s.updEng i f).pins = s.pins := rfl
@[simp] theorem State.updEng_f_slices (s : State) (i : Nat) (f : Engine → Engine) : (s.updEng i f).slices = s.slices := rfl
@[simp] theorem State.updEng_f_caps (s : State) (i : Nat) (f : Engine → Engine) : (s.updEng i f).caps = s.caps := rfl
@[simp] theorem State.updEng_f_dps (s : State) (i : Nat) (f : Engine → Engine) : (s.updEng i f).dps = s.dps := rfl
@[simp] theorem State.updEng_f_mons (s : State) (i : Nat) (f : Engine → Engine) : (s.updEng i f).mons = s.mons := rfl
@[simp] theorem State.updEng_f_blks (s : State) (i : Nat) (f : Engine → Engine) : (s.updEng i f).blks = s.blks := rfl
@[simp] theorem State.updEng_f_bays (s : State) (i : Nat) (f : Engine → Engine) : (s.updEng i f).bays = s.bays := rfl
@[simp] theorem State.updEng_f_groups (s : State) (i : Nat) (f : Engine → Engine) : (s.updEng i f).groups = s.groups := rfl
@[simp] theorem State.updEng_f_seqs (s : State) (i : Nat) (f : Engine → Engine) : (s.updEng i f).seqs = s.seqs := rfl
@[simp] theorem State.updEng_f_fenced (s : State) (i : Nat) (f : Engine → Engine) : (s.updEng i f).fenced = s.fenced := rfl
@[simp] theorem State.updEng_f_sites (s : State) (i : Nat) (f : Engine → Engine) : (s.updEng i f).sites = s.sites := rfl
@[simp] theorem State.updEng_f_sheaves (s : State) (i : Nat) (f : Engine → Engine) : (s.updEng i f).sheaves = s.sheaves := rfl
@[simp] theorem State.updEng_f_runs (s : State) (i : Nat) (f : Engine → Engine) : (s.updEng i f).runs = s.runs := rfl
@[simp] theorem State.updEng_f_starts (s : State) (i : Nat) (f : Engine → Engine) : (s.updEng i f).starts = s.starts := rfl
@[simp] theorem State.updEng_f_matchQ (s : State) (i : Nat) (f : Engine → Engine) : (s.updEng i f).match? = s.match? := rfl
@[simp] theorem State.updEng_f_grn (s : State) (i : Nat) (f : Engine → Engine) : (s.updEng i f).grn = s.grn := rfl
@[simp] theorem State.updEng_f_flt (s : State) (i : Nat) (f : Engine → Engine) : (s.updEng i f).flt = s.flt := rfl
@[simp] theorem State.updEng_f_tim (s : State) (i : Nat) (f : Engine → Engine) : (s.updEng i f).tim = s.tim := rfl
@[simp] theorem State.updEng_f_ports (s : State) (i : Nat) (f : Engine → Engine) : (s.updEng i f).ports = s.ports := rfl
@[simp] theorem State.updEng_f_routes (s : State) (i : Nat) (f : Engine → Engine) : (s.updEng i f).routes = s.routes := rfl
@[simp] theorem State.updEng_f_mcast (s : State) (i : Nat) (f : Engine → Engine) : (s.updEng i f).mcast = s.mcast := rfl
@[simp] theorem State.updEng_f_noroute (s : State) (i : Nat) (f : Engine → Engine) : (s.updEng i f).noroute = s.noroute := rfl
@[simp] theorem State.updEng_f_ttldrop (s : State) (i : Nat) (f : Engine → Engine) : (s.updEng i f).ttldrop = s.ttldrop := rfl
@[simp] theorem State.updEng_f_thm (s : State) (i : Nat) (f : Engine → Engine) : (s.updEng i f).thm = s.thm := rfl
@[simp] theorem State.updEng_f_obs (s : State) (i : Nat) (f : Engine → Engine) : (s.updEng i f).obs = s.obs := rfl
@[simp] theorem State.updEng_f_freeNo (s : State) (i : Nat) (f : Engine → Engine) : (s.updEng i f).freeNo = s.freeNo := rfl

/-! ## Fields after `updDps` -/

@[simp] theorem State.updDps_f_pending (s : State) (i : Nat) (f : Dps → Dps) : (s.updDps i f).pending = s.pending := rfl
@[simp] theorem State.updDps_f_now (s : State) (i : Nat) (f : Dps → Dps) : (s.updDps i f).now = s.now := rfl
@[simp] theorem State.updDps_f_mono (s : State) (i : Nat) (f : Dps → Dps) : (s.updDps i f).mono = s.mono := rfl
@[simp] theorem State.updDps_f_part16 (s : State) (i : Nat) (f : Dps → Dps) : (s.updDps i f).part16 = s.part16 := rfl
@[simp] theorem State.updDps_f_devid (s : State) (i : Nat) (f : Dps → Dps) : (s.updDps i f).devid = s.devid := rfl
@[simp] theorem State.updDps_f_ce (s : State) (i : Nat) (f : Dps → Dps) : (s.updDps i f).ce = s.ce := rfl
@[simp] theorem State.updDps_f_boot (s : State) (i : Nat) (f : Dps → Dps) : (s.updDps i f).boot = s.boot := rfl
@[simp] theorem State.updDps_f_works (s : State) (i : Nat) (f : Dps → Dps) : (s.updDps i f).works = s.works := rfl
@[simp] theorem State.updDps_f_compl (s : State) (i : Nat) (f : Dps → Dps) : (s.updDps i f).compl = s.compl := rfl
@[simp] theorem State.updDps_f_queues (s : State) (i : Nat) (f : Dps → Dps) : (s.updDps i f).queues = s.queues := rfl
@[simp] theorem State.updDps_f_cqs (s : State) (i : Nat) (f : Dps → Dps) : (s.updDps i f).cqs = s.cqs := rfl
@[simp] theorem State.updDps_f_intake (s : State) (i : Nat) (f : Dps → Dps) : (s.updDps i f).intake = s.intake := rfl
@[simp] theorem State.updDps_f_journal (s : State) (i : Nat) (f : Dps → Dps) : (s.updDps i f).journal = s.journal := rfl
@[simp] theorem State.updDps_f_jsn (s : State) (i : Nat) (f : Dps → Dps) : (s.updDps i f).jsn = s.jsn := rfl
@[simp] theorem State.updDps_f_jtail (s : State) (i : Nat) (f : Dps → Dps) : (s.updDps i f).jtail = s.jtail := rfl
@[simp] theorem State.updDps_f_jfull (s : State) (i : Nat) (f : Dps → Dps) : (s.updDps i f).jfull = s.jfull := rfl
@[simp] theorem State.updDps_f_journalLost (s : State) (i : Nat) (f : Dps → Dps) : (s.updDps i f).journalLost = s.journalLost := rfl
@[simp] theorem State.updDps_f_role (s : State) (i : Nat) (f : Dps → Dps) : (s.updDps i f).role = s.role := rfl
@[simp] theorem State.updDps_f_crcerr (s : State) (i : Nat) (f : Dps → Dps) : (s.updDps i f).crcerr = s.crcerr := rfl
@[simp] theorem State.updDps_f_dups (s : State) (i : Nat) (f : Dps → Dps) : (s.updDps i f).dups = s.dups := rfl
@[simp] theorem State.updDps_f_spi (s : State) (i : Nat) (f : Dps → Dps) : (s.updDps i f).spi = s.spi := rfl
@[simp] theorem State.updDps_f_out (s : State) (i : Nat) (f : Dps → Dps) : (s.updDps i f).out = s.out := rfl
@[simp] theorem State.updDps_f_pins (s : State) (i : Nat) (f : Dps → Dps) : (s.updDps i f).pins = s.pins := rfl
@[simp] theorem State.updDps_f_slices (s : State) (i : Nat) (f : Dps → Dps) : (s.updDps i f).slices = s.slices := rfl
@[simp] theorem State.updDps_f_caps (s : State) (i : Nat) (f : Dps → Dps) : (s.updDps i f).caps = s.caps := rfl
@[simp] theorem State.updDps_f_engines (s : State) (i : Nat) (f : Dps → Dps) : (s.updDps i f).engines = s.engines := rfl
@[simp] theorem State.updDps_f_mons (s : State) (i : Nat) (f : Dps → Dps) : (s.updDps i f).mons = s.mons := rfl
@[simp] theorem State.updDps_f_blks (s : State) (i : Nat) (f : Dps → Dps) : (s.updDps i f).blks = s.blks := rfl
@[simp] theorem State.updDps_f_bays (s : State) (i : Nat) (f : Dps → Dps) : (s.updDps i f).bays = s.bays := rfl
@[simp] theorem State.updDps_f_groups (s : State) (i : Nat) (f : Dps → Dps) : (s.updDps i f).groups = s.groups := rfl
@[simp] theorem State.updDps_f_seqs (s : State) (i : Nat) (f : Dps → Dps) : (s.updDps i f).seqs = s.seqs := rfl
@[simp] theorem State.updDps_f_fenced (s : State) (i : Nat) (f : Dps → Dps) : (s.updDps i f).fenced = s.fenced := rfl
@[simp] theorem State.updDps_f_sites (s : State) (i : Nat) (f : Dps → Dps) : (s.updDps i f).sites = s.sites := rfl
@[simp] theorem State.updDps_f_sheaves (s : State) (i : Nat) (f : Dps → Dps) : (s.updDps i f).sheaves = s.sheaves := rfl
@[simp] theorem State.updDps_f_runs (s : State) (i : Nat) (f : Dps → Dps) : (s.updDps i f).runs = s.runs := rfl
@[simp] theorem State.updDps_f_starts (s : State) (i : Nat) (f : Dps → Dps) : (s.updDps i f).starts = s.starts := rfl
@[simp] theorem State.updDps_f_matchQ (s : State) (i : Nat) (f : Dps → Dps) : (s.updDps i f).match? = s.match? := rfl
@[simp] theorem State.updDps_f_grn (s : State) (i : Nat) (f : Dps → Dps) : (s.updDps i f).grn = s.grn := rfl
@[simp] theorem State.updDps_f_flt (s : State) (i : Nat) (f : Dps → Dps) : (s.updDps i f).flt = s.flt := rfl
@[simp] theorem State.updDps_f_tim (s : State) (i : Nat) (f : Dps → Dps) : (s.updDps i f).tim = s.tim := rfl
@[simp] theorem State.updDps_f_ports (s : State) (i : Nat) (f : Dps → Dps) : (s.updDps i f).ports = s.ports := rfl
@[simp] theorem State.updDps_f_routes (s : State) (i : Nat) (f : Dps → Dps) : (s.updDps i f).routes = s.routes := rfl
@[simp] theorem State.updDps_f_mcast (s : State) (i : Nat) (f : Dps → Dps) : (s.updDps i f).mcast = s.mcast := rfl
@[simp] theorem State.updDps_f_noroute (s : State) (i : Nat) (f : Dps → Dps) : (s.updDps i f).noroute = s.noroute := rfl
@[simp] theorem State.updDps_f_ttldrop (s : State) (i : Nat) (f : Dps → Dps) : (s.updDps i f).ttldrop = s.ttldrop := rfl
@[simp] theorem State.updDps_f_thm (s : State) (i : Nat) (f : Dps → Dps) : (s.updDps i f).thm = s.thm := rfl
@[simp] theorem State.updDps_f_obs (s : State) (i : Nat) (f : Dps → Dps) : (s.updDps i f).obs = s.obs := rfl
@[simp] theorem State.updDps_f_freeNo (s : State) (i : Nat) (f : Dps → Dps) : (s.updDps i f).freeNo = s.freeNo := rfl

/-! ## Fields after `updMon` -/

@[simp] theorem State.updMon_f_pending (s : State) (i : Nat) (f : Mon → Mon) : (s.updMon i f).pending = s.pending := rfl
@[simp] theorem State.updMon_f_now (s : State) (i : Nat) (f : Mon → Mon) : (s.updMon i f).now = s.now := rfl
@[simp] theorem State.updMon_f_mono (s : State) (i : Nat) (f : Mon → Mon) : (s.updMon i f).mono = s.mono := rfl
@[simp] theorem State.updMon_f_part16 (s : State) (i : Nat) (f : Mon → Mon) : (s.updMon i f).part16 = s.part16 := rfl
@[simp] theorem State.updMon_f_devid (s : State) (i : Nat) (f : Mon → Mon) : (s.updMon i f).devid = s.devid := rfl
@[simp] theorem State.updMon_f_ce (s : State) (i : Nat) (f : Mon → Mon) : (s.updMon i f).ce = s.ce := rfl
@[simp] theorem State.updMon_f_boot (s : State) (i : Nat) (f : Mon → Mon) : (s.updMon i f).boot = s.boot := rfl
@[simp] theorem State.updMon_f_works (s : State) (i : Nat) (f : Mon → Mon) : (s.updMon i f).works = s.works := rfl
@[simp] theorem State.updMon_f_compl (s : State) (i : Nat) (f : Mon → Mon) : (s.updMon i f).compl = s.compl := rfl
@[simp] theorem State.updMon_f_queues (s : State) (i : Nat) (f : Mon → Mon) : (s.updMon i f).queues = s.queues := rfl
@[simp] theorem State.updMon_f_cqs (s : State) (i : Nat) (f : Mon → Mon) : (s.updMon i f).cqs = s.cqs := rfl
@[simp] theorem State.updMon_f_intake (s : State) (i : Nat) (f : Mon → Mon) : (s.updMon i f).intake = s.intake := rfl
@[simp] theorem State.updMon_f_journal (s : State) (i : Nat) (f : Mon → Mon) : (s.updMon i f).journal = s.journal := rfl
@[simp] theorem State.updMon_f_jsn (s : State) (i : Nat) (f : Mon → Mon) : (s.updMon i f).jsn = s.jsn := rfl
@[simp] theorem State.updMon_f_jtail (s : State) (i : Nat) (f : Mon → Mon) : (s.updMon i f).jtail = s.jtail := rfl
@[simp] theorem State.updMon_f_jfull (s : State) (i : Nat) (f : Mon → Mon) : (s.updMon i f).jfull = s.jfull := rfl
@[simp] theorem State.updMon_f_journalLost (s : State) (i : Nat) (f : Mon → Mon) : (s.updMon i f).journalLost = s.journalLost := rfl
@[simp] theorem State.updMon_f_role (s : State) (i : Nat) (f : Mon → Mon) : (s.updMon i f).role = s.role := rfl
@[simp] theorem State.updMon_f_crcerr (s : State) (i : Nat) (f : Mon → Mon) : (s.updMon i f).crcerr = s.crcerr := rfl
@[simp] theorem State.updMon_f_dups (s : State) (i : Nat) (f : Mon → Mon) : (s.updMon i f).dups = s.dups := rfl
@[simp] theorem State.updMon_f_spi (s : State) (i : Nat) (f : Mon → Mon) : (s.updMon i f).spi = s.spi := rfl
@[simp] theorem State.updMon_f_out (s : State) (i : Nat) (f : Mon → Mon) : (s.updMon i f).out = s.out := rfl
@[simp] theorem State.updMon_f_pins (s : State) (i : Nat) (f : Mon → Mon) : (s.updMon i f).pins = s.pins := rfl
@[simp] theorem State.updMon_f_slices (s : State) (i : Nat) (f : Mon → Mon) : (s.updMon i f).slices = s.slices := rfl
@[simp] theorem State.updMon_f_caps (s : State) (i : Nat) (f : Mon → Mon) : (s.updMon i f).caps = s.caps := rfl
@[simp] theorem State.updMon_f_engines (s : State) (i : Nat) (f : Mon → Mon) : (s.updMon i f).engines = s.engines := rfl
@[simp] theorem State.updMon_f_dps (s : State) (i : Nat) (f : Mon → Mon) : (s.updMon i f).dps = s.dps := rfl
@[simp] theorem State.updMon_f_blks (s : State) (i : Nat) (f : Mon → Mon) : (s.updMon i f).blks = s.blks := rfl
@[simp] theorem State.updMon_f_bays (s : State) (i : Nat) (f : Mon → Mon) : (s.updMon i f).bays = s.bays := rfl
@[simp] theorem State.updMon_f_groups (s : State) (i : Nat) (f : Mon → Mon) : (s.updMon i f).groups = s.groups := rfl
@[simp] theorem State.updMon_f_seqs (s : State) (i : Nat) (f : Mon → Mon) : (s.updMon i f).seqs = s.seqs := rfl
@[simp] theorem State.updMon_f_fenced (s : State) (i : Nat) (f : Mon → Mon) : (s.updMon i f).fenced = s.fenced := rfl
@[simp] theorem State.updMon_f_sites (s : State) (i : Nat) (f : Mon → Mon) : (s.updMon i f).sites = s.sites := rfl
@[simp] theorem State.updMon_f_sheaves (s : State) (i : Nat) (f : Mon → Mon) : (s.updMon i f).sheaves = s.sheaves := rfl
@[simp] theorem State.updMon_f_runs (s : State) (i : Nat) (f : Mon → Mon) : (s.updMon i f).runs = s.runs := rfl
@[simp] theorem State.updMon_f_starts (s : State) (i : Nat) (f : Mon → Mon) : (s.updMon i f).starts = s.starts := rfl
@[simp] theorem State.updMon_f_matchQ (s : State) (i : Nat) (f : Mon → Mon) : (s.updMon i f).match? = s.match? := rfl
@[simp] theorem State.updMon_f_grn (s : State) (i : Nat) (f : Mon → Mon) : (s.updMon i f).grn = s.grn := rfl
@[simp] theorem State.updMon_f_flt (s : State) (i : Nat) (f : Mon → Mon) : (s.updMon i f).flt = s.flt := rfl
@[simp] theorem State.updMon_f_tim (s : State) (i : Nat) (f : Mon → Mon) : (s.updMon i f).tim = s.tim := rfl
@[simp] theorem State.updMon_f_ports (s : State) (i : Nat) (f : Mon → Mon) : (s.updMon i f).ports = s.ports := rfl
@[simp] theorem State.updMon_f_routes (s : State) (i : Nat) (f : Mon → Mon) : (s.updMon i f).routes = s.routes := rfl
@[simp] theorem State.updMon_f_mcast (s : State) (i : Nat) (f : Mon → Mon) : (s.updMon i f).mcast = s.mcast := rfl
@[simp] theorem State.updMon_f_noroute (s : State) (i : Nat) (f : Mon → Mon) : (s.updMon i f).noroute = s.noroute := rfl
@[simp] theorem State.updMon_f_ttldrop (s : State) (i : Nat) (f : Mon → Mon) : (s.updMon i f).ttldrop = s.ttldrop := rfl
@[simp] theorem State.updMon_f_thm (s : State) (i : Nat) (f : Mon → Mon) : (s.updMon i f).thm = s.thm := rfl
@[simp] theorem State.updMon_f_obs (s : State) (i : Nat) (f : Mon → Mon) : (s.updMon i f).obs = s.obs := rfl
@[simp] theorem State.updMon_f_freeNo (s : State) (i : Nat) (f : Mon → Mon) : (s.updMon i f).freeNo = s.freeNo := rfl

/-! ## Fields after `updBay` -/

@[simp] theorem State.updBay_f_pending (s : State) (i : Nat) (f : Bay → Bay) : (s.updBay i f).pending = s.pending := rfl
@[simp] theorem State.updBay_f_now (s : State) (i : Nat) (f : Bay → Bay) : (s.updBay i f).now = s.now := rfl
@[simp] theorem State.updBay_f_mono (s : State) (i : Nat) (f : Bay → Bay) : (s.updBay i f).mono = s.mono := rfl
@[simp] theorem State.updBay_f_part16 (s : State) (i : Nat) (f : Bay → Bay) : (s.updBay i f).part16 = s.part16 := rfl
@[simp] theorem State.updBay_f_devid (s : State) (i : Nat) (f : Bay → Bay) : (s.updBay i f).devid = s.devid := rfl
@[simp] theorem State.updBay_f_ce (s : State) (i : Nat) (f : Bay → Bay) : (s.updBay i f).ce = s.ce := rfl
@[simp] theorem State.updBay_f_boot (s : State) (i : Nat) (f : Bay → Bay) : (s.updBay i f).boot = s.boot := rfl
@[simp] theorem State.updBay_f_works (s : State) (i : Nat) (f : Bay → Bay) : (s.updBay i f).works = s.works := rfl
@[simp] theorem State.updBay_f_compl (s : State) (i : Nat) (f : Bay → Bay) : (s.updBay i f).compl = s.compl := rfl
@[simp] theorem State.updBay_f_queues (s : State) (i : Nat) (f : Bay → Bay) : (s.updBay i f).queues = s.queues := rfl
@[simp] theorem State.updBay_f_cqs (s : State) (i : Nat) (f : Bay → Bay) : (s.updBay i f).cqs = s.cqs := rfl
@[simp] theorem State.updBay_f_intake (s : State) (i : Nat) (f : Bay → Bay) : (s.updBay i f).intake = s.intake := rfl
@[simp] theorem State.updBay_f_journal (s : State) (i : Nat) (f : Bay → Bay) : (s.updBay i f).journal = s.journal := rfl
@[simp] theorem State.updBay_f_jsn (s : State) (i : Nat) (f : Bay → Bay) : (s.updBay i f).jsn = s.jsn := rfl
@[simp] theorem State.updBay_f_jtail (s : State) (i : Nat) (f : Bay → Bay) : (s.updBay i f).jtail = s.jtail := rfl
@[simp] theorem State.updBay_f_jfull (s : State) (i : Nat) (f : Bay → Bay) : (s.updBay i f).jfull = s.jfull := rfl
@[simp] theorem State.updBay_f_journalLost (s : State) (i : Nat) (f : Bay → Bay) : (s.updBay i f).journalLost = s.journalLost := rfl
@[simp] theorem State.updBay_f_role (s : State) (i : Nat) (f : Bay → Bay) : (s.updBay i f).role = s.role := rfl
@[simp] theorem State.updBay_f_crcerr (s : State) (i : Nat) (f : Bay → Bay) : (s.updBay i f).crcerr = s.crcerr := rfl
@[simp] theorem State.updBay_f_dups (s : State) (i : Nat) (f : Bay → Bay) : (s.updBay i f).dups = s.dups := rfl
@[simp] theorem State.updBay_f_spi (s : State) (i : Nat) (f : Bay → Bay) : (s.updBay i f).spi = s.spi := rfl
@[simp] theorem State.updBay_f_out (s : State) (i : Nat) (f : Bay → Bay) : (s.updBay i f).out = s.out := rfl
@[simp] theorem State.updBay_f_pins (s : State) (i : Nat) (f : Bay → Bay) : (s.updBay i f).pins = s.pins := rfl
@[simp] theorem State.updBay_f_slices (s : State) (i : Nat) (f : Bay → Bay) : (s.updBay i f).slices = s.slices := rfl
@[simp] theorem State.updBay_f_caps (s : State) (i : Nat) (f : Bay → Bay) : (s.updBay i f).caps = s.caps := rfl
@[simp] theorem State.updBay_f_engines (s : State) (i : Nat) (f : Bay → Bay) : (s.updBay i f).engines = s.engines := rfl
@[simp] theorem State.updBay_f_dps (s : State) (i : Nat) (f : Bay → Bay) : (s.updBay i f).dps = s.dps := rfl
@[simp] theorem State.updBay_f_mons (s : State) (i : Nat) (f : Bay → Bay) : (s.updBay i f).mons = s.mons := rfl
@[simp] theorem State.updBay_f_blks (s : State) (i : Nat) (f : Bay → Bay) : (s.updBay i f).blks = s.blks := rfl
@[simp] theorem State.updBay_f_groups (s : State) (i : Nat) (f : Bay → Bay) : (s.updBay i f).groups = s.groups := rfl
@[simp] theorem State.updBay_f_seqs (s : State) (i : Nat) (f : Bay → Bay) : (s.updBay i f).seqs = s.seqs := rfl
@[simp] theorem State.updBay_f_fenced (s : State) (i : Nat) (f : Bay → Bay) : (s.updBay i f).fenced = s.fenced := rfl
@[simp] theorem State.updBay_f_sites (s : State) (i : Nat) (f : Bay → Bay) : (s.updBay i f).sites = s.sites := rfl
@[simp] theorem State.updBay_f_sheaves (s : State) (i : Nat) (f : Bay → Bay) : (s.updBay i f).sheaves = s.sheaves := rfl
@[simp] theorem State.updBay_f_runs (s : State) (i : Nat) (f : Bay → Bay) : (s.updBay i f).runs = s.runs := rfl
@[simp] theorem State.updBay_f_starts (s : State) (i : Nat) (f : Bay → Bay) : (s.updBay i f).starts = s.starts := rfl
@[simp] theorem State.updBay_f_matchQ (s : State) (i : Nat) (f : Bay → Bay) : (s.updBay i f).match? = s.match? := rfl
@[simp] theorem State.updBay_f_grn (s : State) (i : Nat) (f : Bay → Bay) : (s.updBay i f).grn = s.grn := rfl
@[simp] theorem State.updBay_f_flt (s : State) (i : Nat) (f : Bay → Bay) : (s.updBay i f).flt = s.flt := rfl
@[simp] theorem State.updBay_f_tim (s : State) (i : Nat) (f : Bay → Bay) : (s.updBay i f).tim = s.tim := rfl
@[simp] theorem State.updBay_f_ports (s : State) (i : Nat) (f : Bay → Bay) : (s.updBay i f).ports = s.ports := rfl
@[simp] theorem State.updBay_f_routes (s : State) (i : Nat) (f : Bay → Bay) : (s.updBay i f).routes = s.routes := rfl
@[simp] theorem State.updBay_f_mcast (s : State) (i : Nat) (f : Bay → Bay) : (s.updBay i f).mcast = s.mcast := rfl
@[simp] theorem State.updBay_f_noroute (s : State) (i : Nat) (f : Bay → Bay) : (s.updBay i f).noroute = s.noroute := rfl
@[simp] theorem State.updBay_f_ttldrop (s : State) (i : Nat) (f : Bay → Bay) : (s.updBay i f).ttldrop = s.ttldrop := rfl
@[simp] theorem State.updBay_f_thm (s : State) (i : Nat) (f : Bay → Bay) : (s.updBay i f).thm = s.thm := rfl
@[simp] theorem State.updBay_f_obs (s : State) (i : Nat) (f : Bay → Bay) : (s.updBay i f).obs = s.obs := rfl
@[simp] theorem State.updBay_f_freeNo (s : State) (i : Nat) (f : Bay → Bay) : (s.updBay i f).freeNo = s.freeNo := rfl

/-! ## Fields after `updGroup` -/

@[simp] theorem State.updGroup_f_pending (s : State) (i : Nat) (f : Ag → Ag) : (s.updGroup i f).pending = s.pending := rfl
@[simp] theorem State.updGroup_f_now (s : State) (i : Nat) (f : Ag → Ag) : (s.updGroup i f).now = s.now := rfl
@[simp] theorem State.updGroup_f_mono (s : State) (i : Nat) (f : Ag → Ag) : (s.updGroup i f).mono = s.mono := rfl
@[simp] theorem State.updGroup_f_part16 (s : State) (i : Nat) (f : Ag → Ag) : (s.updGroup i f).part16 = s.part16 := rfl
@[simp] theorem State.updGroup_f_devid (s : State) (i : Nat) (f : Ag → Ag) : (s.updGroup i f).devid = s.devid := rfl
@[simp] theorem State.updGroup_f_ce (s : State) (i : Nat) (f : Ag → Ag) : (s.updGroup i f).ce = s.ce := rfl
@[simp] theorem State.updGroup_f_boot (s : State) (i : Nat) (f : Ag → Ag) : (s.updGroup i f).boot = s.boot := rfl
@[simp] theorem State.updGroup_f_works (s : State) (i : Nat) (f : Ag → Ag) : (s.updGroup i f).works = s.works := rfl
@[simp] theorem State.updGroup_f_compl (s : State) (i : Nat) (f : Ag → Ag) : (s.updGroup i f).compl = s.compl := rfl
@[simp] theorem State.updGroup_f_queues (s : State) (i : Nat) (f : Ag → Ag) : (s.updGroup i f).queues = s.queues := rfl
@[simp] theorem State.updGroup_f_cqs (s : State) (i : Nat) (f : Ag → Ag) : (s.updGroup i f).cqs = s.cqs := rfl
@[simp] theorem State.updGroup_f_intake (s : State) (i : Nat) (f : Ag → Ag) : (s.updGroup i f).intake = s.intake := rfl
@[simp] theorem State.updGroup_f_journal (s : State) (i : Nat) (f : Ag → Ag) : (s.updGroup i f).journal = s.journal := rfl
@[simp] theorem State.updGroup_f_jsn (s : State) (i : Nat) (f : Ag → Ag) : (s.updGroup i f).jsn = s.jsn := rfl
@[simp] theorem State.updGroup_f_jtail (s : State) (i : Nat) (f : Ag → Ag) : (s.updGroup i f).jtail = s.jtail := rfl
@[simp] theorem State.updGroup_f_jfull (s : State) (i : Nat) (f : Ag → Ag) : (s.updGroup i f).jfull = s.jfull := rfl
@[simp] theorem State.updGroup_f_journalLost (s : State) (i : Nat) (f : Ag → Ag) : (s.updGroup i f).journalLost = s.journalLost := rfl
@[simp] theorem State.updGroup_f_role (s : State) (i : Nat) (f : Ag → Ag) : (s.updGroup i f).role = s.role := rfl
@[simp] theorem State.updGroup_f_crcerr (s : State) (i : Nat) (f : Ag → Ag) : (s.updGroup i f).crcerr = s.crcerr := rfl
@[simp] theorem State.updGroup_f_dups (s : State) (i : Nat) (f : Ag → Ag) : (s.updGroup i f).dups = s.dups := rfl
@[simp] theorem State.updGroup_f_spi (s : State) (i : Nat) (f : Ag → Ag) : (s.updGroup i f).spi = s.spi := rfl
@[simp] theorem State.updGroup_f_out (s : State) (i : Nat) (f : Ag → Ag) : (s.updGroup i f).out = s.out := rfl
@[simp] theorem State.updGroup_f_pins (s : State) (i : Nat) (f : Ag → Ag) : (s.updGroup i f).pins = s.pins := rfl
@[simp] theorem State.updGroup_f_slices (s : State) (i : Nat) (f : Ag → Ag) : (s.updGroup i f).slices = s.slices := rfl
@[simp] theorem State.updGroup_f_caps (s : State) (i : Nat) (f : Ag → Ag) : (s.updGroup i f).caps = s.caps := rfl
@[simp] theorem State.updGroup_f_engines (s : State) (i : Nat) (f : Ag → Ag) : (s.updGroup i f).engines = s.engines := rfl
@[simp] theorem State.updGroup_f_dps (s : State) (i : Nat) (f : Ag → Ag) : (s.updGroup i f).dps = s.dps := rfl
@[simp] theorem State.updGroup_f_mons (s : State) (i : Nat) (f : Ag → Ag) : (s.updGroup i f).mons = s.mons := rfl
@[simp] theorem State.updGroup_f_blks (s : State) (i : Nat) (f : Ag → Ag) : (s.updGroup i f).blks = s.blks := rfl
@[simp] theorem State.updGroup_f_bays (s : State) (i : Nat) (f : Ag → Ag) : (s.updGroup i f).bays = s.bays := rfl
@[simp] theorem State.updGroup_f_seqs (s : State) (i : Nat) (f : Ag → Ag) : (s.updGroup i f).seqs = s.seqs := rfl
@[simp] theorem State.updGroup_f_fenced (s : State) (i : Nat) (f : Ag → Ag) : (s.updGroup i f).fenced = s.fenced := rfl
@[simp] theorem State.updGroup_f_sites (s : State) (i : Nat) (f : Ag → Ag) : (s.updGroup i f).sites = s.sites := rfl
@[simp] theorem State.updGroup_f_sheaves (s : State) (i : Nat) (f : Ag → Ag) : (s.updGroup i f).sheaves = s.sheaves := rfl
@[simp] theorem State.updGroup_f_runs (s : State) (i : Nat) (f : Ag → Ag) : (s.updGroup i f).runs = s.runs := rfl
@[simp] theorem State.updGroup_f_starts (s : State) (i : Nat) (f : Ag → Ag) : (s.updGroup i f).starts = s.starts := rfl
@[simp] theorem State.updGroup_f_matchQ (s : State) (i : Nat) (f : Ag → Ag) : (s.updGroup i f).match? = s.match? := rfl
@[simp] theorem State.updGroup_f_grn (s : State) (i : Nat) (f : Ag → Ag) : (s.updGroup i f).grn = s.grn := rfl
@[simp] theorem State.updGroup_f_flt (s : State) (i : Nat) (f : Ag → Ag) : (s.updGroup i f).flt = s.flt := rfl
@[simp] theorem State.updGroup_f_tim (s : State) (i : Nat) (f : Ag → Ag) : (s.updGroup i f).tim = s.tim := rfl
@[simp] theorem State.updGroup_f_ports (s : State) (i : Nat) (f : Ag → Ag) : (s.updGroup i f).ports = s.ports := rfl
@[simp] theorem State.updGroup_f_routes (s : State) (i : Nat) (f : Ag → Ag) : (s.updGroup i f).routes = s.routes := rfl
@[simp] theorem State.updGroup_f_mcast (s : State) (i : Nat) (f : Ag → Ag) : (s.updGroup i f).mcast = s.mcast := rfl
@[simp] theorem State.updGroup_f_noroute (s : State) (i : Nat) (f : Ag → Ag) : (s.updGroup i f).noroute = s.noroute := rfl
@[simp] theorem State.updGroup_f_ttldrop (s : State) (i : Nat) (f : Ag → Ag) : (s.updGroup i f).ttldrop = s.ttldrop := rfl
@[simp] theorem State.updGroup_f_thm (s : State) (i : Nat) (f : Ag → Ag) : (s.updGroup i f).thm = s.thm := rfl
@[simp] theorem State.updGroup_f_obs (s : State) (i : Nat) (f : Ag → Ag) : (s.updGroup i f).obs = s.obs := rfl
@[simp] theorem State.updGroup_f_freeNo (s : State) (i : Nat) (f : Ag → Ag) : (s.updGroup i f).freeNo = s.freeNo := rfl

/-! ## Fields after `updPort` -/

@[simp] theorem State.updPort_f_pending (s : State) (i : Nat) (f : Port → Port) : (s.updPort i f).pending = s.pending := rfl
@[simp] theorem State.updPort_f_now (s : State) (i : Nat) (f : Port → Port) : (s.updPort i f).now = s.now := rfl
@[simp] theorem State.updPort_f_mono (s : State) (i : Nat) (f : Port → Port) : (s.updPort i f).mono = s.mono := rfl
@[simp] theorem State.updPort_f_part16 (s : State) (i : Nat) (f : Port → Port) : (s.updPort i f).part16 = s.part16 := rfl
@[simp] theorem State.updPort_f_devid (s : State) (i : Nat) (f : Port → Port) : (s.updPort i f).devid = s.devid := rfl
@[simp] theorem State.updPort_f_ce (s : State) (i : Nat) (f : Port → Port) : (s.updPort i f).ce = s.ce := rfl
@[simp] theorem State.updPort_f_boot (s : State) (i : Nat) (f : Port → Port) : (s.updPort i f).boot = s.boot := rfl
@[simp] theorem State.updPort_f_works (s : State) (i : Nat) (f : Port → Port) : (s.updPort i f).works = s.works := rfl
@[simp] theorem State.updPort_f_compl (s : State) (i : Nat) (f : Port → Port) : (s.updPort i f).compl = s.compl := rfl
@[simp] theorem State.updPort_f_queues (s : State) (i : Nat) (f : Port → Port) : (s.updPort i f).queues = s.queues := rfl
@[simp] theorem State.updPort_f_cqs (s : State) (i : Nat) (f : Port → Port) : (s.updPort i f).cqs = s.cqs := rfl
@[simp] theorem State.updPort_f_intake (s : State) (i : Nat) (f : Port → Port) : (s.updPort i f).intake = s.intake := rfl
@[simp] theorem State.updPort_f_journal (s : State) (i : Nat) (f : Port → Port) : (s.updPort i f).journal = s.journal := rfl
@[simp] theorem State.updPort_f_jsn (s : State) (i : Nat) (f : Port → Port) : (s.updPort i f).jsn = s.jsn := rfl
@[simp] theorem State.updPort_f_jtail (s : State) (i : Nat) (f : Port → Port) : (s.updPort i f).jtail = s.jtail := rfl
@[simp] theorem State.updPort_f_jfull (s : State) (i : Nat) (f : Port → Port) : (s.updPort i f).jfull = s.jfull := rfl
@[simp] theorem State.updPort_f_journalLost (s : State) (i : Nat) (f : Port → Port) : (s.updPort i f).journalLost = s.journalLost := rfl
@[simp] theorem State.updPort_f_role (s : State) (i : Nat) (f : Port → Port) : (s.updPort i f).role = s.role := rfl
@[simp] theorem State.updPort_f_crcerr (s : State) (i : Nat) (f : Port → Port) : (s.updPort i f).crcerr = s.crcerr := rfl
@[simp] theorem State.updPort_f_dups (s : State) (i : Nat) (f : Port → Port) : (s.updPort i f).dups = s.dups := rfl
@[simp] theorem State.updPort_f_spi (s : State) (i : Nat) (f : Port → Port) : (s.updPort i f).spi = s.spi := rfl
@[simp] theorem State.updPort_f_out (s : State) (i : Nat) (f : Port → Port) : (s.updPort i f).out = s.out := rfl
@[simp] theorem State.updPort_f_pins (s : State) (i : Nat) (f : Port → Port) : (s.updPort i f).pins = s.pins := rfl
@[simp] theorem State.updPort_f_slices (s : State) (i : Nat) (f : Port → Port) : (s.updPort i f).slices = s.slices := rfl
@[simp] theorem State.updPort_f_caps (s : State) (i : Nat) (f : Port → Port) : (s.updPort i f).caps = s.caps := rfl
@[simp] theorem State.updPort_f_engines (s : State) (i : Nat) (f : Port → Port) : (s.updPort i f).engines = s.engines := rfl
@[simp] theorem State.updPort_f_dps (s : State) (i : Nat) (f : Port → Port) : (s.updPort i f).dps = s.dps := rfl
@[simp] theorem State.updPort_f_mons (s : State) (i : Nat) (f : Port → Port) : (s.updPort i f).mons = s.mons := rfl
@[simp] theorem State.updPort_f_blks (s : State) (i : Nat) (f : Port → Port) : (s.updPort i f).blks = s.blks := rfl
@[simp] theorem State.updPort_f_bays (s : State) (i : Nat) (f : Port → Port) : (s.updPort i f).bays = s.bays := rfl
@[simp] theorem State.updPort_f_groups (s : State) (i : Nat) (f : Port → Port) : (s.updPort i f).groups = s.groups := rfl
@[simp] theorem State.updPort_f_seqs (s : State) (i : Nat) (f : Port → Port) : (s.updPort i f).seqs = s.seqs := rfl
@[simp] theorem State.updPort_f_fenced (s : State) (i : Nat) (f : Port → Port) : (s.updPort i f).fenced = s.fenced := rfl
@[simp] theorem State.updPort_f_sites (s : State) (i : Nat) (f : Port → Port) : (s.updPort i f).sites = s.sites := rfl
@[simp] theorem State.updPort_f_sheaves (s : State) (i : Nat) (f : Port → Port) : (s.updPort i f).sheaves = s.sheaves := rfl
@[simp] theorem State.updPort_f_runs (s : State) (i : Nat) (f : Port → Port) : (s.updPort i f).runs = s.runs := rfl
@[simp] theorem State.updPort_f_starts (s : State) (i : Nat) (f : Port → Port) : (s.updPort i f).starts = s.starts := rfl
@[simp] theorem State.updPort_f_matchQ (s : State) (i : Nat) (f : Port → Port) : (s.updPort i f).match? = s.match? := rfl
@[simp] theorem State.updPort_f_grn (s : State) (i : Nat) (f : Port → Port) : (s.updPort i f).grn = s.grn := rfl
@[simp] theorem State.updPort_f_flt (s : State) (i : Nat) (f : Port → Port) : (s.updPort i f).flt = s.flt := rfl
@[simp] theorem State.updPort_f_tim (s : State) (i : Nat) (f : Port → Port) : (s.updPort i f).tim = s.tim := rfl
@[simp] theorem State.updPort_f_routes (s : State) (i : Nat) (f : Port → Port) : (s.updPort i f).routes = s.routes := rfl
@[simp] theorem State.updPort_f_mcast (s : State) (i : Nat) (f : Port → Port) : (s.updPort i f).mcast = s.mcast := rfl
@[simp] theorem State.updPort_f_noroute (s : State) (i : Nat) (f : Port → Port) : (s.updPort i f).noroute = s.noroute := rfl
@[simp] theorem State.updPort_f_ttldrop (s : State) (i : Nat) (f : Port → Port) : (s.updPort i f).ttldrop = s.ttldrop := rfl
@[simp] theorem State.updPort_f_thm (s : State) (i : Nat) (f : Port → Port) : (s.updPort i f).thm = s.thm := rfl
@[simp] theorem State.updPort_f_obs (s : State) (i : Nat) (f : Port → Port) : (s.updPort i f).obs = s.obs := rfl
@[simp] theorem State.updPort_f_freeNo (s : State) (i : Nat) (f : Port → Port) : (s.updPort i f).freeNo = s.freeNo := rfl

/-! ## Fields after `updQueue` -/

@[simp] theorem State.updQueue_f_pending (s : State) (i : Nat) (f : Queue → Queue) : (s.updQueue i f).pending = s.pending := rfl
@[simp] theorem State.updQueue_f_now (s : State) (i : Nat) (f : Queue → Queue) : (s.updQueue i f).now = s.now := rfl
@[simp] theorem State.updQueue_f_mono (s : State) (i : Nat) (f : Queue → Queue) : (s.updQueue i f).mono = s.mono := rfl
@[simp] theorem State.updQueue_f_part16 (s : State) (i : Nat) (f : Queue → Queue) : (s.updQueue i f).part16 = s.part16 := rfl
@[simp] theorem State.updQueue_f_devid (s : State) (i : Nat) (f : Queue → Queue) : (s.updQueue i f).devid = s.devid := rfl
@[simp] theorem State.updQueue_f_ce (s : State) (i : Nat) (f : Queue → Queue) : (s.updQueue i f).ce = s.ce := rfl
@[simp] theorem State.updQueue_f_boot (s : State) (i : Nat) (f : Queue → Queue) : (s.updQueue i f).boot = s.boot := rfl
@[simp] theorem State.updQueue_f_works (s : State) (i : Nat) (f : Queue → Queue) : (s.updQueue i f).works = s.works := rfl
@[simp] theorem State.updQueue_f_compl (s : State) (i : Nat) (f : Queue → Queue) : (s.updQueue i f).compl = s.compl := rfl
@[simp] theorem State.updQueue_f_cqs (s : State) (i : Nat) (f : Queue → Queue) : (s.updQueue i f).cqs = s.cqs := rfl
@[simp] theorem State.updQueue_f_intake (s : State) (i : Nat) (f : Queue → Queue) : (s.updQueue i f).intake = s.intake := rfl
@[simp] theorem State.updQueue_f_journal (s : State) (i : Nat) (f : Queue → Queue) : (s.updQueue i f).journal = s.journal := rfl
@[simp] theorem State.updQueue_f_jsn (s : State) (i : Nat) (f : Queue → Queue) : (s.updQueue i f).jsn = s.jsn := rfl
@[simp] theorem State.updQueue_f_jtail (s : State) (i : Nat) (f : Queue → Queue) : (s.updQueue i f).jtail = s.jtail := rfl
@[simp] theorem State.updQueue_f_jfull (s : State) (i : Nat) (f : Queue → Queue) : (s.updQueue i f).jfull = s.jfull := rfl
@[simp] theorem State.updQueue_f_journalLost (s : State) (i : Nat) (f : Queue → Queue) : (s.updQueue i f).journalLost = s.journalLost := rfl
@[simp] theorem State.updQueue_f_role (s : State) (i : Nat) (f : Queue → Queue) : (s.updQueue i f).role = s.role := rfl
@[simp] theorem State.updQueue_f_crcerr (s : State) (i : Nat) (f : Queue → Queue) : (s.updQueue i f).crcerr = s.crcerr := rfl
@[simp] theorem State.updQueue_f_dups (s : State) (i : Nat) (f : Queue → Queue) : (s.updQueue i f).dups = s.dups := rfl
@[simp] theorem State.updQueue_f_spi (s : State) (i : Nat) (f : Queue → Queue) : (s.updQueue i f).spi = s.spi := rfl
@[simp] theorem State.updQueue_f_out (s : State) (i : Nat) (f : Queue → Queue) : (s.updQueue i f).out = s.out := rfl
@[simp] theorem State.updQueue_f_pins (s : State) (i : Nat) (f : Queue → Queue) : (s.updQueue i f).pins = s.pins := rfl
@[simp] theorem State.updQueue_f_slices (s : State) (i : Nat) (f : Queue → Queue) : (s.updQueue i f).slices = s.slices := rfl
@[simp] theorem State.updQueue_f_caps (s : State) (i : Nat) (f : Queue → Queue) : (s.updQueue i f).caps = s.caps := rfl
@[simp] theorem State.updQueue_f_engines (s : State) (i : Nat) (f : Queue → Queue) : (s.updQueue i f).engines = s.engines := rfl
@[simp] theorem State.updQueue_f_dps (s : State) (i : Nat) (f : Queue → Queue) : (s.updQueue i f).dps = s.dps := rfl
@[simp] theorem State.updQueue_f_mons (s : State) (i : Nat) (f : Queue → Queue) : (s.updQueue i f).mons = s.mons := rfl
@[simp] theorem State.updQueue_f_blks (s : State) (i : Nat) (f : Queue → Queue) : (s.updQueue i f).blks = s.blks := rfl
@[simp] theorem State.updQueue_f_bays (s : State) (i : Nat) (f : Queue → Queue) : (s.updQueue i f).bays = s.bays := rfl
@[simp] theorem State.updQueue_f_groups (s : State) (i : Nat) (f : Queue → Queue) : (s.updQueue i f).groups = s.groups := rfl
@[simp] theorem State.updQueue_f_seqs (s : State) (i : Nat) (f : Queue → Queue) : (s.updQueue i f).seqs = s.seqs := rfl
@[simp] theorem State.updQueue_f_fenced (s : State) (i : Nat) (f : Queue → Queue) : (s.updQueue i f).fenced = s.fenced := rfl
@[simp] theorem State.updQueue_f_sites (s : State) (i : Nat) (f : Queue → Queue) : (s.updQueue i f).sites = s.sites := rfl
@[simp] theorem State.updQueue_f_sheaves (s : State) (i : Nat) (f : Queue → Queue) : (s.updQueue i f).sheaves = s.sheaves := rfl
@[simp] theorem State.updQueue_f_runs (s : State) (i : Nat) (f : Queue → Queue) : (s.updQueue i f).runs = s.runs := rfl
@[simp] theorem State.updQueue_f_starts (s : State) (i : Nat) (f : Queue → Queue) : (s.updQueue i f).starts = s.starts := rfl
@[simp] theorem State.updQueue_f_matchQ (s : State) (i : Nat) (f : Queue → Queue) : (s.updQueue i f).match? = s.match? := rfl
@[simp] theorem State.updQueue_f_grn (s : State) (i : Nat) (f : Queue → Queue) : (s.updQueue i f).grn = s.grn := rfl
@[simp] theorem State.updQueue_f_flt (s : State) (i : Nat) (f : Queue → Queue) : (s.updQueue i f).flt = s.flt := rfl
@[simp] theorem State.updQueue_f_tim (s : State) (i : Nat) (f : Queue → Queue) : (s.updQueue i f).tim = s.tim := rfl
@[simp] theorem State.updQueue_f_ports (s : State) (i : Nat) (f : Queue → Queue) : (s.updQueue i f).ports = s.ports := rfl
@[simp] theorem State.updQueue_f_routes (s : State) (i : Nat) (f : Queue → Queue) : (s.updQueue i f).routes = s.routes := rfl
@[simp] theorem State.updQueue_f_mcast (s : State) (i : Nat) (f : Queue → Queue) : (s.updQueue i f).mcast = s.mcast := rfl
@[simp] theorem State.updQueue_f_noroute (s : State) (i : Nat) (f : Queue → Queue) : (s.updQueue i f).noroute = s.noroute := rfl
@[simp] theorem State.updQueue_f_ttldrop (s : State) (i : Nat) (f : Queue → Queue) : (s.updQueue i f).ttldrop = s.ttldrop := rfl
@[simp] theorem State.updQueue_f_thm (s : State) (i : Nat) (f : Queue → Queue) : (s.updQueue i f).thm = s.thm := rfl
@[simp] theorem State.updQueue_f_obs (s : State) (i : Nat) (f : Queue → Queue) : (s.updQueue i f).obs = s.obs := rfl
@[simp] theorem State.updQueue_f_freeNo (s : State) (i : Nat) (f : Queue → Queue) : (s.updQueue i f).freeNo = s.freeNo := rfl

/-! ## Fields after `updCq` -/

@[simp] theorem State.updCq_f_pending (s : State) (i : Nat) (f : Cq → Cq) : (s.updCq i f).pending = s.pending := rfl
@[simp] theorem State.updCq_f_now (s : State) (i : Nat) (f : Cq → Cq) : (s.updCq i f).now = s.now := rfl
@[simp] theorem State.updCq_f_mono (s : State) (i : Nat) (f : Cq → Cq) : (s.updCq i f).mono = s.mono := rfl
@[simp] theorem State.updCq_f_part16 (s : State) (i : Nat) (f : Cq → Cq) : (s.updCq i f).part16 = s.part16 := rfl
@[simp] theorem State.updCq_f_devid (s : State) (i : Nat) (f : Cq → Cq) : (s.updCq i f).devid = s.devid := rfl
@[simp] theorem State.updCq_f_ce (s : State) (i : Nat) (f : Cq → Cq) : (s.updCq i f).ce = s.ce := rfl
@[simp] theorem State.updCq_f_boot (s : State) (i : Nat) (f : Cq → Cq) : (s.updCq i f).boot = s.boot := rfl
@[simp] theorem State.updCq_f_works (s : State) (i : Nat) (f : Cq → Cq) : (s.updCq i f).works = s.works := rfl
@[simp] theorem State.updCq_f_compl (s : State) (i : Nat) (f : Cq → Cq) : (s.updCq i f).compl = s.compl := rfl
@[simp] theorem State.updCq_f_queues (s : State) (i : Nat) (f : Cq → Cq) : (s.updCq i f).queues = s.queues := rfl
@[simp] theorem State.updCq_f_intake (s : State) (i : Nat) (f : Cq → Cq) : (s.updCq i f).intake = s.intake := rfl
@[simp] theorem State.updCq_f_journal (s : State) (i : Nat) (f : Cq → Cq) : (s.updCq i f).journal = s.journal := rfl
@[simp] theorem State.updCq_f_jsn (s : State) (i : Nat) (f : Cq → Cq) : (s.updCq i f).jsn = s.jsn := rfl
@[simp] theorem State.updCq_f_jtail (s : State) (i : Nat) (f : Cq → Cq) : (s.updCq i f).jtail = s.jtail := rfl
@[simp] theorem State.updCq_f_jfull (s : State) (i : Nat) (f : Cq → Cq) : (s.updCq i f).jfull = s.jfull := rfl
@[simp] theorem State.updCq_f_journalLost (s : State) (i : Nat) (f : Cq → Cq) : (s.updCq i f).journalLost = s.journalLost := rfl
@[simp] theorem State.updCq_f_role (s : State) (i : Nat) (f : Cq → Cq) : (s.updCq i f).role = s.role := rfl
@[simp] theorem State.updCq_f_crcerr (s : State) (i : Nat) (f : Cq → Cq) : (s.updCq i f).crcerr = s.crcerr := rfl
@[simp] theorem State.updCq_f_dups (s : State) (i : Nat) (f : Cq → Cq) : (s.updCq i f).dups = s.dups := rfl
@[simp] theorem State.updCq_f_spi (s : State) (i : Nat) (f : Cq → Cq) : (s.updCq i f).spi = s.spi := rfl
@[simp] theorem State.updCq_f_out (s : State) (i : Nat) (f : Cq → Cq) : (s.updCq i f).out = s.out := rfl
@[simp] theorem State.updCq_f_pins (s : State) (i : Nat) (f : Cq → Cq) : (s.updCq i f).pins = s.pins := rfl
@[simp] theorem State.updCq_f_slices (s : State) (i : Nat) (f : Cq → Cq) : (s.updCq i f).slices = s.slices := rfl
@[simp] theorem State.updCq_f_caps (s : State) (i : Nat) (f : Cq → Cq) : (s.updCq i f).caps = s.caps := rfl
@[simp] theorem State.updCq_f_engines (s : State) (i : Nat) (f : Cq → Cq) : (s.updCq i f).engines = s.engines := rfl
@[simp] theorem State.updCq_f_dps (s : State) (i : Nat) (f : Cq → Cq) : (s.updCq i f).dps = s.dps := rfl
@[simp] theorem State.updCq_f_mons (s : State) (i : Nat) (f : Cq → Cq) : (s.updCq i f).mons = s.mons := rfl
@[simp] theorem State.updCq_f_blks (s : State) (i : Nat) (f : Cq → Cq) : (s.updCq i f).blks = s.blks := rfl
@[simp] theorem State.updCq_f_bays (s : State) (i : Nat) (f : Cq → Cq) : (s.updCq i f).bays = s.bays := rfl
@[simp] theorem State.updCq_f_groups (s : State) (i : Nat) (f : Cq → Cq) : (s.updCq i f).groups = s.groups := rfl
@[simp] theorem State.updCq_f_seqs (s : State) (i : Nat) (f : Cq → Cq) : (s.updCq i f).seqs = s.seqs := rfl
@[simp] theorem State.updCq_f_fenced (s : State) (i : Nat) (f : Cq → Cq) : (s.updCq i f).fenced = s.fenced := rfl
@[simp] theorem State.updCq_f_sites (s : State) (i : Nat) (f : Cq → Cq) : (s.updCq i f).sites = s.sites := rfl
@[simp] theorem State.updCq_f_sheaves (s : State) (i : Nat) (f : Cq → Cq) : (s.updCq i f).sheaves = s.sheaves := rfl
@[simp] theorem State.updCq_f_runs (s : State) (i : Nat) (f : Cq → Cq) : (s.updCq i f).runs = s.runs := rfl
@[simp] theorem State.updCq_f_starts (s : State) (i : Nat) (f : Cq → Cq) : (s.updCq i f).starts = s.starts := rfl
@[simp] theorem State.updCq_f_matchQ (s : State) (i : Nat) (f : Cq → Cq) : (s.updCq i f).match? = s.match? := rfl
@[simp] theorem State.updCq_f_grn (s : State) (i : Nat) (f : Cq → Cq) : (s.updCq i f).grn = s.grn := rfl
@[simp] theorem State.updCq_f_flt (s : State) (i : Nat) (f : Cq → Cq) : (s.updCq i f).flt = s.flt := rfl
@[simp] theorem State.updCq_f_tim (s : State) (i : Nat) (f : Cq → Cq) : (s.updCq i f).tim = s.tim := rfl
@[simp] theorem State.updCq_f_ports (s : State) (i : Nat) (f : Cq → Cq) : (s.updCq i f).ports = s.ports := rfl
@[simp] theorem State.updCq_f_routes (s : State) (i : Nat) (f : Cq → Cq) : (s.updCq i f).routes = s.routes := rfl
@[simp] theorem State.updCq_f_mcast (s : State) (i : Nat) (f : Cq → Cq) : (s.updCq i f).mcast = s.mcast := rfl
@[simp] theorem State.updCq_f_noroute (s : State) (i : Nat) (f : Cq → Cq) : (s.updCq i f).noroute = s.noroute := rfl
@[simp] theorem State.updCq_f_ttldrop (s : State) (i : Nat) (f : Cq → Cq) : (s.updCq i f).ttldrop = s.ttldrop := rfl
@[simp] theorem State.updCq_f_thm (s : State) (i : Nat) (f : Cq → Cq) : (s.updCq i f).thm = s.thm := rfl
@[simp] theorem State.updCq_f_obs (s : State) (i : Nat) (f : Cq → Cq) : (s.updCq i f).obs = s.obs := rfl
@[simp] theorem State.updCq_f_freeNo (s : State) (i : Nat) (f : Cq → Cq) : (s.updCq i f).freeNo = s.freeNo := rfl

/-! ## Fields after `updBlk` -/

@[simp] theorem State.updBlk_f_pending (s : State) (i : Nat) (f : Blk → Blk) : (s.updBlk i f).pending = s.pending := rfl
@[simp] theorem State.updBlk_f_now (s : State) (i : Nat) (f : Blk → Blk) : (s.updBlk i f).now = s.now := rfl
@[simp] theorem State.updBlk_f_mono (s : State) (i : Nat) (f : Blk → Blk) : (s.updBlk i f).mono = s.mono := rfl
@[simp] theorem State.updBlk_f_part16 (s : State) (i : Nat) (f : Blk → Blk) : (s.updBlk i f).part16 = s.part16 := rfl
@[simp] theorem State.updBlk_f_devid (s : State) (i : Nat) (f : Blk → Blk) : (s.updBlk i f).devid = s.devid := rfl
@[simp] theorem State.updBlk_f_ce (s : State) (i : Nat) (f : Blk → Blk) : (s.updBlk i f).ce = s.ce := rfl
@[simp] theorem State.updBlk_f_boot (s : State) (i : Nat) (f : Blk → Blk) : (s.updBlk i f).boot = s.boot := rfl
@[simp] theorem State.updBlk_f_works (s : State) (i : Nat) (f : Blk → Blk) : (s.updBlk i f).works = s.works := rfl
@[simp] theorem State.updBlk_f_compl (s : State) (i : Nat) (f : Blk → Blk) : (s.updBlk i f).compl = s.compl := rfl
@[simp] theorem State.updBlk_f_queues (s : State) (i : Nat) (f : Blk → Blk) : (s.updBlk i f).queues = s.queues := rfl
@[simp] theorem State.updBlk_f_cqs (s : State) (i : Nat) (f : Blk → Blk) : (s.updBlk i f).cqs = s.cqs := rfl
@[simp] theorem State.updBlk_f_intake (s : State) (i : Nat) (f : Blk → Blk) : (s.updBlk i f).intake = s.intake := rfl
@[simp] theorem State.updBlk_f_journal (s : State) (i : Nat) (f : Blk → Blk) : (s.updBlk i f).journal = s.journal := rfl
@[simp] theorem State.updBlk_f_jsn (s : State) (i : Nat) (f : Blk → Blk) : (s.updBlk i f).jsn = s.jsn := rfl
@[simp] theorem State.updBlk_f_jtail (s : State) (i : Nat) (f : Blk → Blk) : (s.updBlk i f).jtail = s.jtail := rfl
@[simp] theorem State.updBlk_f_jfull (s : State) (i : Nat) (f : Blk → Blk) : (s.updBlk i f).jfull = s.jfull := rfl
@[simp] theorem State.updBlk_f_journalLost (s : State) (i : Nat) (f : Blk → Blk) : (s.updBlk i f).journalLost = s.journalLost := rfl
@[simp] theorem State.updBlk_f_role (s : State) (i : Nat) (f : Blk → Blk) : (s.updBlk i f).role = s.role := rfl
@[simp] theorem State.updBlk_f_crcerr (s : State) (i : Nat) (f : Blk → Blk) : (s.updBlk i f).crcerr = s.crcerr := rfl
@[simp] theorem State.updBlk_f_dups (s : State) (i : Nat) (f : Blk → Blk) : (s.updBlk i f).dups = s.dups := rfl
@[simp] theorem State.updBlk_f_spi (s : State) (i : Nat) (f : Blk → Blk) : (s.updBlk i f).spi = s.spi := rfl
@[simp] theorem State.updBlk_f_out (s : State) (i : Nat) (f : Blk → Blk) : (s.updBlk i f).out = s.out := rfl
@[simp] theorem State.updBlk_f_pins (s : State) (i : Nat) (f : Blk → Blk) : (s.updBlk i f).pins = s.pins := rfl
@[simp] theorem State.updBlk_f_slices (s : State) (i : Nat) (f : Blk → Blk) : (s.updBlk i f).slices = s.slices := rfl
@[simp] theorem State.updBlk_f_caps (s : State) (i : Nat) (f : Blk → Blk) : (s.updBlk i f).caps = s.caps := rfl
@[simp] theorem State.updBlk_f_engines (s : State) (i : Nat) (f : Blk → Blk) : (s.updBlk i f).engines = s.engines := rfl
@[simp] theorem State.updBlk_f_dps (s : State) (i : Nat) (f : Blk → Blk) : (s.updBlk i f).dps = s.dps := rfl
@[simp] theorem State.updBlk_f_mons (s : State) (i : Nat) (f : Blk → Blk) : (s.updBlk i f).mons = s.mons := rfl
@[simp] theorem State.updBlk_f_bays (s : State) (i : Nat) (f : Blk → Blk) : (s.updBlk i f).bays = s.bays := rfl
@[simp] theorem State.updBlk_f_groups (s : State) (i : Nat) (f : Blk → Blk) : (s.updBlk i f).groups = s.groups := rfl
@[simp] theorem State.updBlk_f_seqs (s : State) (i : Nat) (f : Blk → Blk) : (s.updBlk i f).seqs = s.seqs := rfl
@[simp] theorem State.updBlk_f_fenced (s : State) (i : Nat) (f : Blk → Blk) : (s.updBlk i f).fenced = s.fenced := rfl
@[simp] theorem State.updBlk_f_sites (s : State) (i : Nat) (f : Blk → Blk) : (s.updBlk i f).sites = s.sites := rfl
@[simp] theorem State.updBlk_f_sheaves (s : State) (i : Nat) (f : Blk → Blk) : (s.updBlk i f).sheaves = s.sheaves := rfl
@[simp] theorem State.updBlk_f_runs (s : State) (i : Nat) (f : Blk → Blk) : (s.updBlk i f).runs = s.runs := rfl
@[simp] theorem State.updBlk_f_starts (s : State) (i : Nat) (f : Blk → Blk) : (s.updBlk i f).starts = s.starts := rfl
@[simp] theorem State.updBlk_f_matchQ (s : State) (i : Nat) (f : Blk → Blk) : (s.updBlk i f).match? = s.match? := rfl
@[simp] theorem State.updBlk_f_grn (s : State) (i : Nat) (f : Blk → Blk) : (s.updBlk i f).grn = s.grn := rfl
@[simp] theorem State.updBlk_f_flt (s : State) (i : Nat) (f : Blk → Blk) : (s.updBlk i f).flt = s.flt := rfl
@[simp] theorem State.updBlk_f_tim (s : State) (i : Nat) (f : Blk → Blk) : (s.updBlk i f).tim = s.tim := rfl
@[simp] theorem State.updBlk_f_ports (s : State) (i : Nat) (f : Blk → Blk) : (s.updBlk i f).ports = s.ports := rfl
@[simp] theorem State.updBlk_f_routes (s : State) (i : Nat) (f : Blk → Blk) : (s.updBlk i f).routes = s.routes := rfl
@[simp] theorem State.updBlk_f_mcast (s : State) (i : Nat) (f : Blk → Blk) : (s.updBlk i f).mcast = s.mcast := rfl
@[simp] theorem State.updBlk_f_noroute (s : State) (i : Nat) (f : Blk → Blk) : (s.updBlk i f).noroute = s.noroute := rfl
@[simp] theorem State.updBlk_f_ttldrop (s : State) (i : Nat) (f : Blk → Blk) : (s.updBlk i f).ttldrop = s.ttldrop := rfl
@[simp] theorem State.updBlk_f_thm (s : State) (i : Nat) (f : Blk → Blk) : (s.updBlk i f).thm = s.thm := rfl
@[simp] theorem State.updBlk_f_obs (s : State) (i : Nat) (f : Blk → Blk) : (s.updBlk i f).obs = s.obs := rfl
@[simp] theorem State.updBlk_f_freeNo (s : State) (i : Nat) (f : Blk → Blk) : (s.updBlk i f).freeNo = s.freeNo := rfl

/-! ## Fields after `updGrn` -/

@[simp] theorem State.updGrn_f_pending (s : State) (f : Granary → Granary) : (s.updGrn f).pending = s.pending := rfl
@[simp] theorem State.updGrn_f_now (s : State) (f : Granary → Granary) : (s.updGrn f).now = s.now := rfl
@[simp] theorem State.updGrn_f_mono (s : State) (f : Granary → Granary) : (s.updGrn f).mono = s.mono := rfl
@[simp] theorem State.updGrn_f_part16 (s : State) (f : Granary → Granary) : (s.updGrn f).part16 = s.part16 := rfl
@[simp] theorem State.updGrn_f_devid (s : State) (f : Granary → Granary) : (s.updGrn f).devid = s.devid := rfl
@[simp] theorem State.updGrn_f_ce (s : State) (f : Granary → Granary) : (s.updGrn f).ce = s.ce := rfl
@[simp] theorem State.updGrn_f_boot (s : State) (f : Granary → Granary) : (s.updGrn f).boot = s.boot := rfl
@[simp] theorem State.updGrn_f_works (s : State) (f : Granary → Granary) : (s.updGrn f).works = s.works := rfl
@[simp] theorem State.updGrn_f_compl (s : State) (f : Granary → Granary) : (s.updGrn f).compl = s.compl := rfl
@[simp] theorem State.updGrn_f_queues (s : State) (f : Granary → Granary) : (s.updGrn f).queues = s.queues := rfl
@[simp] theorem State.updGrn_f_cqs (s : State) (f : Granary → Granary) : (s.updGrn f).cqs = s.cqs := rfl
@[simp] theorem State.updGrn_f_intake (s : State) (f : Granary → Granary) : (s.updGrn f).intake = s.intake := rfl
@[simp] theorem State.updGrn_f_journal (s : State) (f : Granary → Granary) : (s.updGrn f).journal = s.journal := rfl
@[simp] theorem State.updGrn_f_jsn (s : State) (f : Granary → Granary) : (s.updGrn f).jsn = s.jsn := rfl
@[simp] theorem State.updGrn_f_jtail (s : State) (f : Granary → Granary) : (s.updGrn f).jtail = s.jtail := rfl
@[simp] theorem State.updGrn_f_jfull (s : State) (f : Granary → Granary) : (s.updGrn f).jfull = s.jfull := rfl
@[simp] theorem State.updGrn_f_journalLost (s : State) (f : Granary → Granary) : (s.updGrn f).journalLost = s.journalLost := rfl
@[simp] theorem State.updGrn_f_role (s : State) (f : Granary → Granary) : (s.updGrn f).role = s.role := rfl
@[simp] theorem State.updGrn_f_crcerr (s : State) (f : Granary → Granary) : (s.updGrn f).crcerr = s.crcerr := rfl
@[simp] theorem State.updGrn_f_dups (s : State) (f : Granary → Granary) : (s.updGrn f).dups = s.dups := rfl
@[simp] theorem State.updGrn_f_spi (s : State) (f : Granary → Granary) : (s.updGrn f).spi = s.spi := rfl
@[simp] theorem State.updGrn_f_out (s : State) (f : Granary → Granary) : (s.updGrn f).out = s.out := rfl
@[simp] theorem State.updGrn_f_pins (s : State) (f : Granary → Granary) : (s.updGrn f).pins = s.pins := rfl
@[simp] theorem State.updGrn_f_slices (s : State) (f : Granary → Granary) : (s.updGrn f).slices = s.slices := rfl
@[simp] theorem State.updGrn_f_caps (s : State) (f : Granary → Granary) : (s.updGrn f).caps = s.caps := rfl
@[simp] theorem State.updGrn_f_engines (s : State) (f : Granary → Granary) : (s.updGrn f).engines = s.engines := rfl
@[simp] theorem State.updGrn_f_dps (s : State) (f : Granary → Granary) : (s.updGrn f).dps = s.dps := rfl
@[simp] theorem State.updGrn_f_mons (s : State) (f : Granary → Granary) : (s.updGrn f).mons = s.mons := rfl
@[simp] theorem State.updGrn_f_blks (s : State) (f : Granary → Granary) : (s.updGrn f).blks = s.blks := rfl
@[simp] theorem State.updGrn_f_bays (s : State) (f : Granary → Granary) : (s.updGrn f).bays = s.bays := rfl
@[simp] theorem State.updGrn_f_groups (s : State) (f : Granary → Granary) : (s.updGrn f).groups = s.groups := rfl
@[simp] theorem State.updGrn_f_seqs (s : State) (f : Granary → Granary) : (s.updGrn f).seqs = s.seqs := rfl
@[simp] theorem State.updGrn_f_fenced (s : State) (f : Granary → Granary) : (s.updGrn f).fenced = s.fenced := rfl
@[simp] theorem State.updGrn_f_sites (s : State) (f : Granary → Granary) : (s.updGrn f).sites = s.sites := rfl
@[simp] theorem State.updGrn_f_sheaves (s : State) (f : Granary → Granary) : (s.updGrn f).sheaves = s.sheaves := rfl
@[simp] theorem State.updGrn_f_runs (s : State) (f : Granary → Granary) : (s.updGrn f).runs = s.runs := rfl
@[simp] theorem State.updGrn_f_starts (s : State) (f : Granary → Granary) : (s.updGrn f).starts = s.starts := rfl
@[simp] theorem State.updGrn_f_matchQ (s : State) (f : Granary → Granary) : (s.updGrn f).match? = s.match? := rfl
@[simp] theorem State.updGrn_f_grn (s : State) (f : Granary → Granary) : (s.updGrn f).grn = f s.grn := rfl
@[simp] theorem State.updGrn_f_flt (s : State) (f : Granary → Granary) : (s.updGrn f).flt = s.flt := rfl
@[simp] theorem State.updGrn_f_tim (s : State) (f : Granary → Granary) : (s.updGrn f).tim = s.tim := rfl
@[simp] theorem State.updGrn_f_ports (s : State) (f : Granary → Granary) : (s.updGrn f).ports = s.ports := rfl
@[simp] theorem State.updGrn_f_routes (s : State) (f : Granary → Granary) : (s.updGrn f).routes = s.routes := rfl
@[simp] theorem State.updGrn_f_mcast (s : State) (f : Granary → Granary) : (s.updGrn f).mcast = s.mcast := rfl
@[simp] theorem State.updGrn_f_noroute (s : State) (f : Granary → Granary) : (s.updGrn f).noroute = s.noroute := rfl
@[simp] theorem State.updGrn_f_ttldrop (s : State) (f : Granary → Granary) : (s.updGrn f).ttldrop = s.ttldrop := rfl
@[simp] theorem State.updGrn_f_thm (s : State) (f : Granary → Granary) : (s.updGrn f).thm = s.thm := rfl
@[simp] theorem State.updGrn_f_obs (s : State) (f : Granary → Granary) : (s.updGrn f).obs = s.obs := rfl
@[simp] theorem State.updGrn_f_freeNo (s : State) (f : Granary → Granary) : (s.updGrn f).freeNo = s.freeNo := rfl

/-! ## Fields after `updFlt` -/

@[simp] theorem State.updFlt_f_pending (s : State) (f : Faults → Faults) : (s.updFlt f).pending = s.pending := rfl
@[simp] theorem State.updFlt_f_now (s : State) (f : Faults → Faults) : (s.updFlt f).now = s.now := rfl
@[simp] theorem State.updFlt_f_mono (s : State) (f : Faults → Faults) : (s.updFlt f).mono = s.mono := rfl
@[simp] theorem State.updFlt_f_part16 (s : State) (f : Faults → Faults) : (s.updFlt f).part16 = s.part16 := rfl
@[simp] theorem State.updFlt_f_devid (s : State) (f : Faults → Faults) : (s.updFlt f).devid = s.devid := rfl
@[simp] theorem State.updFlt_f_ce (s : State) (f : Faults → Faults) : (s.updFlt f).ce = s.ce := rfl
@[simp] theorem State.updFlt_f_boot (s : State) (f : Faults → Faults) : (s.updFlt f).boot = s.boot := rfl
@[simp] theorem State.updFlt_f_works (s : State) (f : Faults → Faults) : (s.updFlt f).works = s.works := rfl
@[simp] theorem State.updFlt_f_compl (s : State) (f : Faults → Faults) : (s.updFlt f).compl = s.compl := rfl
@[simp] theorem State.updFlt_f_queues (s : State) (f : Faults → Faults) : (s.updFlt f).queues = s.queues := rfl
@[simp] theorem State.updFlt_f_cqs (s : State) (f : Faults → Faults) : (s.updFlt f).cqs = s.cqs := rfl
@[simp] theorem State.updFlt_f_intake (s : State) (f : Faults → Faults) : (s.updFlt f).intake = s.intake := rfl
@[simp] theorem State.updFlt_f_journal (s : State) (f : Faults → Faults) : (s.updFlt f).journal = s.journal := rfl
@[simp] theorem State.updFlt_f_jsn (s : State) (f : Faults → Faults) : (s.updFlt f).jsn = s.jsn := rfl
@[simp] theorem State.updFlt_f_jtail (s : State) (f : Faults → Faults) : (s.updFlt f).jtail = s.jtail := rfl
@[simp] theorem State.updFlt_f_jfull (s : State) (f : Faults → Faults) : (s.updFlt f).jfull = s.jfull := rfl
@[simp] theorem State.updFlt_f_journalLost (s : State) (f : Faults → Faults) : (s.updFlt f).journalLost = s.journalLost := rfl
@[simp] theorem State.updFlt_f_role (s : State) (f : Faults → Faults) : (s.updFlt f).role = s.role := rfl
@[simp] theorem State.updFlt_f_crcerr (s : State) (f : Faults → Faults) : (s.updFlt f).crcerr = s.crcerr := rfl
@[simp] theorem State.updFlt_f_dups (s : State) (f : Faults → Faults) : (s.updFlt f).dups = s.dups := rfl
@[simp] theorem State.updFlt_f_spi (s : State) (f : Faults → Faults) : (s.updFlt f).spi = s.spi := rfl
@[simp] theorem State.updFlt_f_out (s : State) (f : Faults → Faults) : (s.updFlt f).out = s.out := rfl
@[simp] theorem State.updFlt_f_pins (s : State) (f : Faults → Faults) : (s.updFlt f).pins = s.pins := rfl
@[simp] theorem State.updFlt_f_slices (s : State) (f : Faults → Faults) : (s.updFlt f).slices = s.slices := rfl
@[simp] theorem State.updFlt_f_caps (s : State) (f : Faults → Faults) : (s.updFlt f).caps = s.caps := rfl
@[simp] theorem State.updFlt_f_engines (s : State) (f : Faults → Faults) : (s.updFlt f).engines = s.engines := rfl
@[simp] theorem State.updFlt_f_dps (s : State) (f : Faults → Faults) : (s.updFlt f).dps = s.dps := rfl
@[simp] theorem State.updFlt_f_mons (s : State) (f : Faults → Faults) : (s.updFlt f).mons = s.mons := rfl
@[simp] theorem State.updFlt_f_blks (s : State) (f : Faults → Faults) : (s.updFlt f).blks = s.blks := rfl
@[simp] theorem State.updFlt_f_bays (s : State) (f : Faults → Faults) : (s.updFlt f).bays = s.bays := rfl
@[simp] theorem State.updFlt_f_groups (s : State) (f : Faults → Faults) : (s.updFlt f).groups = s.groups := rfl
@[simp] theorem State.updFlt_f_seqs (s : State) (f : Faults → Faults) : (s.updFlt f).seqs = s.seqs := rfl
@[simp] theorem State.updFlt_f_fenced (s : State) (f : Faults → Faults) : (s.updFlt f).fenced = s.fenced := rfl
@[simp] theorem State.updFlt_f_sites (s : State) (f : Faults → Faults) : (s.updFlt f).sites = s.sites := rfl
@[simp] theorem State.updFlt_f_sheaves (s : State) (f : Faults → Faults) : (s.updFlt f).sheaves = s.sheaves := rfl
@[simp] theorem State.updFlt_f_runs (s : State) (f : Faults → Faults) : (s.updFlt f).runs = s.runs := rfl
@[simp] theorem State.updFlt_f_starts (s : State) (f : Faults → Faults) : (s.updFlt f).starts = s.starts := rfl
@[simp] theorem State.updFlt_f_matchQ (s : State) (f : Faults → Faults) : (s.updFlt f).match? = s.match? := rfl
@[simp] theorem State.updFlt_f_grn (s : State) (f : Faults → Faults) : (s.updFlt f).grn = s.grn := rfl
@[simp] theorem State.updFlt_f_flt (s : State) (f : Faults → Faults) : (s.updFlt f).flt = f s.flt := rfl
@[simp] theorem State.updFlt_f_tim (s : State) (f : Faults → Faults) : (s.updFlt f).tim = s.tim := rfl
@[simp] theorem State.updFlt_f_ports (s : State) (f : Faults → Faults) : (s.updFlt f).ports = s.ports := rfl
@[simp] theorem State.updFlt_f_routes (s : State) (f : Faults → Faults) : (s.updFlt f).routes = s.routes := rfl
@[simp] theorem State.updFlt_f_mcast (s : State) (f : Faults → Faults) : (s.updFlt f).mcast = s.mcast := rfl
@[simp] theorem State.updFlt_f_noroute (s : State) (f : Faults → Faults) : (s.updFlt f).noroute = s.noroute := rfl
@[simp] theorem State.updFlt_f_ttldrop (s : State) (f : Faults → Faults) : (s.updFlt f).ttldrop = s.ttldrop := rfl
@[simp] theorem State.updFlt_f_thm (s : State) (f : Faults → Faults) : (s.updFlt f).thm = s.thm := rfl
@[simp] theorem State.updFlt_f_obs (s : State) (f : Faults → Faults) : (s.updFlt f).obs = s.obs := rfl
@[simp] theorem State.updFlt_f_freeNo (s : State) (f : Faults → Faults) : (s.updFlt f).freeNo = s.freeNo := rfl

/-! ## Fields after `updTim` -/

@[simp] theorem State.updTim_f_pending (s : State) (f : Time → Time) : (s.updTim f).pending = s.pending := rfl
@[simp] theorem State.updTim_f_now (s : State) (f : Time → Time) : (s.updTim f).now = s.now := rfl
@[simp] theorem State.updTim_f_mono (s : State) (f : Time → Time) : (s.updTim f).mono = s.mono := rfl
@[simp] theorem State.updTim_f_part16 (s : State) (f : Time → Time) : (s.updTim f).part16 = s.part16 := rfl
@[simp] theorem State.updTim_f_devid (s : State) (f : Time → Time) : (s.updTim f).devid = s.devid := rfl
@[simp] theorem State.updTim_f_ce (s : State) (f : Time → Time) : (s.updTim f).ce = s.ce := rfl
@[simp] theorem State.updTim_f_boot (s : State) (f : Time → Time) : (s.updTim f).boot = s.boot := rfl
@[simp] theorem State.updTim_f_works (s : State) (f : Time → Time) : (s.updTim f).works = s.works := rfl
@[simp] theorem State.updTim_f_compl (s : State) (f : Time → Time) : (s.updTim f).compl = s.compl := rfl
@[simp] theorem State.updTim_f_queues (s : State) (f : Time → Time) : (s.updTim f).queues = s.queues := rfl
@[simp] theorem State.updTim_f_cqs (s : State) (f : Time → Time) : (s.updTim f).cqs = s.cqs := rfl
@[simp] theorem State.updTim_f_intake (s : State) (f : Time → Time) : (s.updTim f).intake = s.intake := rfl
@[simp] theorem State.updTim_f_journal (s : State) (f : Time → Time) : (s.updTim f).journal = s.journal := rfl
@[simp] theorem State.updTim_f_jsn (s : State) (f : Time → Time) : (s.updTim f).jsn = s.jsn := rfl
@[simp] theorem State.updTim_f_jtail (s : State) (f : Time → Time) : (s.updTim f).jtail = s.jtail := rfl
@[simp] theorem State.updTim_f_jfull (s : State) (f : Time → Time) : (s.updTim f).jfull = s.jfull := rfl
@[simp] theorem State.updTim_f_journalLost (s : State) (f : Time → Time) : (s.updTim f).journalLost = s.journalLost := rfl
@[simp] theorem State.updTim_f_role (s : State) (f : Time → Time) : (s.updTim f).role = s.role := rfl
@[simp] theorem State.updTim_f_crcerr (s : State) (f : Time → Time) : (s.updTim f).crcerr = s.crcerr := rfl
@[simp] theorem State.updTim_f_dups (s : State) (f : Time → Time) : (s.updTim f).dups = s.dups := rfl
@[simp] theorem State.updTim_f_spi (s : State) (f : Time → Time) : (s.updTim f).spi = s.spi := rfl
@[simp] theorem State.updTim_f_out (s : State) (f : Time → Time) : (s.updTim f).out = s.out := rfl
@[simp] theorem State.updTim_f_pins (s : State) (f : Time → Time) : (s.updTim f).pins = s.pins := rfl
@[simp] theorem State.updTim_f_slices (s : State) (f : Time → Time) : (s.updTim f).slices = s.slices := rfl
@[simp] theorem State.updTim_f_caps (s : State) (f : Time → Time) : (s.updTim f).caps = s.caps := rfl
@[simp] theorem State.updTim_f_engines (s : State) (f : Time → Time) : (s.updTim f).engines = s.engines := rfl
@[simp] theorem State.updTim_f_dps (s : State) (f : Time → Time) : (s.updTim f).dps = s.dps := rfl
@[simp] theorem State.updTim_f_mons (s : State) (f : Time → Time) : (s.updTim f).mons = s.mons := rfl
@[simp] theorem State.updTim_f_blks (s : State) (f : Time → Time) : (s.updTim f).blks = s.blks := rfl
@[simp] theorem State.updTim_f_bays (s : State) (f : Time → Time) : (s.updTim f).bays = s.bays := rfl
@[simp] theorem State.updTim_f_groups (s : State) (f : Time → Time) : (s.updTim f).groups = s.groups := rfl
@[simp] theorem State.updTim_f_seqs (s : State) (f : Time → Time) : (s.updTim f).seqs = s.seqs := rfl
@[simp] theorem State.updTim_f_fenced (s : State) (f : Time → Time) : (s.updTim f).fenced = s.fenced := rfl
@[simp] theorem State.updTim_f_sites (s : State) (f : Time → Time) : (s.updTim f).sites = s.sites := rfl
@[simp] theorem State.updTim_f_sheaves (s : State) (f : Time → Time) : (s.updTim f).sheaves = s.sheaves := rfl
@[simp] theorem State.updTim_f_runs (s : State) (f : Time → Time) : (s.updTim f).runs = s.runs := rfl
@[simp] theorem State.updTim_f_starts (s : State) (f : Time → Time) : (s.updTim f).starts = s.starts := rfl
@[simp] theorem State.updTim_f_matchQ (s : State) (f : Time → Time) : (s.updTim f).match? = s.match? := rfl
@[simp] theorem State.updTim_f_grn (s : State) (f : Time → Time) : (s.updTim f).grn = s.grn := rfl
@[simp] theorem State.updTim_f_flt (s : State) (f : Time → Time) : (s.updTim f).flt = s.flt := rfl
@[simp] theorem State.updTim_f_tim (s : State) (f : Time → Time) : (s.updTim f).tim = f s.tim := rfl
@[simp] theorem State.updTim_f_ports (s : State) (f : Time → Time) : (s.updTim f).ports = s.ports := rfl
@[simp] theorem State.updTim_f_routes (s : State) (f : Time → Time) : (s.updTim f).routes = s.routes := rfl
@[simp] theorem State.updTim_f_mcast (s : State) (f : Time → Time) : (s.updTim f).mcast = s.mcast := rfl
@[simp] theorem State.updTim_f_noroute (s : State) (f : Time → Time) : (s.updTim f).noroute = s.noroute := rfl
@[simp] theorem State.updTim_f_ttldrop (s : State) (f : Time → Time) : (s.updTim f).ttldrop = s.ttldrop := rfl
@[simp] theorem State.updTim_f_thm (s : State) (f : Time → Time) : (s.updTim f).thm = s.thm := rfl
@[simp] theorem State.updTim_f_obs (s : State) (f : Time → Time) : (s.updTim f).obs = s.obs := rfl
@[simp] theorem State.updTim_f_freeNo (s : State) (f : Time → Time) : (s.updTim f).freeNo = s.freeNo := rfl

/-! ## Fields after `updThm` -/

@[simp] theorem State.updThm_f_pending (s : State) (f : Thermal → Thermal) : (s.updThm f).pending = s.pending := rfl
@[simp] theorem State.updThm_f_now (s : State) (f : Thermal → Thermal) : (s.updThm f).now = s.now := rfl
@[simp] theorem State.updThm_f_mono (s : State) (f : Thermal → Thermal) : (s.updThm f).mono = s.mono := rfl
@[simp] theorem State.updThm_f_part16 (s : State) (f : Thermal → Thermal) : (s.updThm f).part16 = s.part16 := rfl
@[simp] theorem State.updThm_f_devid (s : State) (f : Thermal → Thermal) : (s.updThm f).devid = s.devid := rfl
@[simp] theorem State.updThm_f_ce (s : State) (f : Thermal → Thermal) : (s.updThm f).ce = s.ce := rfl
@[simp] theorem State.updThm_f_boot (s : State) (f : Thermal → Thermal) : (s.updThm f).boot = s.boot := rfl
@[simp] theorem State.updThm_f_works (s : State) (f : Thermal → Thermal) : (s.updThm f).works = s.works := rfl
@[simp] theorem State.updThm_f_compl (s : State) (f : Thermal → Thermal) : (s.updThm f).compl = s.compl := rfl
@[simp] theorem State.updThm_f_queues (s : State) (f : Thermal → Thermal) : (s.updThm f).queues = s.queues := rfl
@[simp] theorem State.updThm_f_cqs (s : State) (f : Thermal → Thermal) : (s.updThm f).cqs = s.cqs := rfl
@[simp] theorem State.updThm_f_intake (s : State) (f : Thermal → Thermal) : (s.updThm f).intake = s.intake := rfl
@[simp] theorem State.updThm_f_journal (s : State) (f : Thermal → Thermal) : (s.updThm f).journal = s.journal := rfl
@[simp] theorem State.updThm_f_jsn (s : State) (f : Thermal → Thermal) : (s.updThm f).jsn = s.jsn := rfl
@[simp] theorem State.updThm_f_jtail (s : State) (f : Thermal → Thermal) : (s.updThm f).jtail = s.jtail := rfl
@[simp] theorem State.updThm_f_jfull (s : State) (f : Thermal → Thermal) : (s.updThm f).jfull = s.jfull := rfl
@[simp] theorem State.updThm_f_journalLost (s : State) (f : Thermal → Thermal) : (s.updThm f).journalLost = s.journalLost := rfl
@[simp] theorem State.updThm_f_role (s : State) (f : Thermal → Thermal) : (s.updThm f).role = s.role := rfl
@[simp] theorem State.updThm_f_crcerr (s : State) (f : Thermal → Thermal) : (s.updThm f).crcerr = s.crcerr := rfl
@[simp] theorem State.updThm_f_dups (s : State) (f : Thermal → Thermal) : (s.updThm f).dups = s.dups := rfl
@[simp] theorem State.updThm_f_spi (s : State) (f : Thermal → Thermal) : (s.updThm f).spi = s.spi := rfl
@[simp] theorem State.updThm_f_out (s : State) (f : Thermal → Thermal) : (s.updThm f).out = s.out := rfl
@[simp] theorem State.updThm_f_pins (s : State) (f : Thermal → Thermal) : (s.updThm f).pins = s.pins := rfl
@[simp] theorem State.updThm_f_slices (s : State) (f : Thermal → Thermal) : (s.updThm f).slices = s.slices := rfl
@[simp] theorem State.updThm_f_caps (s : State) (f : Thermal → Thermal) : (s.updThm f).caps = s.caps := rfl
@[simp] theorem State.updThm_f_engines (s : State) (f : Thermal → Thermal) : (s.updThm f).engines = s.engines := rfl
@[simp] theorem State.updThm_f_dps (s : State) (f : Thermal → Thermal) : (s.updThm f).dps = s.dps := rfl
@[simp] theorem State.updThm_f_mons (s : State) (f : Thermal → Thermal) : (s.updThm f).mons = s.mons := rfl
@[simp] theorem State.updThm_f_blks (s : State) (f : Thermal → Thermal) : (s.updThm f).blks = s.blks := rfl
@[simp] theorem State.updThm_f_bays (s : State) (f : Thermal → Thermal) : (s.updThm f).bays = s.bays := rfl
@[simp] theorem State.updThm_f_groups (s : State) (f : Thermal → Thermal) : (s.updThm f).groups = s.groups := rfl
@[simp] theorem State.updThm_f_seqs (s : State) (f : Thermal → Thermal) : (s.updThm f).seqs = s.seqs := rfl
@[simp] theorem State.updThm_f_fenced (s : State) (f : Thermal → Thermal) : (s.updThm f).fenced = s.fenced := rfl
@[simp] theorem State.updThm_f_sites (s : State) (f : Thermal → Thermal) : (s.updThm f).sites = s.sites := rfl
@[simp] theorem State.updThm_f_sheaves (s : State) (f : Thermal → Thermal) : (s.updThm f).sheaves = s.sheaves := rfl
@[simp] theorem State.updThm_f_runs (s : State) (f : Thermal → Thermal) : (s.updThm f).runs = s.runs := rfl
@[simp] theorem State.updThm_f_starts (s : State) (f : Thermal → Thermal) : (s.updThm f).starts = s.starts := rfl
@[simp] theorem State.updThm_f_matchQ (s : State) (f : Thermal → Thermal) : (s.updThm f).match? = s.match? := rfl
@[simp] theorem State.updThm_f_grn (s : State) (f : Thermal → Thermal) : (s.updThm f).grn = s.grn := rfl
@[simp] theorem State.updThm_f_flt (s : State) (f : Thermal → Thermal) : (s.updThm f).flt = s.flt := rfl
@[simp] theorem State.updThm_f_tim (s : State) (f : Thermal → Thermal) : (s.updThm f).tim = s.tim := rfl
@[simp] theorem State.updThm_f_ports (s : State) (f : Thermal → Thermal) : (s.updThm f).ports = s.ports := rfl
@[simp] theorem State.updThm_f_routes (s : State) (f : Thermal → Thermal) : (s.updThm f).routes = s.routes := rfl
@[simp] theorem State.updThm_f_mcast (s : State) (f : Thermal → Thermal) : (s.updThm f).mcast = s.mcast := rfl
@[simp] theorem State.updThm_f_noroute (s : State) (f : Thermal → Thermal) : (s.updThm f).noroute = s.noroute := rfl
@[simp] theorem State.updThm_f_ttldrop (s : State) (f : Thermal → Thermal) : (s.updThm f).ttldrop = s.ttldrop := rfl
@[simp] theorem State.updThm_f_thm (s : State) (f : Thermal → Thermal) : (s.updThm f).thm = f s.thm := rfl
@[simp] theorem State.updThm_f_obs (s : State) (f : Thermal → Thermal) : (s.updThm f).obs = s.obs := rfl
@[simp] theorem State.updThm_f_freeNo (s : State) (f : Thermal → Thermal) : (s.updThm f).freeNo = s.freeNo := rfl

/-! ## Fields after `updObs` -/

@[simp] theorem State.updObs_f_pending (s : State) (f : Obs → Obs) : (s.updObs f).pending = s.pending := rfl
@[simp] theorem State.updObs_f_now (s : State) (f : Obs → Obs) : (s.updObs f).now = s.now := rfl
@[simp] theorem State.updObs_f_mono (s : State) (f : Obs → Obs) : (s.updObs f).mono = s.mono := rfl
@[simp] theorem State.updObs_f_part16 (s : State) (f : Obs → Obs) : (s.updObs f).part16 = s.part16 := rfl
@[simp] theorem State.updObs_f_devid (s : State) (f : Obs → Obs) : (s.updObs f).devid = s.devid := rfl
@[simp] theorem State.updObs_f_ce (s : State) (f : Obs → Obs) : (s.updObs f).ce = s.ce := rfl
@[simp] theorem State.updObs_f_boot (s : State) (f : Obs → Obs) : (s.updObs f).boot = s.boot := rfl
@[simp] theorem State.updObs_f_works (s : State) (f : Obs → Obs) : (s.updObs f).works = s.works := rfl
@[simp] theorem State.updObs_f_compl (s : State) (f : Obs → Obs) : (s.updObs f).compl = s.compl := rfl
@[simp] theorem State.updObs_f_queues (s : State) (f : Obs → Obs) : (s.updObs f).queues = s.queues := rfl
@[simp] theorem State.updObs_f_cqs (s : State) (f : Obs → Obs) : (s.updObs f).cqs = s.cqs := rfl
@[simp] theorem State.updObs_f_intake (s : State) (f : Obs → Obs) : (s.updObs f).intake = s.intake := rfl
@[simp] theorem State.updObs_f_journal (s : State) (f : Obs → Obs) : (s.updObs f).journal = s.journal := rfl
@[simp] theorem State.updObs_f_jsn (s : State) (f : Obs → Obs) : (s.updObs f).jsn = s.jsn := rfl
@[simp] theorem State.updObs_f_jtail (s : State) (f : Obs → Obs) : (s.updObs f).jtail = s.jtail := rfl
@[simp] theorem State.updObs_f_jfull (s : State) (f : Obs → Obs) : (s.updObs f).jfull = s.jfull := rfl
@[simp] theorem State.updObs_f_journalLost (s : State) (f : Obs → Obs) : (s.updObs f).journalLost = s.journalLost := rfl
@[simp] theorem State.updObs_f_role (s : State) (f : Obs → Obs) : (s.updObs f).role = s.role := rfl
@[simp] theorem State.updObs_f_crcerr (s : State) (f : Obs → Obs) : (s.updObs f).crcerr = s.crcerr := rfl
@[simp] theorem State.updObs_f_dups (s : State) (f : Obs → Obs) : (s.updObs f).dups = s.dups := rfl
@[simp] theorem State.updObs_f_spi (s : State) (f : Obs → Obs) : (s.updObs f).spi = s.spi := rfl
@[simp] theorem State.updObs_f_out (s : State) (f : Obs → Obs) : (s.updObs f).out = s.out := rfl
@[simp] theorem State.updObs_f_pins (s : State) (f : Obs → Obs) : (s.updObs f).pins = s.pins := rfl
@[simp] theorem State.updObs_f_slices (s : State) (f : Obs → Obs) : (s.updObs f).slices = s.slices := rfl
@[simp] theorem State.updObs_f_caps (s : State) (f : Obs → Obs) : (s.updObs f).caps = s.caps := rfl
@[simp] theorem State.updObs_f_engines (s : State) (f : Obs → Obs) : (s.updObs f).engines = s.engines := rfl
@[simp] theorem State.updObs_f_dps (s : State) (f : Obs → Obs) : (s.updObs f).dps = s.dps := rfl
@[simp] theorem State.updObs_f_mons (s : State) (f : Obs → Obs) : (s.updObs f).mons = s.mons := rfl
@[simp] theorem State.updObs_f_blks (s : State) (f : Obs → Obs) : (s.updObs f).blks = s.blks := rfl
@[simp] theorem State.updObs_f_bays (s : State) (f : Obs → Obs) : (s.updObs f).bays = s.bays := rfl
@[simp] theorem State.updObs_f_groups (s : State) (f : Obs → Obs) : (s.updObs f).groups = s.groups := rfl
@[simp] theorem State.updObs_f_seqs (s : State) (f : Obs → Obs) : (s.updObs f).seqs = s.seqs := rfl
@[simp] theorem State.updObs_f_fenced (s : State) (f : Obs → Obs) : (s.updObs f).fenced = s.fenced := rfl
@[simp] theorem State.updObs_f_sites (s : State) (f : Obs → Obs) : (s.updObs f).sites = s.sites := rfl
@[simp] theorem State.updObs_f_sheaves (s : State) (f : Obs → Obs) : (s.updObs f).sheaves = s.sheaves := rfl
@[simp] theorem State.updObs_f_runs (s : State) (f : Obs → Obs) : (s.updObs f).runs = s.runs := rfl
@[simp] theorem State.updObs_f_starts (s : State) (f : Obs → Obs) : (s.updObs f).starts = s.starts := rfl
@[simp] theorem State.updObs_f_matchQ (s : State) (f : Obs → Obs) : (s.updObs f).match? = s.match? := rfl
@[simp] theorem State.updObs_f_grn (s : State) (f : Obs → Obs) : (s.updObs f).grn = s.grn := rfl
@[simp] theorem State.updObs_f_flt (s : State) (f : Obs → Obs) : (s.updObs f).flt = s.flt := rfl
@[simp] theorem State.updObs_f_tim (s : State) (f : Obs → Obs) : (s.updObs f).tim = s.tim := rfl
@[simp] theorem State.updObs_f_ports (s : State) (f : Obs → Obs) : (s.updObs f).ports = s.ports := rfl
@[simp] theorem State.updObs_f_routes (s : State) (f : Obs → Obs) : (s.updObs f).routes = s.routes := rfl
@[simp] theorem State.updObs_f_mcast (s : State) (f : Obs → Obs) : (s.updObs f).mcast = s.mcast := rfl
@[simp] theorem State.updObs_f_noroute (s : State) (f : Obs → Obs) : (s.updObs f).noroute = s.noroute := rfl
@[simp] theorem State.updObs_f_ttldrop (s : State) (f : Obs → Obs) : (s.updObs f).ttldrop = s.ttldrop := rfl
@[simp] theorem State.updObs_f_thm (s : State) (f : Obs → Obs) : (s.updObs f).thm = s.thm := rfl
@[simp] theorem State.updObs_f_obs (s : State) (f : Obs → Obs) : (s.updObs f).obs = f s.obs := rfl
@[simp] theorem State.updObs_f_freeNo (s : State) (f : Obs → Obs) : (s.updObs f).freeNo = s.freeNo := rfl

/-! ## Fields after `updBoot` -/

@[simp] theorem State.updBoot_f_pending (s : State) (f : Boot → Boot) : (s.updBoot f).pending = s.pending := rfl
@[simp] theorem State.updBoot_f_now (s : State) (f : Boot → Boot) : (s.updBoot f).now = s.now := rfl
@[simp] theorem State.updBoot_f_mono (s : State) (f : Boot → Boot) : (s.updBoot f).mono = s.mono := rfl
@[simp] theorem State.updBoot_f_part16 (s : State) (f : Boot → Boot) : (s.updBoot f).part16 = s.part16 := rfl
@[simp] theorem State.updBoot_f_devid (s : State) (f : Boot → Boot) : (s.updBoot f).devid = s.devid := rfl
@[simp] theorem State.updBoot_f_ce (s : State) (f : Boot → Boot) : (s.updBoot f).ce = s.ce := rfl
@[simp] theorem State.updBoot_f_boot (s : State) (f : Boot → Boot) : (s.updBoot f).boot = f s.boot := rfl
@[simp] theorem State.updBoot_f_works (s : State) (f : Boot → Boot) : (s.updBoot f).works = s.works := rfl
@[simp] theorem State.updBoot_f_compl (s : State) (f : Boot → Boot) : (s.updBoot f).compl = s.compl := rfl
@[simp] theorem State.updBoot_f_queues (s : State) (f : Boot → Boot) : (s.updBoot f).queues = s.queues := rfl
@[simp] theorem State.updBoot_f_cqs (s : State) (f : Boot → Boot) : (s.updBoot f).cqs = s.cqs := rfl
@[simp] theorem State.updBoot_f_intake (s : State) (f : Boot → Boot) : (s.updBoot f).intake = s.intake := rfl
@[simp] theorem State.updBoot_f_journal (s : State) (f : Boot → Boot) : (s.updBoot f).journal = s.journal := rfl
@[simp] theorem State.updBoot_f_jsn (s : State) (f : Boot → Boot) : (s.updBoot f).jsn = s.jsn := rfl
@[simp] theorem State.updBoot_f_jtail (s : State) (f : Boot → Boot) : (s.updBoot f).jtail = s.jtail := rfl
@[simp] theorem State.updBoot_f_jfull (s : State) (f : Boot → Boot) : (s.updBoot f).jfull = s.jfull := rfl
@[simp] theorem State.updBoot_f_journalLost (s : State) (f : Boot → Boot) : (s.updBoot f).journalLost = s.journalLost := rfl
@[simp] theorem State.updBoot_f_role (s : State) (f : Boot → Boot) : (s.updBoot f).role = s.role := rfl
@[simp] theorem State.updBoot_f_crcerr (s : State) (f : Boot → Boot) : (s.updBoot f).crcerr = s.crcerr := rfl
@[simp] theorem State.updBoot_f_dups (s : State) (f : Boot → Boot) : (s.updBoot f).dups = s.dups := rfl
@[simp] theorem State.updBoot_f_spi (s : State) (f : Boot → Boot) : (s.updBoot f).spi = s.spi := rfl
@[simp] theorem State.updBoot_f_out (s : State) (f : Boot → Boot) : (s.updBoot f).out = s.out := rfl
@[simp] theorem State.updBoot_f_pins (s : State) (f : Boot → Boot) : (s.updBoot f).pins = s.pins := rfl
@[simp] theorem State.updBoot_f_slices (s : State) (f : Boot → Boot) : (s.updBoot f).slices = s.slices := rfl
@[simp] theorem State.updBoot_f_caps (s : State) (f : Boot → Boot) : (s.updBoot f).caps = s.caps := rfl
@[simp] theorem State.updBoot_f_engines (s : State) (f : Boot → Boot) : (s.updBoot f).engines = s.engines := rfl
@[simp] theorem State.updBoot_f_dps (s : State) (f : Boot → Boot) : (s.updBoot f).dps = s.dps := rfl
@[simp] theorem State.updBoot_f_mons (s : State) (f : Boot → Boot) : (s.updBoot f).mons = s.mons := rfl
@[simp] theorem State.updBoot_f_blks (s : State) (f : Boot → Boot) : (s.updBoot f).blks = s.blks := rfl
@[simp] theorem State.updBoot_f_bays (s : State) (f : Boot → Boot) : (s.updBoot f).bays = s.bays := rfl
@[simp] theorem State.updBoot_f_groups (s : State) (f : Boot → Boot) : (s.updBoot f).groups = s.groups := rfl
@[simp] theorem State.updBoot_f_seqs (s : State) (f : Boot → Boot) : (s.updBoot f).seqs = s.seqs := rfl
@[simp] theorem State.updBoot_f_fenced (s : State) (f : Boot → Boot) : (s.updBoot f).fenced = s.fenced := rfl
@[simp] theorem State.updBoot_f_sites (s : State) (f : Boot → Boot) : (s.updBoot f).sites = s.sites := rfl
@[simp] theorem State.updBoot_f_sheaves (s : State) (f : Boot → Boot) : (s.updBoot f).sheaves = s.sheaves := rfl
@[simp] theorem State.updBoot_f_runs (s : State) (f : Boot → Boot) : (s.updBoot f).runs = s.runs := rfl
@[simp] theorem State.updBoot_f_starts (s : State) (f : Boot → Boot) : (s.updBoot f).starts = s.starts := rfl
@[simp] theorem State.updBoot_f_matchQ (s : State) (f : Boot → Boot) : (s.updBoot f).match? = s.match? := rfl
@[simp] theorem State.updBoot_f_grn (s : State) (f : Boot → Boot) : (s.updBoot f).grn = s.grn := rfl
@[simp] theorem State.updBoot_f_flt (s : State) (f : Boot → Boot) : (s.updBoot f).flt = s.flt := rfl
@[simp] theorem State.updBoot_f_tim (s : State) (f : Boot → Boot) : (s.updBoot f).tim = s.tim := rfl
@[simp] theorem State.updBoot_f_ports (s : State) (f : Boot → Boot) : (s.updBoot f).ports = s.ports := rfl
@[simp] theorem State.updBoot_f_routes (s : State) (f : Boot → Boot) : (s.updBoot f).routes = s.routes := rfl
@[simp] theorem State.updBoot_f_mcast (s : State) (f : Boot → Boot) : (s.updBoot f).mcast = s.mcast := rfl
@[simp] theorem State.updBoot_f_noroute (s : State) (f : Boot → Boot) : (s.updBoot f).noroute = s.noroute := rfl
@[simp] theorem State.updBoot_f_ttldrop (s : State) (f : Boot → Boot) : (s.updBoot f).ttldrop = s.ttldrop := rfl
@[simp] theorem State.updBoot_f_thm (s : State) (f : Boot → Boot) : (s.updBoot f).thm = s.thm := rfl
@[simp] theorem State.updBoot_f_obs (s : State) (f : Boot → Boot) : (s.updBoot f).obs = s.obs := rfl
@[simp] theorem State.updBoot_f_freeNo (s : State) (f : Boot → Boot) : (s.updBoot f).freeNo = s.freeNo := rfl

/-! ## A state with other work in progress -/

/-- `s` with the work in progress `W`. -/
def State.withWorks (s : State) (W : List Work) : State := { s with works := W }

@[simp] theorem State.withWorks_f_pending (s : State) (W : List Work) : (s.withWorks W).pending = s.pending := rfl
@[simp] theorem State.withWorks_f_now (s : State) (W : List Work) : (s.withWorks W).now = s.now := rfl
@[simp] theorem State.withWorks_f_mono (s : State) (W : List Work) : (s.withWorks W).mono = s.mono := rfl
@[simp] theorem State.withWorks_f_part16 (s : State) (W : List Work) : (s.withWorks W).part16 = s.part16 := rfl
@[simp] theorem State.withWorks_f_devid (s : State) (W : List Work) : (s.withWorks W).devid = s.devid := rfl
@[simp] theorem State.withWorks_f_ce (s : State) (W : List Work) : (s.withWorks W).ce = s.ce := rfl
@[simp] theorem State.withWorks_f_boot (s : State) (W : List Work) : (s.withWorks W).boot = s.boot := rfl
@[simp] theorem State.withWorks_works (s : State) (W : List Work) : (s.withWorks W).works = W := rfl
@[simp] theorem State.withWorks_f_compl (s : State) (W : List Work) : (s.withWorks W).compl = s.compl := rfl
@[simp] theorem State.withWorks_f_queues (s : State) (W : List Work) : (s.withWorks W).queues = s.queues := rfl
@[simp] theorem State.withWorks_f_cqs (s : State) (W : List Work) : (s.withWorks W).cqs = s.cqs := rfl
@[simp] theorem State.withWorks_f_intake (s : State) (W : List Work) : (s.withWorks W).intake = s.intake := rfl
@[simp] theorem State.withWorks_f_journal (s : State) (W : List Work) : (s.withWorks W).journal = s.journal := rfl
@[simp] theorem State.withWorks_f_jsn (s : State) (W : List Work) : (s.withWorks W).jsn = s.jsn := rfl
@[simp] theorem State.withWorks_f_jtail (s : State) (W : List Work) : (s.withWorks W).jtail = s.jtail := rfl
@[simp] theorem State.withWorks_f_jfull (s : State) (W : List Work) : (s.withWorks W).jfull = s.jfull := rfl
@[simp] theorem State.withWorks_f_journalLost (s : State) (W : List Work) : (s.withWorks W).journalLost = s.journalLost := rfl
@[simp] theorem State.withWorks_f_role (s : State) (W : List Work) : (s.withWorks W).role = s.role := rfl
@[simp] theorem State.withWorks_f_crcerr (s : State) (W : List Work) : (s.withWorks W).crcerr = s.crcerr := rfl
@[simp] theorem State.withWorks_f_dups (s : State) (W : List Work) : (s.withWorks W).dups = s.dups := rfl
@[simp] theorem State.withWorks_f_spi (s : State) (W : List Work) : (s.withWorks W).spi = s.spi := rfl
@[simp] theorem State.withWorks_f_out (s : State) (W : List Work) : (s.withWorks W).out = s.out := rfl
@[simp] theorem State.withWorks_f_pins (s : State) (W : List Work) : (s.withWorks W).pins = s.pins := rfl
@[simp] theorem State.withWorks_f_slices (s : State) (W : List Work) : (s.withWorks W).slices = s.slices := rfl
@[simp] theorem State.withWorks_f_caps (s : State) (W : List Work) : (s.withWorks W).caps = s.caps := rfl
@[simp] theorem State.withWorks_f_engines (s : State) (W : List Work) : (s.withWorks W).engines = s.engines := rfl
@[simp] theorem State.withWorks_f_dps (s : State) (W : List Work) : (s.withWorks W).dps = s.dps := rfl
@[simp] theorem State.withWorks_f_mons (s : State) (W : List Work) : (s.withWorks W).mons = s.mons := rfl
@[simp] theorem State.withWorks_f_blks (s : State) (W : List Work) : (s.withWorks W).blks = s.blks := rfl
@[simp] theorem State.withWorks_f_bays (s : State) (W : List Work) : (s.withWorks W).bays = s.bays := rfl
@[simp] theorem State.withWorks_f_groups (s : State) (W : List Work) : (s.withWorks W).groups = s.groups := rfl
@[simp] theorem State.withWorks_f_seqs (s : State) (W : List Work) : (s.withWorks W).seqs = s.seqs := rfl
@[simp] theorem State.withWorks_f_fenced (s : State) (W : List Work) : (s.withWorks W).fenced = s.fenced := rfl
@[simp] theorem State.withWorks_f_sites (s : State) (W : List Work) : (s.withWorks W).sites = s.sites := rfl
@[simp] theorem State.withWorks_f_sheaves (s : State) (W : List Work) : (s.withWorks W).sheaves = s.sheaves := rfl
@[simp] theorem State.withWorks_f_runs (s : State) (W : List Work) : (s.withWorks W).runs = s.runs := rfl
@[simp] theorem State.withWorks_f_starts (s : State) (W : List Work) : (s.withWorks W).starts = s.starts := rfl
@[simp] theorem State.withWorks_f_matchQ (s : State) (W : List Work) : (s.withWorks W).match? = s.match? := rfl
@[simp] theorem State.withWorks_f_grn (s : State) (W : List Work) : (s.withWorks W).grn = s.grn := rfl
@[simp] theorem State.withWorks_f_flt (s : State) (W : List Work) : (s.withWorks W).flt = s.flt := rfl
@[simp] theorem State.withWorks_f_tim (s : State) (W : List Work) : (s.withWorks W).tim = s.tim := rfl
@[simp] theorem State.withWorks_f_ports (s : State) (W : List Work) : (s.withWorks W).ports = s.ports := rfl
@[simp] theorem State.withWorks_f_routes (s : State) (W : List Work) : (s.withWorks W).routes = s.routes := rfl
@[simp] theorem State.withWorks_f_mcast (s : State) (W : List Work) : (s.withWorks W).mcast = s.mcast := rfl
@[simp] theorem State.withWorks_f_noroute (s : State) (W : List Work) : (s.withWorks W).noroute = s.noroute := rfl
@[simp] theorem State.withWorks_f_ttldrop (s : State) (W : List Work) : (s.withWorks W).ttldrop = s.ttldrop := rfl
@[simp] theorem State.withWorks_f_thm (s : State) (W : List Work) : (s.withWorks W).thm = s.thm := rfl
@[simp] theorem State.withWorks_f_obs (s : State) (W : List Work) : (s.withWorks W).obs = s.obs := rfl
@[simp] theorem State.withWorks_f_freeNo (s : State) (W : List Work) : (s.withWorks W).freeNo = s.freeNo := rfl

end Sys2Proof.Machine
end

