-- ==== Sys2Proof/Laws/Cmd.lean ====
section
/-!
SUPPORT. What the shared operations of host commands do: the prologue of a command, completions, trace and counters.
-/
namespace Sys2Proof.Machine

/-! ## Books -/

theorem book_refl (s : State) : book s s = s := rfl

/-- A book change on top of another is one book change. -/
theorem book_trans {t u v : State} (h : t = book t u) (k : u = book u v) : t = book t v := by
  rw [h, k]; rfl

theorem count_book (i n : Nat) (s : State) : count i n s = book (count i n s) s := rfl

/-- What offering a trace record does: only the trace buffer, its counts and the counters change. -/
theorem trace_spec (ty sub sel : Nat) (body : List Byte) (s : State) :
    ∃ o : Obs, trace ty sub sel body s = { s with obs := o } ∧ o.en = s.obs.en ∧ o.lanes = s.obs.lanes ∧
      o.filter = s.obs.filter ∧ o.latch = s.obs.latch := by
  unfold trace
  split
  · dsimp only
    split
    · refine ⟨_, rfl, ?_, ?_, ?_, ?_⟩ <;> (unfold traceDropRecord; split <;> rfl)
    · exact ⟨_, rfl, rfl, rfl, rfl, rfl⟩
  · exact ⟨s.obs, rfl, rfl, rfl, rfl, rfl⟩

theorem trace_book (ty sub sel : Nat) (body : List Byte) (s : State) :
    trace ty sub sel body s = book (trace ty sub sel body s) s := by
  obtain ⟨o, h, h1, h2, h3, h4⟩ := trace_spec ty sub sel body s
  rw [h]
  simp only [book, ← h1, ← h2, ← h3, ← h4]

theorem trace_works (ty sub sel : Nat) (body : List Byte) (s : State) :
    (trace ty sub sel body s).works = s.works ∧ (trace ty sub sel body s).compl = s.compl := by
  obtain ⟨o, h, -⟩ := trace_spec ty sub sel body s
  rw [h]
  exact ⟨rfl, rfl⟩

/-! ## Work -/

theorem work?_with (s : State) (W : List Work) (k : Key) :
    (s.withWorks W).work? k = W.find? (fun w => w.key == k) := rfl

theorem find_map_key (W : List Work) (k k' : Key) (f : Work → Work) (hf : ∀ w, (f w).key = w.key) :
    (W.map (fun w => if w.key = k' then f w else w)).find? (fun w => w.key == k) =
      (W.find? (fun w => w.key == k)).map (fun w => if w.key = k' then f w else w) := by
  induction W with
  | nil => rfl
  | cons a l ih =>
    simp only [List.map_cons, List.find?_cons]
    have h1 : (if a.key = k' then f a else a).key = a.key := by split <;> simp [hf]
    rw [h1]
    cases h : (a.key == k) with
    | true => rfl
    | false => simpa using ih

/-- A command's work begins: only the list of works changes, and the work is there and has started. -/
theorem beginWork_spec (op : Nat) (c : Cmd) (b : List Nat) (s : State) :
    ∃ W w, beginWork op c b s = s.withWorks W ∧ W.find? (fun w => w.key == c.key) = some w ∧ w.started = true := by
  unfold beginWork
  split
  · rename_i w hw
    split
    · exact ⟨s.works, w, rfl, hw, by assumption⟩
    · refine ⟨_, if w.key = c.key then
          { w with started := true, op := BitVec.ofNat 12 op, sl := s.boot.sl, tq := s.tim.tq
                   ce := s.ce, bays := w.bays ||| BitVec.ofNat 16 (bitsToNat b) } else w, rfl, ?_, ?_⟩
      · have h : s.works.find? (fun w => w.key == c.key) = some w := hw
        exact (find_map_key s.works c.key c.key (fun w =>
          { w with started := true, op := BitVec.ofNat 12 op, sl := s.boot.sl, tq := s.tim.tq
                   ce := s.ce, bays := w.bays ||| BitVec.ofNat 16 (bitsToNat b) }) (fun _ => rfl)).trans (by rw [h]; rfl)
      · have : w.key = c.key := by simpa using List.find?_some hw
        rw [if_pos this]
  · rename_i hw
    refine ⟨_, { key := c.key, op := BitVec.ofNat 12 op, tag := c.tag, src := c.src, started := true,
                 bays := BitVec.ofNat 16 (bitsToNat b), sl := s.boot.sl, tq := s.tim.tq,
                 th := s.throttled (BitVec.ofNat 16 (bitsToNat b)) 0, ce := s.ce }, rfl, ?_, rfl⟩
    have : s.works.find? (fun w => w.key == c.key) = none := hw
    simp [List.find?_append, this]

/-! ## The prologue -/

/-- No check fails when none of them does. -/
theorem firstFail_none {l : List (Option Reason)} (h : ∀ r ∈ l, r = none) : firstFail l = none := by
  unfold firstFail
  induction l with
  | nil => rfl
  | cons a l ih =>
    have := h a (by simp)
    subst this
    exact ih (fun r hr => h r (List.mem_cons_of_mem _ hr))

theorem firstFail_append (a b : List (Option Reason)) :
    firstFail (a ++ b) = (firstFail a).or (firstFail b) := by
  unfold firstFail
  induction a with
  | nil => rfl
  | cons x a ih =>
    cases x with
    | none => exact ih
    | some r => rfl

@[simp] theorem firstFail_nil : firstFail [] = none := rfl
theorem firstFail_cons (x : Option Reason) (l : List (Option Reason)) :
    firstFail (x :: l) = x.or (firstFail l) := by cases x <;> rfl
@[simp] theorem firstFail_cons_eq_none (x : Option Reason) (l : List (Option Reason)) :
    firstFail (x :: l) = none ↔ x = none ∧ firstFail l = none := by cases x <;> simp [firstFail]
@[simp] theorem firstFail_append_eq_none (a b : List (Option Reason)) :
    firstFail (a ++ b) = none ↔ firstFail a = none ∧ firstFail b = none := by
  rw [firstFail_append]; cases firstFail a <;> simp
@[simp] theorem when?_eq_none (b : Bool) (r : Reason) : when? b r = none ↔ b = false := by cases b <;> simp [when?]

/-- The work in progress once a command's work has begun. -/
def begun (op : Nat) (c : Cmd) (tg : Target) (s : State) : List Work := (beginWork op c (tg.bays s) s).works

theorem begun_find (op : Nat) (c : Cmd) (tg : Target) (s : State) :
    ∃ w, (s.withWorks (begun op c tg s)).work? c.key = some w ∧ w.started = true := by
  obtain ⟨W, w, hb, hw, hst⟩ := beginWork_spec op c (tg.bays s) s
  exact ⟨w, by rw [begun, hb]; exact hw, hst⟩

/-- A command that runs and passes its checks has its effect on the state with its work begun. -/
theorem runCmd_eq {f : Form} {c : Cmd} {tg : Target} {s : State} {format state : State → Target → List (Option Reason)}
    {effect : Target → State → State} (h : Runs f.op f.scopes c tg s)
    (hf : firstFail (format (s.withWorks (begun f.op c tg s)) tg) = none)
    (hs : firstFail (state (s.withWorks (begun f.op c tg s)) tg) = none) :
    runCmd f c format state effect s = effect tg (s.withWorks (begun f.op c tg s)) := by
  have hb : beginWork f.op c (tg.bays s) s = s.withWorks (begun f.op c tg s) := by
    obtain ⟨W, w, hb, -, -⟩ := beginWork_spec f.op c (tg.bays s) s
    rw [begun, hb]; rfl
  have h1 : scopeCheck f c = none := by simp [scopeCheck, h.target, h.scope]
  have h2 : roleCheck f c = none := by
    have := h.role
    simp only [roleCheck, when?_eq_none]
    rcases this with h | h <;> simp [h]
  have h3 : recoveryCheck f (s.withWorks (begun f.op c tg s)) = none := by
    have := h.firmware
    simp only [recoveryCheck, when?_eq_none, State.withWorks_f_boot]
    rcases this with h | h | h <;> simp [h]
  have h4 : s.serving = true ∧ mayRun f.op c s = true := ⟨h.serving, h.started⟩
  unfold runCmd
  simp only [h4, and_self, if_true, h.target, Option.getD_some, hb, firstFail_append, hf, hs, firstFail_cons, firstFail_nil, h1, h2, h3]
  simp

/-! ## Checks -/

@[simp] theorem eachPin_eq_none (l : List Nat) (f : Nat → Option Reason) : eachPin l f = none ↔ ∀ p ∈ l, f p = none := by
  simp [eachPin]

@[simp] theorem lenCheck_eq_none (c : Cmd) (n : Nat) : lenCheck c n = none ↔ c.params.length = n := by
  simp [lenCheck]

@[simp] theorem rsv_eq_none (c : Cmd) (o n : Nat) : rsv c o n = none ↔ Blank c o n := by simp [rsv, Blank]

@[simp] theorem rng_eq_none (c : Cmd) (o n lo hi : Nat) : rng c o n lo hi = none ↔ lo ≤ c.u o n ∧ c.u o n ≤ hi := by
  simp [rng]

@[simp] theorem rngS_eq_none (c : Cmd) (o n : Nat) (lo hi : Int) : rngS c o n lo hi = none ↔ lo ≤ c.i o n ∧ c.i o n ≤ hi := by
  simp [rngS]

@[simp] theorem rngIf_eq_none (b : Bool) (o : Nat) : rngIf b o = none ↔ b = false := by simp [rngIf]

@[simp] theorem timeRsv_eq_none (c : Cmd) (o : Nat) : timeRsv c o = none ↔ Blank c (o + 10) 6 := by simp [timeRsv, Blank]

@[simp] theorem pinField_eq_none (c : Cmd) (s : State) (tg : Target) : pinField c s tg 0 = none ↔ NamesPins c s tg := by
  unfold pinField NamesPins
  by_cases h : c.u 0 2 = 0xFFFF
  · simp [h]
  · by_cases h2 : 255 < c.u 0 2
    · simp [h, h2]; omega
    · simp [h, h2]; omega

@[simp] theorem onePin_eq_none (c : Cmd) (s : State) (tg : Target) : onePin c s tg 0 = none ↔ NamesPin c s tg := by
  unfold onePin NamesPin
  by_cases h2 : 255 < c.u 0 2
  · simp [h2]; omega
  · simp [h2]; omega

theorem streamCheck_eq_none (s : State) (p : Nat) : streamCheck s p = none ↔ streamOn s p = false := by simp [streamCheck]

/-! ## Completions -/

theorem find_dropped (W : List Work) (k : Key) :
    (W.filter (fun w => w.key != k)).find? (fun w => w.key == k) = none := by
  simp [List.find?_eq_none]

theorem journalCpl_spec (r : Cpl) (s : State) :
    journalCpl r s = book (journalCpl r s) s ∧ (journalCpl r s).works = s.works ∧
      (journalCpl r s).compl = s.compl ++ [r] := by
  unfold journalCpl
  split <;> exact ⟨rfl, rfl, rfl⟩

/-- What a completion does to a command in progress that is no retried execution: one record is added, the work is over,
only the books and the command's queue change. -/
theorem complete_spec {k : Key} {cls code detail : Nat} {w6 w7 : Word} {data : List Byte} {s : State} {w : Work}
    (hw : s.work? k = some w) (hr : (s.entry? k).bind (·.retry) = none) :
    ∃ t, complete k cls code detail w6 w7 data s = (if (mkCpl s w cls code detail w6 w7 data).cls = 2 then haltQueue k t else t) ∧
      t = book t s ∧ t.works = s.works.filter (fun w => w.key != k) ∧
      t.compl = s.compl ++ [mkCpl s w cls code detail w6 w7 data] := by
  have h0 : s.workOf k = w := by simp [State.workOf, hw]
  have h1 : (s.work? k).isNone = false := by rw [hw]; rfl
  unfold complete
  dsimp only
  rw [h0, hr, h1]
  generalize mkCpl s w cls code detail w6 w7 data = r
  obtain ⟨u, hu⟩ : ∃ u, u = count (if w.op.toNat ∈ slowOpcodes then 697 else 696) 1 (dropWork k s) := ⟨_, rfl⟩
  obtain ⟨v, hv⟩ : ∃ v, v = traceCommand 2 k w.op.toNat (((s.entry? k).map (·.jsn)).getD 0) r.w2 u := ⟨_, rfl⟩
  have hbu : u = book u s := by subst hu; rfl
  have hbv : v = book v u := by subst hv; exact trace_book ..
  have hwu : u.works = s.works.filter (fun w => w.key != k) ∧ u.compl = s.compl := by subst hu; exact ⟨rfl, rfl⟩
  have hwv : v.works = u.works ∧ v.compl = u.compl := by subst hv; exact trace_works ..
  obtain ⟨j1, j2, j3⟩ := journalCpl_spec r v
  refine ⟨journalCpl r v, ?_, book_trans (book_trans j1 hbv) hbu, ?_, ?_⟩
  · subst hv hu; rfl
  · rw [j2, hwv.1, hwu.1]
  · rw [j3, hwv.2, hwu.2]

theorem bookQ_trans {t u v : State} (h : t = bookQ t u) (k : u = bookQ u v) : t = bookQ t v := by
  rw [h, k]; rfl

theorem book_bookQ {t u : State} (h : t = book t u) : t = bookQ t u := by
  rw [h]; rfl

theorem updQueue_bookQ (s : State) (q : Nat) (f : Queue → Queue) : s.updQueue q f = bookQ (s.updQueue q f) s := rfl
theorem updEntry_bookQ (s : State) (k : Key) (f : JEntry → JEntry) : s.updEntry k f = bookQ (s.updEntry k f) s := rfl
theorem dropWork_bookQ (s : State) (k : Key) : dropWork k s = bookQ (dropWork k s) s := rfl

/-- A completion of any command changes only the books and the queues. -/
theorem complete_bookQ (k : Key) (cls code detail : Nat) (w6 w7 : Word) (data : List Byte) (s : State) :
    complete k cls code detail w6 w7 data s = bookQ (complete k cls code detail w6 w7 data s) s := by
  unfold complete
  split
  · rfl
  · dsimp only
    generalize mkCpl s (s.workOf k) cls code detail w6 w7 data = r
    generalize hu : count (if (s.workOf k).op.toNat ∈ slowOpcodes then 697 else 696) 1 (dropWork k s) = u
    have h1 : u = bookQ u s := by subst hu; rfl
    generalize hv : traceCommand 2 k (s.workOf k).op.toNat (((s.entry? k).map (·.jsn)).getD 0) r.w2 u = v
    have h2 : v = bookQ v s := bookQ_trans (book_bookQ (by subst hv; exact trace_book ..)) h1
    split
    · rename_i rk _
      generalize hx : dropWork rk (v.updEntry k fun e => { e with retry := none }) = x
      have h3 : x = bookQ x s := bookQ_trans (u := v) (by subst hx; rfl) h2
      generalize ({ r with key := rk, tag := (v.workOf rk).tag, src := (v.workOf rk).src } : Cpl) = c'
      have h4 := bookQ_trans (book_bookQ (journalCpl_spec c' x).1) h3
      split
      · exact h4
      · exact bookQ_trans (updQueue_bookQ ..) h4
    · have h4 := bookQ_trans (book_bookQ (journalCpl_spec r v).1) h2
      split
      · exact bookQ_trans (updQueue_bookQ ..) h4
      · exact h4

/-- Completions of several commands change only the books and the queues. -/
theorem foldl_bookQ {α : Type} {f : State → α → State} (l : List α) (h : ∀ a s, f s a = bookQ (f s a) s) (s : State) :
    l.foldl f s = bookQ (l.foldl f s) s := by
  induction l generalizing s with
  | nil => rfl
  | cons a l ih => exact bookQ_trans (ih (f s a)) (h a s)

/-- An OK completion: the command is answered, and only the books change. -/
theorem complete_answered {c : Cmd} {detail : Nat} {w6 w7 : Word} {data : List Byte} {s : State} {w : Work}
    (hw : s.work? c.key = some w) (hr : (s.entry? c.key).bind (·.retry) = none) :
    ∃ t r, complete c.key 0 0 detail w6 w7 data s = t ∧ t = book t s ∧ t.work? c.key = none ∧
      t.compl = s.compl ++ [r] ∧ r.key = w.key ∧ (r.cls = 0 ∧ r.code = 0 ∨ r.cls = 1) ∧
      r.detail = BitVec.ofNat 16 detail ∧ r.w6 = w6 ∧ r.w7 = w7 ∧ r.data = data ∧ r.stamp = t.stamp := by
  obtain ⟨t, ht, hb, hW, hc⟩ := complete_spec (cls := 0) (code := 0) (detail := detail) (w6 := w6) (w7 := w7) (data := data) hw hr
  have hcls : (mkCpl s w 0 0 detail w6 w7 data).cls = 0 ∧ (mkCpl s w 0 0 detail w6 w7 data).code = 0 ∨
      (mkCpl s w 0 0 detail w6 w7 data).cls = 1 := by
    simp only [mkCpl, if_true]
    cases deviceQualifier s w.key.qid w.stks <;> simp
  have hne : (mkCpl s w 0 0 detail w6 w7 data).cls ≠ 2 := by
    rcases hcls with h | h
    · rw [h.1]; decide
    · rw [h]; decide
  rw [if_neg hne] at ht
  refine ⟨t, _, ht, hb, ?_, hc, rfl, hcls, rfl, rfl, rfl, rfl, ?_⟩
  · unfold State.work?
    rw [hW]; exact find_dropped _ _
  · rw [hb]; rfl

/-! ## Tags of work in progress -/

/-- Changes of a work's tags keep it in progress. -/
theorem updWork_find {s : State} {k : Key} {w : Work} {f : Work → Work} (hf : ∀ w, (f w).key = w.key)
    (hw : s.work? k = some w) : (s.updWork k f).work? k = some (f w) := by
  have hk : w.key = k := by simpa using List.find?_some hw
  have := find_map_key s.works k k f hf
  rw [show s.works.find? (fun w => w.key == k) = some w from hw] at this
  exact this.trans (by simp [hk])

/-- The bays that a command uses are noted in its work and nowhere else. -/
theorem useBays_spec (k : Key) (l : List Nat) {s : State} {w : Work} (hw : s.work? k = some w) :
    ∃ W w', useBays k l s = (s.withWorks W) ∧ (s.withWorks W).work? k = some w' ∧
      w'.started = w.started :=
  ⟨_, _, rfl, updWork_find (fun _ => rfl) hw, rfl⟩

/-- Answering a command that has begun on a state that differs from `s` in nothing of the books but the works. -/
theorem completeOk_answered {c : Cmd} {res : Nat} {s t : State} {w : Work} (hw : t.work? c.key = some w)
    (he : t.entry? c.key = s.entry? c.key) (hr : (s.entry? c.key).bind (·.retry) = none) (hc : t.compl = s.compl) :
    Answered c s (completeOk c.key res t) 0 res [] ∧ completeOk c.key res t = book (completeOk c.key res t) t := by
  have hk : w.key = c.key := by simpa using List.find?_some hw
  obtain ⟨u, r, hu, hb, hn, hcm, h1, h2, h3, h4, h5, h6, h7⟩ :=
    complete_answered (detail := 0) (w6 := BitVec.ofNat 32 res) (w7 := BitVec.ofNat 32 (res / 2 ^ 32)) (data := []) hw (he ▸ hr)
  have hu' : completeOk c.key res t = u := hu
  rw [hu']
  refine ⟨⟨hn, r, ?_, h1.trans hk, h2, h3, h4, h5, h6, h7⟩, hb⟩
  rw [hcm, hc]; simp

/-! ## Events of the Sieve -/

theorem Tab.get_mapVals {α : Type} (d : α) (t : Tab α) (f : Nat → α → α) (k : Nat) (h : f k d = d) :
    Tab.get d (Tab.mapVals t f) k = f k (Tab.get d t k) := by
  induction t with
  | nil => exact h.symm
  | cons e t ih =>
    obtain ⟨k', v⟩ := e
    simp only [Tab.mapVals, List.map_cons, Tab.get] at ih ⊢
    split
    · rename_i hk; subst hk; rfl
    · exact ih

/-- What an event does: its source is graded and its entry queued, no other alarm bit changes. -/
theorem raiseAt_raised (atLeast : BitVec 2) (i cause detail : Nat) (s : State) : Raised i cause s (raiseAt atLeast i cause detail s) := by
  unfold raiseAt
  dsimp only
  generalize hs : (s.flt.lastEvent == some s.evStamp) = same
  generalize hu : (if same = true then
    s.updFlt fun t => { t with sources := Tab.mapVals t.sources fun _ x => markSame s.evStamp x } else s) = u
  have hev : u.evStamp = s.evStamp := by subst hu; split <;> rfl
  have hal : ∀ j, (u.source j).alarm = (s.source j).alarm := by
    intro j
    subst hu
    split
    · unfold State.source
      rw [show (s.updFlt fun t => { t with sources := Tab.mapVals t.sources fun _ x => markSame s.evStamp x }).flt.sources =
        Tab.mapVals s.flt.sources (fun _ x => markSame s.evStamp x) from rfl, Tab.get_mapVals _ _ _ _ rfl]
      unfold markSame; split
      · rfl
      · split <;> rfl
    · rfl
  have hrec : u.flt = { s.flt with sources := u.flt.sources } := by subst hu; split <;> rfl
  generalize hy : queueEvent s.evStamp (sieveGrade u.ticks atLeast (u.source i)).sev (BitVec.ofNat 8 cause)
    (BitVec.ofNat 32 detail) (!u.sclkOn) same (sieveGrade u.ticks atLeast (u.source i)) = y
  have hya : y.alarm = true := by
    subst hy; unfold queueEvent; split <;> rfl
  have hye : ∃ e, y.entry = some e ∧ e.cause = BitVec.ofNat 8 cause ∧ e.lastStamp = s.evStamp := by
    subst hy; unfold queueEvent; split <;> exact ⟨_, rfl, rfl, rfl⟩
  generalize ht : ((u.updSource i (fun _ => y)).updFlt (fun t =>
    { t with lastEvent := some s.evStamp, alarmNew := t.alarmNew || !(u.source i).alarm })) = t
  have hsrc : ∀ j, t.source j = if j = i then y else u.source j := by
    intro j
    subst ht
    unfold State.source State.updSource
    rw [show ((u.updFlt fun t => { t with sources := Tab.upd (source0 i) t.sources i fun _ => y }).updFlt (fun t =>
      { t with lastEvent := some s.evStamp, alarmNew := t.alarmNew || !(Tab.get (source0 i) u.flt.sources i).alarm })).flt.sources =
        Tab.set u.flt.sources i y from rfl, Tab.get_set]
  have hte : t.evStamp = s.evStamp := by subst ht; exact hev
  refine ⟨?_, ?_, ?_, ?_⟩
  · rw [hsrc, if_pos rfl, hya]
  · rw [hsrc, if_pos rfl, hte]; exact hye
  · intro j hj; rw [hsrc, if_neg hj, hal]
  · have : t.flt = { u.flt with sources := t.flt.sources, lastEvent := t.flt.lastEvent, alarmNew := t.flt.alarmNew } := by
      subst ht; rfl
    rw [this, hrec]

theorem raise_raised (i cause detail : Nat) (s : State) : Raised i cause s (raise i cause detail s) := raiseAt_raised ..

/-- An event changes the fault system only. -/
theorem raiseAt_frame (atLeast : BitVec 2) (i cause detail : Nat) (s : State) :
    raiseAt atLeast i cause detail s = { s with flt := (raiseAt atLeast i cause detail s).flt } := by
  unfold raiseAt; dsimp only; split <;> rfl

theorem raise_frame (i cause detail : Nat) (s : State) : raise i cause detail s = { s with flt := (raise i cause detail s).flt } :=
  raiseAt_frame ..

theorem Raised.of_flt {i cause : Nat} {s u t : State} (h : Raised i cause u t) (hf : u.flt = s.flt) : Raised i cause s t := by
  refine ⟨h.alarm, h.entry, fun j hj => (h.others j hj).trans ?_, ?_⟩
  · unfold State.source; rw [hf]
  · rw [h.records, hf]

/-! ## Register writes -/

/-- What a register write comes to when the write itself is done at once. -/
theorem regRow_done {n : RegName} {v : Word} {a : Agent} {reach : Nat → State → Bool} {f : State → WRes} {s : State}
    (h : WriteRuns n v a reach s) {g : State → State} (hf : ∀ W, f (s.withWorks W) = .done (g (s.withWorks W)))
    (hg : ∀ W, (g (s.withWorks W)).works = W ∧ (g (s.withWorks W)).compl = s.compl ∧ (g (s.withWorks W)).journal = s.journal) :
    ∃ W, Written a s (regRow n v a reach f s) (g (s.withWorks W)) ∧ (agentIsHost a = false → W = s.works) := by
  cases a with
  | host c =>
    obtain ⟨⟨tg, hr, hsc⟩, hlen, hreg, hv⟩ := h
    refine ⟨begun 0x002 c tg s, ?_, fun h => by simp [agentIsHost] at h⟩
    unfold regRow
    dsimp only
    rw [if_pos ⟨hreg, hv⟩]
    unfold hostRegWrite
    have hsc' : regScope (s.withWorks (begun 2 c tg s)) tg n = none := hsc
    rw [runCmd_eq (f := formRegWrite) hr (by simp [hlen, addrCheck, hreg]; exact hsc') (by simp)]
    rw [show formRegWrite.op = 2 from rfl, hf]
    dsimp only
    obtain ⟨w, hw, -⟩ := begun_find 2 c tg s
    obtain ⟨h1, h2, h3⟩ := hg (begun 2 c tg s)
    have hw' : (g (s.withWorks (begun 2 c tg s))).work? c.key = some w := by
      unfold State.work? at hw ⊢; rw [h1]; exact hw
    obtain ⟨ha, hb⟩ := completeOk_answered (s := s) (res := 0) hw' (by unfold State.entry?; rw [h3]) hr.once h2
    exact ⟨ha, hb⟩
  | engine e =>
    obtain ⟨h1, h2⟩ := h
    refine ⟨s.works, ?_, fun _ => rfl⟩
    unfold regRow engRegWrite
    dsimp only
    rw [if_pos h1, if_pos h2]
    have := hf s.works
    rw [show s.withWorks s.works = s from rfl] at this ⊢
    rw [this]
    rfl

end Sys2Proof.Machine
end

