-- ==== Sys2Proof/Laws/Loops.lean ====
section
/-!
SUPPORT. What changing every unit of a list of numbers does (`forAll`), from what changing one does.
-/
namespace Sys2Proof.Machine

@[simp] theorem forAll_nil (f : Nat → State → State) (s : State) : forAll [] f s = s := rfl
@[simp] theorem forAll_cons (i : Nat) (l : List Nat) (f : Nat → State → State) (s : State) :
    forAll (i :: l) f s = forAll l f (f i s) := rfl

/-- A property of states that every turn keeps holds after all turns. -/
theorem forAll_keeps {P : State → Prop} {f : Nat → State → State} (l : List Nat) (h : ∀ i ∈ l, ∀ s, P s → P (f i s))
    {s : State} (hs : P s) : P (forAll l f s) := by
  induction l generalizing s with
  | nil => exact hs
  | cons i l ih => exact ih (fun j hj => h j (List.mem_cons_of_mem _ hj)) (h i List.mem_cons_self s hs)

/-- What a fold of state changes keeps. -/
theorem foldl_keeps {α : Type} {P : State → Prop} {f : State → α → State} (l : List α) (h : ∀ a ∈ l, ∀ s, P s → P (f s a))
    {s : State} (hs : P s) : P (l.foldl f s) := by
  induction l generalizing s with
  | nil => exact hs
  | cons a l ih => exact ih (fun b hb => h b (List.mem_cons_of_mem _ hb)) (h a List.mem_cons_self s hs)

/-- A reading that no turn changes is unchanged after all turns. -/
theorem forAll_same {α : Type} (g : State → α) {f : Nat → State → State} (l : List Nat) (h : ∀ i s, g (f i s) = g s)
    (s : State) : g (forAll l f s) = g s :=
  forAll_keeps (P := fun t => g t = g s) l (fun i _ t ht => (h i t).trans ht) rfl

/-- Turns that each change one unit by a function of that unit alone: every listed unit is changed once. -/
theorem forAll_unit {α : Type} (get : State → Nat → α) {f : Nat → State → State} {g : Nat → α → α}
    (h : ∀ i j s, get (f i s) j = if j = i then g i (get s i) else get s j) (l : List Nat) (hl : l.Nodup) (s : State) (j : Nat) :
    get (forAll l f s) j = if j ∈ l then g j (get s j) else get s j := by
  induction l generalizing s with
  | nil => rfl
  | cons i l ih =>
    rw [List.nodup_cons] at hl
    rw [forAll_cons, ih hl.2, h]
    by_cases hj : j = i
    · subst hj; simp [hl.1]
    · simp [hj]

/-- Changing pins in turn changes only the pins. -/
theorem forAll_updPin_frame (l : List Nat) (f : Nat → State → State) (h : ∀ i s, f i s = { s with pins := (f i s).pins })
    (s : State) : forAll l f s = { s with pins := (forAll l f s).pins } := by
  have := forAll_keeps (P := fun t => t = { s with pins := t.pins }) (f := f) l (fun i _ t ht => by rw [h i t, ht])
    (show s = { s with pins := s.pins } from rfl)
  exact this

end Sys2Proof.Machine
end

