-- ==== Sys2Proof/Laws/Memory.lean ====
section
/-!
SUPPORT. The memory laws: every operation on the Granary's bytes keeps the canonical form, and what a byte reads as after a
write.
-/
namespace Sys2Proof.Machine

/-- The canonical form of a list with a first entry. -/
theorem memWfFrom_cons (lo : Option Nat) (a : Nat) (v : Byte) (m : List Host.Cell) :
    memWfFrom lo ((a, v) :: m) = true ↔ (∀ l, lo = some l → l < a) ∧ v ≠ 0 ∧ memWfFrom (some a) m = true := by
  cases lo <;> simp [memWfFrom, and_assoc]

theorem memWfFrom_lower {lo lo' : Option Nat} {m : List Host.Cell} (h : memWfFrom lo m = true)
    (hb : ∀ l', lo' = some l' → ∃ l, lo = some l ∧ l' ≤ l) : memWfFrom lo' m = true := by
  cases m with
  | nil => rfl
  | cons e m =>
    obtain ⟨a, v⟩ := e
    rw [memWfFrom_cons] at h ⊢
    refine ⟨fun l' hl' => ?_, h.2⟩
    obtain ⟨l, hl, hle⟩ := hb l' hl'
    have := h.1 l hl
    omega

/-- An address at or below the lower bound is not listed. -/
theorem memRead_below {a b : Nat} {m : List Host.Cell} (h : memWfFrom (some a) m = true) (hb : b ≤ a) : memRead m b = 0 := by
  induction m generalizing a with
  | nil => rfl
  | cons e m ih =>
    obtain ⟨a', v⟩ := e
    rw [memWfFrom_cons] at h
    have := h.1 a rfl
    simp only [memRead]
    rw [if_neg (by omega)]
    exact ih h.2.2 (by omega)

theorem memInsert_wf {m : List Host.Cell} {lo : Option Nat} {a : Nat} {v : Byte} (h : memWfFrom lo m = true) (hv : v ≠ 0)
    (ha : ∀ l, lo = some l → l < a) : memWfFrom lo (memInsert m a v) = true := by
  induction m generalizing lo with
  | nil => exact (memWfFrom_cons ..).2 ⟨ha, hv, rfl⟩
  | cons e m ih =>
    obtain ⟨a', v'⟩ := e
    rw [memWfFrom_cons] at h
    unfold memInsert
    split
    · rename_i hlt
      rw [memWfFrom_cons, memWfFrom_cons]
      exact ⟨ha, hv, fun l hl => by cases hl; exact hlt, h.2⟩
    · split
      · rename_i heq; subst heq
        rw [memWfFrom_cons]
        exact ⟨ha, hv, h.2.2⟩
      · rw [memWfFrom_cons]
        exact ⟨h.1, h.2.1, ih h.2.2 (fun l hl => by cases hl; omega)⟩

theorem memErase_wf {m : List Host.Cell} {lo : Option Nat} (a : Nat) (h : memWfFrom lo m = true) :
    memWfFrom lo (memErase m a) = true := by
  induction m generalizing lo with
  | nil => rfl
  | cons e m ih =>
    obtain ⟨a', v'⟩ := e
    rw [memWfFrom_cons] at h
    unfold memErase
    split
    · exact memWfFrom_lower (ih h.2.2) (fun l' hl' => ⟨a', rfl, Nat.le_of_lt (h.1 l' hl')⟩)
    · rw [memWfFrom_cons]
      exact ⟨h.1, h.2.1, ih h.2.2⟩

/-- Writing a byte keeps the canonical form. -/
theorem memWrite_wf {m : List Host.Cell} (a : Nat) (v : Byte) (h : Memory.wf m = true) : Memory.wf (memWrite m a v) = true := by
  unfold memWrite
  split
  · exact memErase_wf a h
  · rename_i hv; exact memInsert_wf h hv (by simp)

/-- Writing bytes keeps the canonical form. -/
theorem memWrites_wf {m : List Host.Cell} (a : Nat) (l : List Byte) (h : Memory.wf m = true) :
    Memory.wf (memWrites m a l) = true := by
  induction l generalizing m a with
  | nil => exact h
  | cons b l ih => exact ih (a + 1) (memWrite_wf a b h)

theorem memRead_insert (m : List Host.Cell) (a b : Nat) (v : Byte) :
    memRead (memInsert m a v) b = if b = a then v else memRead m b := by
  induction m with
  | nil => rfl
  | cons e m ih =>
    obtain ⟨a', v'⟩ := e
    unfold memInsert
    split
    · rfl
    · split
      · rename_i h; subst h
        simp only [memRead]; split <;> rfl
      · simp only [memRead, ih]
        split
        · rename_i h; subst h
          rw [if_neg (by omega)]
        · rfl

theorem memRead_erase (m : List Host.Cell) (a b : Nat) :
    memRead (memErase m a) b = if b = a then 0 else memRead m b := by
  induction m with
  | nil => simp [memErase, memRead]
  | cons e m ih =>
    obtain ⟨a', v'⟩ := e
    unfold memErase
    split
    · rename_i h; subst h
      rw [ih]; simp only [memRead]; split
      · rfl
      · rfl
    · simp only [memRead, ih]
      split
      · rename_i h; subst h
        rw [if_neg (by omega)]
      · rfl

/-- A byte after a write of one: the written value at its address, every other byte as before. -/
theorem memRead_write (m : List Host.Cell) (a b : Nat) (v : Byte) :
    memRead (memWrite m a v) b = if b = a then v else memRead m b := by
  unfold memWrite
  split
  · rename_i h; rw [memRead_erase, h]
  · exact memRead_insert ..

/-- Bytes outside a write keep their values. -/
theorem memRead_writes_other (m : List Host.Cell) (a b : Nat) (l : List Byte) (h : b < a ∨ a + l.length ≤ b) :
    memRead (memWrites m a l) b = memRead m b := by
  induction l generalizing m a with
  | nil => rfl
  | cons x l ih =>
    simp only [List.length_cons] at h
    unfold memWrites
    rw [ih _ _ (by omega), memRead_write, if_neg (by omega)]

/-- A byte inside a write reads as written. -/
theorem memRead_writes_same (m : List Host.Cell) (a i : Nat) (l : List Byte) (h : i < l.length) :
    memRead (memWrites m a l) (a + i) = l[i] := by
  induction l generalizing m a i with
  | nil => simp at h
  | cons x l ih =>
    unfold memWrites
    cases i with
    | zero =>
      rw [memRead_writes_other _ _ _ _ (by omega), memRead_write]
      simp
    | succ i =>
      have := ih (memWrite m a x) (a + 1) i (by simpa using h)
      rw [show a + (i + 1) = a + 1 + i by omega]
      simpa using this

/-- The memory at reset is in canonical form. -/
theorem reset_memory_wf : Memory.wf State.reset.grn.mem = true := rfl

end Sys2Proof.Machine
end

