-- ==== Sys2Proof/Laws/Pin.lean ====
section
/-!
SUPPORT. What the shared operations of the pin channel do.
-/
namespace Sys2Proof.Machine

/-! ## DACs -/

/-- What a command that writes DACs does (R44, R369). -/
theorem dacCommand_outcome {c : Cmd} {f : Pin → Pin} {tg : Target} {s : State} {W : List Work}
    (hW : ∃ w, (s.withWorks W).work? c.key = some w ∧ w.started = true) (hr : (s.entry? c.key).bind (·.retry) = none) (hn : (pinsNamed s tg (c.u 0 2)).Nodup)
    (hf : ∀ x, (f x).stat = x.stat ∧ (f x).settling = x.settling) :
    DacOutcome c f (pinsNamed s tg (c.u 0 2)) s (dacCommand c f tg (s.withWorks W)) := by
  obtain ⟨w, hw, hst⟩ := hW
  generalize hps : pinsNamed s tg (c.u 0 2) = ps at *
  have hps' : pinsNamed (s.withWorks W) tg (c.u 0 2) = ps := hps
  have hw1 : (s.withWorks W).work? c.key = some w := hw
  obtain ⟨W', w', hb, hw', hst'⟩ := useBays_spec c.key (ps.map (· / 16)) hw1
  have hb' : useBays c.key (ps.map (· / 16)) (s.withWorks W) = (s.withWorks W') := hb
  have hw2 : (s.withWorks W').work? c.key = some w' := hw'
  generalize hch : ps.filter (fun p => f (s.pin p) ≠ s.pin p) = ch
  have hmem : ∀ p, p ∈ ch ↔ p ∈ ps ∧ f (s.pin p) ≠ s.pin p := by intro p; rw [← hch]; simp
  have hnd : ch.Nodup := by rw [← hch]; exact hn.filter _
  have hch' : ps.filter (fun p => f ((s.withWorks W).pin p) ≠ (s.withWorks W).pin p) = ch := hch
  unfold dacCommand
  dsimp only
  rw [hps', hch', hb']
  by_cases he : ch = []
  · have hall : ∀ p ∈ ps, f (s.pin p) = s.pin p := fun p hp => by
      refine Decidable.byContradiction fun h => ?_
      have := (hmem p).2 ⟨hp, h⟩
      simp [he] at this
    obtain ⟨ha, hbk⟩ := completeOk_answered (s := s) (t := (s.withWorks W')) (res := 0) hw2 rfl hr rfl
    subst he
    simp only [List.isEmpty_nil, if_true]
    have hpins : ∀ p, (completeOk c.key 0 (s.withWorks W')).pin p = s.pin p := fun p => by rw [hbk]; rfl
    refine ⟨fun p => ?_, fun _ => ha, fun ⟨p, hp, h⟩ => absurd (hall p hp) h, ?_⟩
    · rw [hpins, if_neg (fun h => h.2 (hall p h.1))]
    · have : completeOk c.key 0 (s.withWorks W') =
          book (completeOk c.key 0 (s.withWorks W')) s := by rw [hbk]; rfl
      have hp2 : (completeOk c.key 0 (s.withWorks W')).pins = s.pins := by rw [hbk]; rfl
      rw [hp2]; exact this
  · have hemp : ch.isEmpty = false := by simpa using he
    rw [hemp]
    simp only [Bool.false_eq_true, if_false]
    have hfr := forAll_updPin_frame ch (fun p s => startSettle (some c.key) p (s.updPin p f)) (fun _ _ => rfl) (s.withWorks W')
    refine ⟨fun p => ?_, fun h => ?_, fun _ => ?_, ?_⟩
    · have h := forAll_unit State.pin
        (f := fun p s => startSettle (some c.key) p (s.updPin p f))
        (g := fun _ x => { f x with stat := setBit x.stat 8 true, settling := x.settling ++ [c.key] })
        (fun i j s => by
          unfold startSettle
          rw [State.updPin_pin]
          split
          · rw [State.updPin_pin_same]; simp [hf]
          · rename_i h; rw [State.updPin_pin_other _ h]) ch hnd (s.withWorks W') p
      rw [h]
      by_cases hp : p ∈ ch
      · rw [if_pos hp, if_pos ((hmem p).1 hp)]; rfl
      · rw [if_neg hp, if_neg (fun h => hp ((hmem p).2 h))]; rfl
    · obtain ⟨p, hp⟩ := List.exists_mem_of_ne_nil _ he
      exact absurd (h p ((hmem p).1 hp).1) ((hmem p).1 hp).2
    · rw [hfr]
      exact ⟨⟨w', hw2, hst'.trans hst⟩, rfl⟩
    · rw [hfr]; rfl

/-! ## SAFE -/

theorem refreshPin_pin (p q : Nat) (s : State) :
    (refreshPin p s).pin q = if q = p then Pin.refresh (playingOn s p) (s.pin p) else s.pin q := State.updPin_pin ..

theorem refreshPin_frame (p : Nat) (s : State) : refreshPin p s = { s with pins := (refreshPin p s).pins } := rfl

/-- With no command waiting on the PMU, returning it to OFF changes the pin alone. -/
theorem pmuOff_idle (p : Nat) (e : EndWith) (s : State) (h : (s.pin p).pmu.keys = []) :
    pmuOff p e s = refreshPin p (s.updPin p (fun x => { x with pmu := x.pmu.toOff })) := by
  unfold pmuOff; rw [h]; rfl

theorem markPinSafed_frame (p : Nat) (s : State) : markPinSafed p s = { s with runs := (markPinSafed p s).runs } := by
  unfold markPinSafed; split <;> rfl

theorem markPinSafed_pin (p q : Nat) (s : State) : (markPinSafed p s).pin q = s.pin q := by
  rw [markPinSafed_frame]; rfl

/-- A pin that a cause holds in SAFE, brought in line. -/
theorem refresh_held {b : Bool} {x : Pin} (h : x.heldSafe = true) :
    Pin.refresh b x = { x with stat := setBit x.stat 0 true, ctrl := setBit x.ctrl 17 true, stage := .safe } := by
  unfold Pin.refresh; rw [if_pos h]

theorem refresh_released {b : Bool} {x : Pin} (h : x.heldSafe = false) :
    (Pin.refresh b x).ctrl = x.ctrl ∧ (Pin.refresh b x).stat = setBit x.stat 0 false ∧ (Pin.refresh b x).symcfg = x.symcfg := by
  unfold Pin.refresh
  rw [if_neg (by simp [h])]
  dsimp only
  split <;> exact ⟨rfl, rfl, rfl⟩

/-- SAFE and CLAMP_EN take no part in what holds a pin in SAFE. -/
theorem heldSafe_congr {x y : Pin} (h1 : bit y.ctrl 16 = bit x.ctrl 16) (h2 : bit y.stat 11 = bit x.stat 11)
    (h3 : bit y.stat 1 = bit x.stat 1) : y.heldSafe = x.heldSafe := by
  unfold Pin.heldSafe; rw [h1, h2, h3]

/-- The sequence into SAFE (R63) of a pin on whose PMU no command waits and that a cause then holds in SAFE. -/
theorem safePin_held {clearEn inRun : Bool} {e : EndWith} {p : Nat} {s : State} (hk : (s.pin p).pmu.keys = [])
    (hh : clearEn = true ∨ (s.pin p).heldSafe = true) :
    (∀ q, (safePin clearEn inRun e p s).pin q = if q = p then
        { s.pin p with
          ctrl := setBit (setBit (if clearEn then setBit (s.pin p).ctrl 16 false else (s.pin p).ctrl) 17 true) 17 true
          stat := setBit (setBit (s.pin p).stat 0 true) 0 true, stage := .safe, limitSince := none, pmu := (s.pin p).pmu.toOff }
      else s.pin q) ∧
    safePin clearEn inRun e p s =
      { s with pins := (safePin clearEn inRun e p s).pins, runs := (safePin clearEn inRun e p s).runs } := by
  generalize hx : s.pin p = x at *
  generalize hy : ({ x with ctrl := if clearEn then setBit x.ctrl 16 false else x.ctrl, limitSince := none } : Pin) = y
  have hyh : y.heldSafe = true := by
    subst hy
    rcases hh with h | h
    · unfold Pin.heldSafe; simp [h]
    · cases clearEn with
      | true => unfold Pin.heldSafe; simp
      | false => exact h
  generalize hu : s.updPin p (fun x => { x with ctrl := if clearEn then setBit x.ctrl 16 false else x.ctrl, limitSince := none }) = u
  have hup : u.pin p = y := by subst hu hy; rw [State.updPin_pin_same, hx]
  have hv : (refreshPin p u).pin p = { y with stat := setBit y.stat 0 true, ctrl := setBit y.ctrl 17 true, stage := .safe } := by
    rw [refreshPin_pin, if_pos rfl, hup, refresh_held hyh]
  have hk2 : ((refreshPin p u).pin p).pmu.keys = [] := by rw [hv, ← hy]; exact hk
  generalize hz : (refreshPin p u).updPin p (fun x => { x with pmu := x.pmu.toOff }) = z
  have hzp : z.pin p = { y with stat := setBit y.stat 0 true, ctrl := setBit y.ctrl 17 true, stage := .safe, pmu := y.pmu.toOff } := by
    subst hz; rw [State.updPin_pin_same, hv]
  have hzh : (z.pin p).heldSafe = true := by
    rw [hzp]
    refine (heldSafe_congr ?_ ?_ ?_).trans hyh
    · exact bit_setBit_other _ _ (by decide) (by decide)
    · exact bit_setBit_other _ _ (by decide) (by decide)
    · exact bit_setBit_other _ _ (by decide) (by decide)
  have hs : safePin clearEn inRun e p s =
      (if inRun && !(bit (u.pin p).stat 0) then markPinSafed p (refreshPin p z) else refreshPin p z) := by
    unfold safePin
    rw [hu]
    dsimp only
    rw [pmuOff_idle p e _ hk2, hz]
  have hw : ∀ q, (refreshPin p z).pin q = if q = p then
        { y with stat := setBit (setBit y.stat 0 true) 0 true, ctrl := setBit (setBit y.ctrl 17 true) 17 true
                 stage := .safe, pmu := y.pmu.toOff } else s.pin q := by
    intro q
    rw [refreshPin_pin]
    split
    · rw [refresh_held hzh, hzp]
    · rename_i h
      subst hz hu
      rw [State.updPin_pin_other _ h, refreshPin_pin, if_neg h, State.updPin_pin_other _ h]
  constructor
  · intro q
    rw [hs]
    have : (if (inRun && !(bit (u.pin p).stat 0)) = true then markPinSafed p (refreshPin p z) else refreshPin p z).pin q =
        (refreshPin p z).pin q := by split <;> simp [markPinSafed_pin]
    rw [this, hw q, ← hy]
  · rw [hs]
    have hfz : refreshPin p z = { s with pins := (refreshPin p z).pins } := by subst hz hu; rfl
    split
    · rw [markPinSafed_frame, hfz]
    · rw [hfz]

end Sys2Proof.Machine
end

