-- ==== Sys2Proof/Tests/Slice0.lean ====
section
/-!
SUPPORT. Tests: for every clause of a statement a state and operands that meet its hypotheses together (`wit_<Statement>_<clause>`, clauses
counted from 0), ill-formed terms that WellFormed refuses, words and values written out from the spec. Expected values come from
the rules named, not from the model.
-/
set_option linter.unusedSimpArgs false
set_option Elab.async false

namespace Sys2Proof.Tests
open Sys2Proof Sys2Proof.Machine

/-- Parameter bytes: pairs of width in bytes and value, little-endian (R10). -/
def par (l : List (Nat × Nat)) : List Byte := l.flatMap (fun x => leBytes x.1 x.2)

/-- Command 7 of queue 0 at a scope. -/
def hc (scope index : Nat) (l : List (Nat × Nat)) : Cmd :=
  { qid := 0, tag := 1, seq := 7, scope := BitVec.ofNat 2 scope, index := BitVec.ofNat 30 index, src := 0, obs := false, params := par l }

/-- A register write of the host, at device scope. -/
def hw (addr v : Nat) : Cmd := hc 0 0 [(4, addr), (4, v)]

/-- The state after reset. -/
def S : State := State.reset

/-- The key of the commands above, and that of another one. -/
def k7 : Key := { qid := 0, seq := 7 }
def k8 : Key := { qid := 0, seq := 8 }

/-- The two commands are in work. -/
def inWork (s : State) : State := { s with works := [{ key := k7, started := true }, { key := k8, started := true }] }

theorem runs_iff (op scopes : Nat) (c : Cmd) (tg : Target) (s : State) : Runs op scopes c tg s ↔
    s.serving = true ∧ mayRun op c s = true ∧ (s.entry? c.key).bind (·.retry) = none ∧ c.target = some tg ∧
      scopes &&& tg.scopeBit ≠ 0 ∧ (c.obs = false ∨ op ∈ readingOpcodes) ∧
      (s.boot.recovery = false ∨ op ∉ slowOpcodes ∨ op = 0x020) :=
  ⟨fun ⟨a, b, c, d, e, f, g⟩ => ⟨a, b, c, d, e, f, g⟩, fun ⟨a, b, c, d, e, f, g⟩ => ⟨a, b, c, d, e, f, g⟩⟩

theorem buf_iff (c : Cmd) (o lo hi : Nat) (s : State) : BufReady c o lo hi s ↔
    Blank c (o + 7) 1 ∧ c.u (o + 6) 1 ≤ 1 ∧ lo ≤ c.u (o + 4) 2 ∧ c.u (o + 4) 2 ≤ hi ∧
      (c.u (o + 4) 2 = 0 ∨ bufInRange s (bufOf c o) = true) ∧ (c.u (o + 4) 2 = 0 ∨ slotFenceCheck s (c.u o 4) = none) ∧
      ∀ i < c.u (o + 4) 2, ∀ b ∈ s.grn.caps, b.has (c.u o 4 + i) = false :=
  ⟨fun ⟨a, b, c, d, e, f, g⟩ => ⟨a, b, c, d, e, f, g⟩, fun ⟨a, b, c, d, e, f, g⟩ => ⟨a, b, c, d, e, f, g⟩⟩

/-- A write of a register by the host at device scope runs. -/
theorem write_host {n : RegName} {v : Word} {c : Cmd} {r : Nat → State → Bool} {s : State}
    (h : Runs 0x002 29 c .device s) (hs : regScope s .device n = none) (hl : c.params.length = 8)
    (hn : regAt (c.u 0 4) = some n) (hv : c.u 4 4 = v.toNat) : WriteRuns n v (.host c) r s :=
  ⟨⟨.device, h, hs⟩, hl, hn, hv⟩

/-! ## Pins -/

/-- L0 = 1.2 V on pin 3 (the mask's lowest bit). -/
def cLevels : Cmd := hc 0 0 [(2, 3), (1, 1), (5, 0), (4, 1200000), (20, 0)]
def cThresh : Cmd := hc 0 0 [(2, 3), (6, 0), (4, 0), (4, 1000000), (4, 6000000), (4, 0)]
def cLoad : Cmd := hc 1 0 [(2, 0xFFFF), (6, 0), (8, 24000000000), (8, 0)]
def cClamp : Cmd := hc 2 1 [(2, 3), (2, 0), (4, 0), (4, 6000000), (4, 0)]
def cPinOn : Cmd := hc 0 0 [(2, 3), (2, 0), (4, 0x00010008), (4, 0), (4, 0)]
def cPinOff : Cmd := hc 0 0 [(2, 255), (2, 0), (4, 0x00000008), (4, 3), (4, 0)]
def cTset : Cmd := hc 0 0 [(2, 3), (1, 15), (1, 2), (4, 65536), (4, 0), (4, 0), (4, 0), (4, 2 ^ 25 - 1)]

theorem wit_PinDacCommandsSetTheirDacs_0 : PinLevelsReady cLevels S .device := by (repeat' refine And.intro ?_ ?_) <;> first | decide +kernel | (simp only [runs_iff, buf_iff, NamesPins, NamesPin, PinFree, Blank, HasRoom, Works, Waits, Alone, ← Option.isSome_iff_exists]; decide +kernel)
theorem wit_PinDacCommandsSetTheirDacs_1 : PinThreshReady cThresh S .device := by (repeat' refine And.intro ?_ ?_) <;> first | decide +kernel | (simp only [runs_iff, buf_iff, NamesPins, NamesPin, PinFree, Blank, HasRoom, Works, Waits, Alone, ← Option.isSome_iff_exists]; decide +kernel)
theorem wit_PinDacCommandsSetTheirDacs_2 : PinLoadReady cLoad S (.bay 0) := by (repeat' refine And.intro ?_ ?_) <;> first | decide +kernel | (simp only [runs_iff, buf_iff, NamesPins, NamesPin, PinFree, Blank, HasRoom, Works, Waits, Alone, ← Option.isSome_iff_exists]; decide +kernel)
theorem wit_PinDacCommandsSetTheirDacs_3 : PinClampReady cClamp S (.slice 1) := by (repeat' refine And.intro ?_ ?_) <;> first | decide +kernel | (simp only [runs_iff, buf_iff, NamesPins, NamesPin, PinFree, Blank, HasRoom, Works, Waits, Alone, ← Option.isSome_iff_exists]; decide +kernel)
theorem wit_PinLevelsMaskSelectsLevels :
    (cLevels.u 2 1).testBit 0 = true ∧ ∀ i < 6, (cLevels.u 2 1).testBit i = true → levelOk (codeOfUv (cLevels.i (8 + 4 * i) 4)) = true := by
  decide +kernel
theorem wit_PinControlAndTimingWrites_0_on : PinCtrlReady cPinOn S .device := by (repeat' refine And.intro ?_ ?_) <;> first | decide +kernel | (simp only [runs_iff, buf_iff, NamesPins, NamesPin, PinFree, Blank, HasRoom, Works, Waits, Alone, ← Option.isSome_iff_exists]; decide +kernel)
theorem wit_PinControlAndTimingWrites_0_off : PinCtrlReady cPinOff S .device := by (repeat' refine And.intro ?_ ?_) <;> first | decide +kernel | (simp only [runs_iff, buf_iff, NamesPins, NamesPin, PinFree, Blank, HasRoom, Works, Waits, Alone, ← Option.isSome_iff_exists]; decide +kernel)
theorem wit_PinControlAndTimingWrites_1 : PinCtrlWriteReady (.host (hw (0x1010120) 0x00010008)) 3 0x00010008#32 S := by
  refine ⟨write_host (by simp only [runs_iff, buf_iff, NamesPins, NamesPin, PinFree, Blank, HasRoom, Works, Waits, Alone, ← Option.isSome_iff_exists]; decide +kernel) (by decide +kernel) (by decide +kernel) (by decide +kernel) (by decide +kernel), ?_⟩; decide +kernel
theorem wit_PinControlAndTimingWrites_1_engine : PinCtrlWriteReady (.engine 1) 3 8 ((S.updEng 1 (fun x => { x with state := 1 }))) := by (repeat' refine And.intro ?_ ?_) <;> first | decide +kernel | (simp only [runs_iff, buf_iff, NamesPins, NamesPin, PinFree, Blank, HasRoom, Works, Waits, Alone, ← Option.isSome_iff_exists]; decide +kernel)
theorem wit_PinControlAndTimingWrites_2 : PinTsetReady cTset S .device := by (repeat' refine And.intro ?_ ?_) <;> first | decide +kernel | (simp only [runs_iff, buf_iff, NamesPins, NamesPin, PinFree, Blank, HasRoom, Works, Waits, Alone, ← Option.isSome_iff_exists]; decide +kernel)
theorem wit_PinControlAndTimingWrites_3 : PinThcWriteReady (.host (hw 0x101010C 0xEA60)) 3 0xEA60 S := by
  refine ⟨write_host (by simp only [runs_iff, buf_iff, NamesPins, NamesPin, PinFree, Blank, HasRoom, Works, Waits, Alone, ← Option.isSome_iff_exists]; decide +kernel) (by decide +kernel) (by decide +kernel) (by decide +kernel) (by decide +kernel), ?_⟩; decide +kernel

/-- Pin 3 in a state of its own. -/
def P (f : Pin → Pin) : State := S.updPin 3 f
/-- Pin 3 drives level 2. -/
def driving (x : Pin) : Pin := { x with stage := .drive 2, ctrl := setBit x.ctrl 16 true, stat := 0, limitSince := some 5 }

theorem wit_PinEventsActOnTheirPin_1 :
    let s := inWork (P (fun x => { x with settling := [k7] }))
    (s.pin 3).settling = [(hw 0 0).key] ∧ settledElsewhere k7 (s.updPin 3 (fun x => { x with settling := [] })) = true ∧
      (∃ w, s.work? k7 = some w) ∧ (s.entry? k7).bind (·.retry) = none := ⟨rfl, by decide +kernel, ⟨_, rfl⟩, rfl⟩
theorem wit_PinEventsActOnTheirPin_2 : bit (S.pin 255).stat 1 = false ∧ bit (S.pin 255).ctrl 17 = true := by decide +kernel
theorem wit_PinEventsActOnTheirPin_3 : ((P driving).pin 3).driverOn = true := by decide +kernel
theorem wit_PinEventsActOnTheirPin_4 :
    ((P driving).pin 3).driverOn = true ∧ ((P driving).pin 3).limitSince = some 5 ∧ ((P driving).pin 3).pmu.keys = [] := by decide +kernel

/-! ## PMU -/

/-- Pin 3 is out of SAFE, its PMU as given. -/
def pmuS (y : Pmu) : State := P (fun x => { x with stat := 0, ctrl := setBit x.ctrl 16 true, stage := .openZ, pmu := y })
def forcing : Pmu := pmuSet 2 1 2 1000000 {}
def cFv : Cmd := hc 0 0 [(2, 3), (1, 7), (1, 0), (4, 6500000)]
def cFi : Cmd := hc 0 0 [(2, 3), (1, 0), (5, 0), (8, 0)]
def cMv : Cmd := hc 0 0 [(2, 3), (6, 0)]
def cMeas : Cmd := hc 0 0 [(2, 3), (1, 1), (1, 0), (2, 65535), (2, 0)]

theorem wit_PmuCommandsHaveTheirEffect_0 : PmuFvReady cFv (pmuS {}) .device := by (repeat' refine And.intro ?_ ?_) <;> first | decide +kernel | (simp only [runs_iff, buf_iff, NamesPins, NamesPin, PinFree, Blank, HasRoom, Works, Waits, Alone, ← Option.isSome_iff_exists]; decide +kernel)
theorem wit_PmuCommandsHaveTheirEffect_1 : PmuFiReady cFi (pmuS {}) .device := by (repeat' refine And.intro ?_ ?_) <;> first | decide +kernel | (simp only [runs_iff, buf_iff, NamesPins, NamesPin, PinFree, Blank, HasRoom, Works, Waits, Alone, ← Option.isSome_iff_exists]; decide +kernel)
theorem wit_PmuCommandsHaveTheirEffect_2 : PmuMvReady cMv (pmuS {}) .device := by (repeat' refine And.intro ?_ ?_) <;> first | decide +kernel | (simp only [runs_iff, buf_iff, NamesPins, NamesPin, PinFree, Blank, HasRoom, Works, Waits, Alone, ← Option.isSome_iff_exists]; decide +kernel)
theorem wit_PmuCommandsHaveTheirEffect_3 : PmuMeasReady cMeas (pmuS forcing) .device := by (repeat' refine And.intro ?_ ?_) <;> first | decide +kernel | (simp only [runs_iff, buf_iff, NamesPins, NamesPin, PinFree, Blank, HasRoom, Works, Waits, Alone, ← Option.isSome_iff_exists]; decide +kernel)
theorem wit_PmuCommandsHaveTheirEffect_3_busy :
    PmuMeasReady cMeas (pmuS { forcing with stat := 1, measBy := some k8 }) .device := by (repeat' refine And.intro ?_ ?_) <;> first | decide +kernel | (simp only [runs_iff, buf_iff, NamesPins, NamesPin, PinFree, Blank, HasRoom, Works, Waits, Alone, ← Option.isSome_iff_exists]; decide +kernel)
theorem wit_PmuCommandsHaveTheirEffect_4 : PmuDiscReady cMv (pmuS forcing) .device ∧ ((pmuS forcing).pin 3).pmu.keys = [] := by (repeat' refine And.intro ?_ ?_) <;> first | decide +kernel | (simp only [runs_iff, buf_iff, NamesPins, NamesPin, PinFree, Blank, HasRoom, Works, Waits, Alone, ← Option.isSome_iff_exists]; decide +kernel)
theorem wit_PmuDiscAbortsTheMeasurement :
    let s := inWork (pmuS { forcing with stat := 1, measBy := some k8 })
    PmuDiscReady cMv s .device ∧ (s.pin 3).pmu.keys = [k8] ∧ k8 ≠ cMv.key ∧ (∃ w, s.work? k8 = some w) ∧
      ∀ e ∈ s.journal, e.retry = none := ⟨by (repeat' refine And.intro ?_ ?_) <;> first | decide +kernel | (simp only [runs_iff, buf_iff, NamesPins, NamesPin, PinFree, Blank, HasRoom, Works, Waits, Alone, ← Option.isSome_iff_exists]; decide +kernel), by decide +kernel, by decide +kernel, ⟨_, rfl⟩, by decide +kernel⟩
theorem wit_PmuEventsHaveTheirEffect_0 :
    let s := inWork (pmuS { forcing with waiting := [k7] })
    bit (s.pin 3).pmu.stat 5 = true ∧ (s.pin 3).pmu.waiting = [cFv.key] ∧ (∃ w, s.work? k7 = some w) ∧
      (s.entry? k7).bind (·.retry) = none := ⟨by decide +kernel, rfl, ⟨_, rfl⟩, rfl⟩
theorem wit_PmuEventsHaveTheirEffect_1 :
    let s := inWork (pmuS { forcing with stat := 1, measBy := some k7 })
    bit (s.pin 3).pmu.stat 0 = true ∧ (s.pin 3).pmu.next = [] ∧ (s.pin 3).pmu.measBy = some cMeas.key ∧
      (∃ w, s.work? k7 = some w) ∧ (s.entry? k7).bind (·.retry) = none := ⟨by decide +kernel, rfl, rfl, ⟨_, rfl⟩, rfl⟩
theorem wit_PmuEventsHaveTheirEffect_2 : ((pmuS forcing).pin 3).pmu.forcing = true := by decide +kernel
theorem wit_PmuEventsHaveTheirEffect_4 : S.powered = true ∧ (S.pin 3).pmu.mode = 0 ∧ bit (S.pin (2 * (3 / 2))).pmu.stat 0 = false ∧
    bit (S.pin (2 * (3 / 2) + 1)).pmu.stat 0 = false := by decide +kernel

/-! ## TDC -/

/-- Capture of pin 3 into one slot of the capture region of STACK_0. -/
def capSlot : Nat := 12000
def cCapture : Cmd := hc 0 0 [(4, 8), (28, 0), (1, 3), (1, 2), (6, 0), (4, capSlot), (2, 1), (1, 0), (1, 0), (10, 0), (6, 0)]
def cInterval : Cmd := hc 2 1 [(2, 2), (2, 3), (1, 1), (1, 2), (1, 0), (1, 8), (4, 4294967295), (4, 0), (8, 0), (4, capSlot), (2, 1), (1, 1), (1, 0)]
def cFreq : Cmd := hc 0 0 [(2, 3), (1, 2), (5, 0), (8, 819200)]
def cCalRead : Cmd := hc 0 0 [(2, 3), (6, 0), (4, capSlot), (2, 1), (1, 0), (1, 0)]
def cStop (kind pin : Nat) : Cmd := hc 2 1 [(1, kind), (1, 0), (2, pin), (4, capSlot)]

theorem wit_TdcCommandsHaveTheirEffect_0 : TdcCaptureReady cCapture S .device := by (repeat' refine And.intro ?_ ?_) <;> first | decide +kernel | (simp only [runs_iff, buf_iff, NamesPins, NamesPin, PinFree, Blank, HasRoom, Works, Waits, Alone, ← Option.isSome_iff_exists]; decide +kernel)
theorem wit_TdcCommandsHaveTheirEffect_1 : TdcIntervalReady cInterval 1 S := by (repeat' refine And.intro ?_ ?_) <;> first | decide +kernel | (simp only [runs_iff, buf_iff, NamesPins, NamesPin, PinFree, Blank, HasRoom, Works, Waits, Alone, ← Option.isSome_iff_exists]; decide +kernel)
theorem wit_TdcCommandsHaveTheirEffect_2 : TdcFreqReady cFreq S .device := by (repeat' refine And.intro ?_ ?_) <;> first | decide +kernel | (simp only [runs_iff, buf_iff, NamesPins, NamesPin, PinFree, Blank, HasRoom, Works, Waits, Alone, ← Option.isSome_iff_exists]; decide +kernel)
theorem wit_TdcCommandsHaveTheirEffect_3_interval :
    TdcStopReady (cStop 1 0) (inWork (S.updSlice 1 (fun x => { x with tiv := some { key := k8, first := capSlot, count := 1 } }))) (.slice 1) k8 := by
  refine ⟨(runs_iff ..).2 (by decide +kernel), by decide +kernel, by decide +kernel, by simp only [runs_iff, buf_iff, NamesPins, NamesPin, PinFree, Blank, HasRoom, Works, Waits, Alone, ← Option.isSome_iff_exists]; decide +kernel, by decide +kernel, by decide +kernel, by decide +kernel, by decide +kernel, by decide +kernel, by decide +kernel, ⟨_, rfl⟩, by decide +kernel⟩
theorem wit_TdcCommandsHaveTheirEffect_3_frequency :
    TdcStopReady (cStop 2 3) (inWork (P (fun x => { x with tdc := { x.tdc with freq := some { key := k8 } } }))) (.slice 1) k8 := by
  refine ⟨(runs_iff ..).2 (by decide +kernel), by decide +kernel, by decide +kernel, by simp only [runs_iff, buf_iff, NamesPins, NamesPin, PinFree, Blank, HasRoom, Works, Waits, Alone, ← Option.isSome_iff_exists]; decide +kernel, by decide +kernel, by decide +kernel, by decide +kernel, by decide +kernel, by decide +kernel, by decide +kernel, ⟨_, rfl⟩, by decide +kernel⟩
theorem wit_TdcCommandsHaveTheirEffect_3_capture :
    TdcStopReady (hc 0 0 [(1, 0), (3, 0), (4, capSlot)]) (inWork { S with caps := [{ key := k8, pins := [3], first := capSlot, count := 1 }] })
      .device k8 := by
  refine ⟨(runs_iff ..).2 (by decide +kernel), by decide +kernel, by decide +kernel, by simp only [runs_iff, buf_iff, NamesPins, NamesPin, PinFree, Blank, HasRoom, Works, Waits, Alone, ← Option.isSome_iff_exists]; decide +kernel, by decide +kernel, by decide +kernel, by decide +kernel, by decide +kernel, by decide +kernel, by decide +kernel, ⟨_, rfl⟩, by decide +kernel⟩
theorem wit_TdcCommandsHaveTheirEffect_4 : TdcCalReadReady cCalRead S .device := by (repeat' refine And.intro ?_ ?_) <;> first | decide +kernel | (simp only [runs_iff, buf_iff, NamesPins, NamesPin, PinFree, Blank, HasRoom, Works, Waits, Alone, ← Option.isSome_iff_exists]; decide +kernel)


/-- Pin 3 counts rising edges for the microcode. -/
def edgeS : State := P (fun x => { x with stat := 0, tdc := { x.tdc with holder := 1, pol := 1, tab0 := { factory := false, counts := List.replicate 256 4096 } } })
theorem wit_TdcEdgeIsStampedLostOrDead :
    let s := edgeS
    s.now.toNat ≤ (stampOf s 3 true (BitVec.ofNat 56 1000).toNat (BitVec.ofNat 8 5).toNat).full.toNat ∧ tdcLive s 3 = true ∧
      (s.pin 3).tdc.holder = 1 ∧ bit (s.pin 3).tdc.pol 0 = true ∧ (∀ d ∈ s.caps, 3 ∉ d.pins) ∧ (∀ e ∈ s.slices, e.2.tiv = none) ∧
      (s.pin 3).tdc.freq = none := by decide +kernel
theorem wit_TdcWorkEndsAtItsTime_0 :
    let d : TdcCap := { key := k8, pins := [3], first := capSlot, count := 1, endAt := 1000 }
    let s := inWork { S with caps := [d] }
    s.caps.find? (fun d => d.first == (BitVec.ofNat 16 capSlot).toNat) = some d ∧ d.endAt ≠ 0 ∧ (∃ w, s.work? d.key = some w) ∧
      (s.entry? d.key).bind (·.retry) = none := by simp only [runs_iff, buf_iff, NamesPins, NamesPin, PinFree, Blank, HasRoom, Works, Waits, Alone, ← Option.isSome_iff_exists]; decide +kernel
theorem wit_TdcWorkEndsAtItsTime_1 :
    let v : Interval := { key := k8, first := capSlot, count := 1, timeoutAt := some 5000 }
    let s := inWork (S.updSlice 1 (fun x => { x with tiv := some v }))
    (s.slice 1).tiv = some v ∧ v.timeoutAt = some 5000 ∧ (∃ w, s.work? v.key = some w) ∧ (s.entry? v.key).bind (·.retry) = none := by simp only [runs_iff, buf_iff, NamesPins, NamesPin, PinFree, Blank, HasRoom, Works, Waits, Alone, ← Option.isSome_iff_exists]; decide +kernel
theorem wit_TdcWorkEndsAtItsTime_2_3 :
    let f : Freq := { key := k8, gate := 819200 }
    let s := inWork (P (fun x => { x with tdc := { x.tdc with freq := some f } }))
    (s.pin 3).tdc.freq = some f ∧ (∃ w, s.work? f.key = some w) ∧ (s.entry? f.key).bind (·.retry) = none := by simp only [runs_iff, buf_iff, NamesPins, NamesPin, PinFree, Blank, HasRoom, Works, Waits, Alone, ← Option.isSome_iff_exists]; decide +kernel
theorem wit_CalibrationRoundsCommitTables_0 : S.sclkOn = true ∧ S.tim.calActive = false := by decide +kernel
theorem wit_CalibrationRoundsCommitTables_1 :
    let s := P (fun x => { x with tdc := { x.tdc with inRound := true } })
    (s.pin 3).tdc.inRound = true ∧ (s.pin 3).tdc.checked = none := by decide +kernel
theorem wit_CalibrationRoundsCommitTables_2 :
    let s := P (fun x => { x with tdc := { x.tdc with inRound := true, checked := some true } })
    s.Inv ∧ ∃ p, (s.pin p).tdc.checked = some true := ⟨⟨by decide +kernel, by decide +kernel, by decide +kernel, by decide +kernel, by decide +kernel⟩, 3, by decide +kernel⟩
theorem wit_CalibrationRoundsCommitTables_3 : S.powered = true := by decide +kernel

/-! ## DUT power -/

/-- Controller 3, the second of bay 1, in a state of its own. -/
def D (f : Dps → Dps) : State := S.updDps 3 f
/-- On and good: EN, STATE REG, PG. -/
def dOn : Dps := { ctrl := setBit 0x3E8 16 true, stat := 10, rampDone := true }
def cDps : Cmd := hc 0 0 [(1, 3), (7, 0)]
def cPwrSet : Cmd := hc 1 1 [(1, 3), (3, 0), (4, 6000000)]
def cPwrSeq : Cmd := hc 3 9 [(1, 2), (7, 0), (1, 3), (1, 1), (2, 0), (4, 10000000), (1, 4), (1, 0), (2, 0), (4, 0)]
def cGang : Cmd := hc 0 0 [(1, 2), (1, 1), (6, 0), (1, 3), (7, 2 ^ 56 - 1)]
def cUngang : Cmd := hc 0 0 [(1, 2), (1, 0), (6, 0), (8, 2 ^ 64 - 1)]

theorem wit_PowerCommandsHaveTheirEffect_0 : PwrOnReady cDps S .device := by (repeat' refine And.intro ?_ ?_) <;> first | decide +kernel | (simp only [runs_iff, buf_iff, NamesPins, NamesPin, PinFree, Blank, HasRoom, Works, Waits, Alone, ← Option.isSome_iff_exists]; decide +kernel)
theorem wit_PowerCommandsHaveTheirEffect_0_on : PwrOnReady cDps (D (fun _ => dOn)) .device ∧ (dOn.en = true ∧ bit dOn.stat 3 = true) := by (repeat' refine And.intro ?_ ?_) <;> first | decide +kernel | (simp only [runs_iff, buf_iff, NamesPins, NamesPin, PinFree, Blank, HasRoom, Works, Waits, Alone, ← Option.isSome_iff_exists]; decide +kernel)
theorem wit_PowerCommandsHaveTheirEffect_1 : PwrOffReady cDps S .device := by (repeat' refine And.intro ?_ ?_) <;> first | decide +kernel | (simp only [runs_iff, buf_iff, NamesPins, NamesPin, PinFree, Blank, HasRoom, Works, Waits, Alone, ← Option.isSome_iff_exists]; decide +kernel)
theorem wit_PowerCommandsHaveTheirEffect_1_on : PwrOffReady cDps (D (fun _ => dOn)) .device ∧ dOn.isOff = false := by (repeat' refine And.intro ?_ ?_) <;> first | decide +kernel | (simp only [runs_iff, buf_iff, NamesPins, NamesPin, PinFree, Blank, HasRoom, Works, Waits, Alone, ← Option.isSome_iff_exists]; decide +kernel)
theorem wit_PowerCommandsHaveTheirEffect_2 : PwrSetReady cPwrSet (D (fun _ => dOn)) (.bay 1) := by (repeat' refine And.intro ?_ ?_) <;> first | decide +kernel | (simp only [runs_iff, buf_iff, NamesPins, NamesPin, PinFree, Blank, HasRoom, Works, Waits, Alone, ← Option.isSome_iff_exists]; decide +kernel)
theorem wit_PowerCommandsHaveTheirEffect_3 : PwrSeqReady cPwrSeq { S with sites := [(9, { dps := [3, 4] })] } (.site 9) := by (repeat' refine And.intro ?_ ?_) <;> first | decide +kernel | (simp only [runs_iff, buf_iff, NamesPins, NamesPin, PinFree, Blank, HasRoom, Works, Waits, Alone, ← Option.isSome_iff_exists]; decide +kernel)
theorem wit_PowerCommandsHaveTheirEffect_4 : PwrMeasReady cDps S .device := by (repeat' refine And.intro ?_ ?_) <;> first | decide +kernel | (simp only [runs_iff, buf_iff, NamesPins, NamesPin, PinFree, Blank, HasRoom, Works, Waits, Alone, ← Option.isSome_iff_exists]; decide +kernel)
theorem wit_PowerCommandsHaveTheirEffect_5 : PwrGangReady cGang S .device := by (repeat' refine And.intro ?_ ?_) <;> first | decide +kernel | (simp only [runs_iff, buf_iff, NamesPins, NamesPin, PinFree, Blank, HasRoom, Works, Waits, Alone, ← Option.isSome_iff_exists]; decide +kernel)
theorem wit_PowerCommandsHaveTheirEffect_5_dissolve : PwrGangReady cUngang S .device := by (repeat' refine And.intro ?_ ?_) <;> first | decide +kernel | (simp only [runs_iff, buf_iff, NamesPins, NamesPin, PinFree, Blank, HasRoom, Works, Waits, Alone, ← Option.isSome_iff_exists]; decide +kernel)
theorem wit_PowerRegisterWrites_0 : DpsCtrlWriteReady (.host (hw 0x2104100 0x10001)) 3 0x10001#32 S := by
  refine ⟨write_host (by simp only [runs_iff, buf_iff, NamesPins, NamesPin, PinFree, Blank, HasRoom, Works, Waits, Alone, ← Option.isSome_iff_exists]; decide +kernel) (by decide +kernel) (by decide +kernel) (by decide +kernel) (by decide +kernel), ?_⟩; decide +kernel
theorem wit_PowerRegisterWrites_0_engine :
    DpsCtrlWriteReady (.engine 129) 3 0xFFFF#32 ((D (fun _ => dOn)).updEng 129 (fun x => { x with state := 1 })) := by (repeat' refine And.intro ?_ ?_) <;> first | decide +kernel | (simp only [runs_iff, buf_iff, NamesPins, NamesPin, PinFree, Blank, HasRoom, Works, Waits, Alone, ← Option.isSome_iff_exists]; decide +kernel)
theorem wit_PowerRegisterWrites_1 :
    let s := D (fun x => { x with stat := 0x80 })
    WriteRuns (.dps 3 0x14) 0x80#32 (.host (hw 0x2104114 0x80)) (fun e s => engDps s e 3) s ∧
      dpsRegReach (.host (hw 0x2104114 0x80)) s 3 = none ∧ tripActive s (s.dpsOf 3) = false :=
  ⟨write_host (by simp only [runs_iff, buf_iff, NamesPins, NamesPin, PinFree, Blank, HasRoom, Works, Waits, Alone, ← Option.isSome_iff_exists]; decide +kernel) (by decide +kernel) (by decide +kernel) (by decide +kernel) (by decide +kernel), by decide +kernel⟩
theorem wit_PowerEventsHaveTheirEffect_0 :
    let s := D (fun _ => { dOn with stat := 1, rampDone := false })
    (s.dpsOf 3).en = true ∧ (s.dpsOf 3).down = false ∧ (s.dpsOf 3).rampDone = false := by decide +kernel
theorem wit_PowerEventsHaveTheirEffect_1 :
    let s := inWork (D (fun _ => { dOn with stat := 2, cmds := [k7] }))
    (s.dpsOf 3).en = true ∧ (s.dpsOf 3).rampDone = true ∧ bit (s.dpsOf 3).stat 3 = false ∧ Alone s 3 ∧
      (s.dpsOf 3).cmds = [cDps.key] ∧ (∃ w, s.work? cDps.key = some w) ∧ (s.entry? cDps.key).bind (·.retry) = none := by simp only [runs_iff, buf_iff, NamesPins, NamesPin, PinFree, Blank, HasRoom, Works, Waits, Alone, ← Option.isSome_iff_exists]; decide +kernel
theorem wit_PowerEventsHaveTheirEffect_2 :
    let s := inWork (D (fun x => { x with stat := 1, down := true, cmds := [k7] }))
    (s.dpsOf 3).down = true ∧ Alone s 3 ∧ (s.dpsOf 3).cmds = [cDps.key] ∧ (∃ w, s.work? cDps.key = some w) ∧
      (s.entry? cDps.key).bind (·.retry) = none := by simp only [runs_iff, buf_iff, NamesPins, NamesPin, PinFree, Blank, HasRoom, Works, Waits, Alone, ← Option.isSome_iff_exists]; decide +kernel
theorem wit_PowerEventsHaveTheirEffect_3 : ((D (fun _ => dOn)).dpsOf 3).isOff = false ∧ bit ((D (fun _ => dOn)).dpsOf 3).stat 5 = false := by decide +kernel
theorem wit_PowerEventsHaveTheirEffect_4 :
    let s := D (fun _ => { dOn with stat := 0x3A })
    bit (s.dpsOf 3).stat 5 = true ∧ fld (s.dpsOf 3).ilim 16 16 ≠ 0 ∧ Alone s 3 ∧ (s.dpsOf 3).cmds = [] := by decide +kernel
theorem wit_SequenceStepActsOnItsController_on :
    let q : PwrSeq := { key := k7, steps := [(3, true, 5)] }
    let s := { S with seqs := [(3, q)] }
    Tab.find s.seqs 3 = some q ∧ q.acting = false ∧ q.unwind = none ∧ q.step.1 < 32 ∧ q.step.2.1 = true ∧ MayEnable s q.step.1 ∧
      (s.dpsOf q.step.1).en = false ∧ (s.dpsOf q.step.1).down = false := by decide +kernel
theorem wit_SequenceStepActsOnItsController_off :
    let q : PwrSeq := { key := k7, steps := [(3, false, 5)] }
    let s := { D (fun _ => dOn) with seqs := [(3, q)] }
    Tab.find s.seqs 3 = some q ∧ q.acting = false ∧ q.unwind = none ∧ q.step.1 < 32 ∧ q.step.2.1 = false ∧
      (s.dpsOf q.step.1).isOff = false ∧ (s.dpsOf q.step.1).down = false ∧ (s.dpsOf q.step.1).cmds = [] := by decide +kernel

/-! ## Monitors -/

/-- Monitor 5 of bay 1, in a state of its own. -/
def M (f : Mon → Mon) : State := S.updMon 5 f
/-- Enabled, valid, low alarm; its zone is inside. -/
def mOn (x : Mon) : Mon := { x with cfg := 0x81000001#32 ||| x.cfg, stat := 0x14 }

theorem wit_MonitorRegisterWrites_0 : MonWriteReady 0x00 (.host (hw 0x2105040 0x90000000)) 5 0x90000000#32 S ∧ fld 0x90000000#32 26 3 ≤ 4 := by
  refine ⟨⟨write_host (by simp only [runs_iff, buf_iff, NamesPins, NamesPin, PinFree, Blank, HasRoom, Works, Waits, Alone, ← Option.isSome_iff_exists]; decide +kernel) (by decide +kernel) (by decide +kernel) (by decide +kernel) (by decide +kernel), ?_⟩, ?_⟩ <;> decide +kernel
theorem wit_MonitorRegisterWrites_1 :
    MonWriteReady 0x04 (.host (hw 0x2105044 0x10000001)) 5 0x10000001#32 (M mOn) ∧
      monOrder (fld ((M mOn).mon 5).cfg 26 3) (fld 0x10000001#32 0 16) (fld 0x10000001#32 16 16) = true := by
  refine ⟨⟨write_host (by simp only [runs_iff, buf_iff, NamesPins, NamesPin, PinFree, Blank, HasRoom, Works, Waits, Alone, ← Option.isSome_iff_exists]; decide +kernel) (by decide +kernel) (by decide +kernel) (by decide +kernel) (by decide +kernel), ?_⟩, ?_⟩ <;> decide +kernel
theorem wit_MonitorRegisterWrites_2 : MonWriteReady 0x08 (.engine 129) 5 0x80#32 (S.updEng 129 (fun x => { x with state := 1 })) := by (repeat' refine And.intro ?_ ?_) <;> first | decide +kernel | (simp only [runs_iff, buf_iff, NamesPins, NamesPin, PinFree, Blank, HasRoom, Works, Waits, Alone, ← Option.isSome_iff_exists]; decide +kernel)
theorem wit_MonitorRegisterWrites_3 :
    WriteRuns (.blk 5 0x04) 1#32 (.host (hw 0x210580C 1)) (fun e _ => engBayUnit e (5 / 4)) S ∧ bayRegReach S (5 / 4) = none :=
  ⟨write_host (by simp only [runs_iff, buf_iff, NamesPins, NamesPin, PinFree, Blank, HasRoom, Works, Waits, Alone, ← Option.isSome_iff_exists]; decide +kernel) (by decide +kernel) (by decide +kernel) (by decide +kernel) (by decide +kernel), by decide +kernel⟩
theorem wit_MonitorEventsHaveTheirEffect_0 : Compares (M mOn) 5 ∧ ((M mOn).mon 5).alarmZone (zoneCode .inside) = false := by decide +kernel
theorem wit_MonitorEventsHaveTheirEffect_1 :
    let s := M (fun x => { mOn x with cfg := 0x84040001#32 })
    Compares s 5 ∧ (s.mon 5).alarmZone (zoneCode .below) = true ∧ (s.mon 5).zone ≠ zoneCode .below ∧ blanked s 5 = false ∧
      tripTargets s 5 = [] := by decide +kernel
theorem wit_MonitorEventsHaveTheirEffect_1_trips :
    let s := (M (fun x => { mOn x with cfg := 0x84040020#32, trip := 1 })).updDps 2 (fun _ => dOn)
    Compares s 5 ∧ (s.mon 5).alarmZone (zoneCode .below) = true ∧ (s.mon 5).zone ≠ zoneCode .below ∧ blanked s 5 = false ∧
      tripTargets s 5 = [2] ∧ Alone s 2 ∧ (s.dpsOf 2).cmds = [] ∧ (s.dpsOf 2).st ≠ 3 := by decide +kernel
theorem wit_MonitorEventsHaveTheirEffect_2 :
    let s := M (fun x => { mOn x with stat := 4 })
    bit (s.mon 5).cfg 31 = true ∧ bit (s.mon 5).stat 4 = false ∧ (s.mon 5).alarmZone (zoneCode .inside) = false := by decide +kernel
theorem wit_MonitorEventsHaveTheirEffect_3 :
    let s := M (fun x => { mOn x with holding := true })
    bit (s.mon 5).cfg 31 = true ∧ bit (s.mon 5).stat 4 = true ∧ (s.mon 5).holding = true ∧
      ((s.mon 5).alarmZone (zoneCode .inside) = false ∨ (s.mon 5).zone = zoneCode .inside) := by decide +kernel
theorem wit_MonitorEventsHaveTheirEffect_4 : bit ((S.updBlk 5 (fun x => { x with cfg := 0x80000000#32 })).blk 5).cfg 31 = true := by decide +kernel

/-! ## Bay waveform source and digitiser -/

/-- The source of bay 1 in a state of its own, two commands in work. -/
def A (f : Awg → Awg) : State := inWork (S.updAwg 1 f)
def G (f : Dig → Dig) : State := inWork (S.updDig 1 f)
/-- The first pattern slot holds a published segment. -/
def published (s : State) (slot : Nat) : State := s.updSlot slot (fun x => { x with st := 2 })
def cAnaLoad : Cmd := hc 1 1 [(1, 1), (3, 0), (4, 0), (4, 131072), (4, 0)]
def cAnaSource (m b : Nat) : Cmd := hc 1 1 [(1, m), (1, 3), (1, 0), (1, b), (2, 0), (2, 32767), (4, 0), (4, 0), (8, 1200000000000), (10, 0), (6, 0)]
def cBare : Cmd := hc 1 1 []
def cAnaSpan : Cmd := hc 1 1 [(1, 3), (7, 0)]
def cAnaCapture : Cmd := hc 1 1 [(1, 0), (7, 0), (4, capSlot), (2, 1), (1, 0), (1, 0), (8, 1000), (10, 0), (6, 0), (10, 0), (6, 0)]

theorem wit_WaveformCommandsHaveTheirEffect_0 : AnaLoadReady cAnaLoad 1 (published S 0) := by (repeat' refine And.intro ?_ ?_) <;> first | decide +kernel | (simp only [runs_iff, buf_iff, NamesPins, NamesPin, PinFree, Blank, HasRoom, Works, Waits, Alone, ← Option.isSome_iff_exists]; decide +kernel)
theorem wit_WaveformCommandsHaveTheirEffect_1 : AnaSourceReady (cAnaSource 3 4) 1 S := by (repeat' refine And.intro ?_ ?_) <;> first | decide +kernel | (simp only [runs_iff, buf_iff, NamesPins, NamesPin, PinFree, Blank, HasRoom, Works, Waits, Alone, ← Option.isSome_iff_exists]; decide +kernel)
theorem wit_WaveformCommandsHaveTheirEffect_1_switch :
    let s := A (fun x => { x with ctrl := 0x20A#32, bank0 := 0x80000008, bank1 := 0x80000008, eff := { x.eff with mode := 2 } })
    AnaSourceReady (cAnaSource 2 1) 1 s ∧ isSwitch (s.awg 1) 2 true = true := by (repeat' refine And.intro ?_ ?_) <;> first | decide +kernel | (simp only [runs_iff, buf_iff, NamesPins, NamesPin, PinFree, Blank, HasRoom, Works, Waits, Alone, ← Option.isSome_iff_exists]; decide +kernel)
theorem wit_WaveformCommandsHaveTheirEffect_2 : AnaSourceStopReady cBare 1 S := by (repeat' refine And.intro ?_ ?_) <;> first | decide +kernel | (simp only [runs_iff, buf_iff, NamesPins, NamesPin, PinFree, Blank, HasRoom, Works, Waits, Alone, ← Option.isSome_iff_exists]; decide +kernel)
theorem wit_WaveformCommandsHaveTheirEffect_3 : AnaSpanReady cAnaSpan 1 S := by (repeat' refine And.intro ?_ ?_) <;> first | decide +kernel | (simp only [runs_iff, buf_iff, NamesPins, NamesPin, PinFree, Blank, HasRoom, Works, Waits, Alone, ← Option.isSome_iff_exists]; decide +kernel)
theorem wit_WaveformCommandsHaveTheirEffect_3_hold :
    AnaSpanReady cAnaSpan 1 (A (fun x => { x with ctrl := 0x209#32, eff := { x.eff with mode := 1 } })) := by (repeat' refine And.intro ?_ ?_) <;> first | decide +kernel | (simp only [runs_iff, buf_iff, NamesPins, NamesPin, PinFree, Blank, HasRoom, Works, Waits, Alone, ← Option.isSome_iff_exists]; decide +kernel)
theorem wit_WaveformEventsHaveTheirEffect_0 :
    let p : AwgPend := { key := some k7, startAt := some 4096 }
    let s := A (fun x => { x with ctrl := 0x209#32, pend := some p })
    (s.awg 1).pend = some p ∧ p.startAt = some 4096 ∧ p.key = some cBare.key ∧ (s.awg 1).keys = [cBare.key] ∧
      (s.awg 1).bankPend = none ∧ (s.awg 1).holdKey = none ∧ (s.awg 1).asked.mode ≠ 0 ∧ Works cBare.key s := by simp only [runs_iff, buf_iff, NamesPins, NamesPin, PinFree, Blank, HasRoom, Works, Waits, Alone, ← Option.isSome_iff_exists]; decide +kernel
theorem wit_WaveformEventsHaveTheirEffect_1_loop :
    let s := A (fun x => { x with ctrl := 0x20A#32, stat := 0, eff := { x.eff with mode := 2 } })
    (s.awg 1).eff.mode = 2 ∧ bit (s.awg 1).stat 0 = false ∧ (s.awg 1).bankPend = none ∧ (s.awg 1).eff.loop = true := by decide +kernel
theorem wit_WaveformEventsHaveTheirEffect_1_switch :
    let s := A (fun x => { x with ctrl := 0x20A#32, stat := 0, eff := { x.eff with mode := 2 }, bankPend := some (some k7) })
    (s.awg 1).eff.mode = 2 ∧ bit (s.awg 1).stat 0 = false ∧ (s.awg 1).bankPend = some (some cBare.key) ∧ (s.awg 1).holdKey = none ∧
      Works cBare.key s := by simp only [runs_iff, buf_iff, NamesPins, NamesPin, PinFree, Blank, HasRoom, Works, Waits, Alone, ← Option.isSome_iff_exists]; decide +kernel
theorem wit_WaveformEventsHaveTheirEffect_1_once :
    let s := A (fun x => { x with ctrl := 0x202#32, stat := 0, eff := { x.eff with mode := 2, loop := false }, holdKey := some k7 })
    (s.awg 1).eff.mode = 2 ∧ bit (s.awg 1).stat 0 = false ∧ (s.awg 1).bankPend = none ∧ (s.awg 1).eff.loop = false ∧
      (s.awg 1).pend = none ∧ (s.awg 1).keys = [cBare.key] ∧ (s.awg 1).holdKey = some cBare.key ∧ Works cBare.key s := by simp only [runs_iff, buf_iff, NamesPins, NamesPin, PinFree, Blank, HasRoom, Works, Waits, Alone, ← Option.isSome_iff_exists]; decide +kernel
theorem wit_WaveformEventsHaveTheirEffect_2 :
    let s := A (fun x => { x with stat := 4, spanKey := some k7 })
    bit (s.awg 1).stat 2 = true ∧ (s.awg 1).spanKey = some cBare.key ∧ Works cBare.key s := by simp only [runs_iff, buf_iff, NamesPins, NamesPin, PinFree, Blank, HasRoom, Works, Waits, Alone, ← Option.isSome_iff_exists]; decide +kernel
theorem wit_WaveformEventsHaveTheirEffect_3 :
    WriteRuns (.awg 1 (ddsOff .amp)) 0x7FFF#32 (.host (hw 0x210600C 0x7FFF)) (fun e _ => engBayUnit e 1) S ∧ bayRegReach S 1 = none ∧
      (S.awg 1).holder = 0 ∧ fld 0x7FFF#32 0 16 ≤ 32767 :=
  ⟨write_host (by simp only [runs_iff, buf_iff, NamesPins, NamesPin, PinFree, Blank, HasRoom, Works, Waits, Alone, ← Option.isSome_iff_exists]; decide +kernel) (by decide +kernel) (by decide +kernel) (by decide +kernel) (by decide +kernel), by decide +kernel⟩
theorem wit_WaveformEventsHaveTheirEffect_5 :
    let s := A (fun x => { x with stat := 0x30, ctrl := 0x209#32, holdKey := some k7 })
    bit (s.awg 1).stat 4 = true ∧ (s.awg 1).keys = [cBare.key] ∧ Works cBare.key s := by simp only [runs_iff, buf_iff, NamesPins, NamesPin, PinFree, Blank, HasRoom, Works, Waits, Alone, ← Option.isSome_iff_exists]; decide +kernel
theorem wit_WaveformEventsHaveTheirEffect_6 : S.powered = true ∧ (S.awg 1).mode = 0 ∧ (S.dig 1).busy = false := by decide +kernel
theorem wit_DigitiserCaptureHasItsEffect_0 : AnaCaptureReady cAnaCapture 1 S := by (repeat' refine And.intro ?_ ?_) <;> first | decide +kernel | (simp only [runs_iff, buf_iff, NamesPins, NamesPin, PinFree, Blank, HasRoom, Works, Waits, Alone, ← Option.isSome_iff_exists]; decide +kernel)
theorem wit_DigitiserCaptureHasItsEffect_1 :
    let d : DigCap := { key := k8, first := capSlot, count := 1, pending := true, startAt := some 4096 }
    ((G (fun x => { x with cap := some d })).dig 1).cap = some d ∧ d.pending = true ∧ d.startAt = some 4096 := by decide +kernel
theorem wit_DigitiserCaptureHasItsEffect_2_3 :
    let d : DigCap := { key := k8, first := capSlot, count := 1, limit := 3 }
    let s := G (fun x => { x with cap := some d })
    (s.dig 1).cap = some d ∧ d.pending = false ∧ d.stopped = none ∧ d.wrap = false ∧ Works d.key s ∧ Runs 0x905 4 cBare (.bay 1) s ∧
      cBare.params.length = 0 ∧ fenceCheck s [] [1] = none ∧ d.key ≠ cBare.key ∧ (∀ e ∈ s.journal, e.retry = none) := by simp only [runs_iff, buf_iff, NamesPins, NamesPin, PinFree, Blank, HasRoom, Works, Waits, Alone, ← Option.isSome_iff_exists]; decide +kernel


/-! ## Triggers and acquisitions -/

def Gr (f : Ag → Ag) : State := inWork (S.updGroup 2 f)
def cGroup : Cmd := hc 0 0 [(1, 2), (7, 0)]
/-- 16 samples before and 16 after, 2 records, on bay 1 of group 2. -/
def cAcquire : Cmd := hc 1 1 [(4, 16), (4, 16), (4, 2), (4, 0), (4, capSlot), (2, 1), (1, 0), (1, 0)]
def acqS : State := Gr (fun x => { x with cfg := 2, recTime := 0x400#32 })
def acqA : Acq := { key := k8, pre := 16, post := 16, nrec := 2, first := capSlot, count := 1, group := 2 }

theorem wit_TriggerCommandsHaveTheirEffect_0 :
    NamesGroup 0xA00 cGroup S .device ∧ (S.group 2).master = 0 ∧ (S.group 2).count = false ∧ (S.group 2).state = 0 := by (repeat' refine And.intro ?_ ?_) <;> first | decide +kernel | (simp only [runs_iff, buf_iff, NamesPins, NamesPin, PinFree, Blank, HasRoom, Works, Waits, Alone, ← Option.isSome_iff_exists]; decide +kernel)
theorem wit_TriggerCommandsHaveTheirEffect_1 :
    NamesGroup 0xA01 cGroup (Gr (fun x => { x with state := 2 })) .device ∧ ((Gr (fun x => { x with state := 2 })).group 2).master = 0 ∧
      NoAcq (Gr (fun x => { x with state := 2 })) 2 := by (repeat' refine And.intro ?_ ?_) <;> first | decide +kernel | (simp only [runs_iff, buf_iff, NamesPins, NamesPin, PinFree, Blank, HasRoom, Works, Waits, Alone, ← Option.isSome_iff_exists]; decide +kernel)
theorem wit_TriggerCommandsHaveTheirEffect_2 : NamesGroup 0xA02 cGroup (Gr (fun x => { x with cfg := 0x80000000#32 })) .device := by (repeat' refine And.intro ?_ ?_) <;> first | decide +kernel | (simp only [runs_iff, buf_iff, NamesPins, NamesPin, PinFree, Blank, HasRoom, Works, Waits, Alone, ← Option.isSome_iff_exists]; decide +kernel)
theorem wit_TriggerCommandsHaveTheirEffect_3 : TrgAcquireReady cAcquire 1 2 acqS := by (repeat' refine And.intro ?_ ?_) <;> first | decide +kernel | (simp only [runs_iff, buf_iff, NamesPins, NamesPin, PinFree, Blank, HasRoom, Works, Waits, Alone, ← Option.isSome_iff_exists]; decide +kernel)
theorem wit_TriggerCommandsHaveTheirEffect_4 :
    let s := G (fun x => { x with acq := some acqA })
    Runs 0xA04 4 cBare (.bay 1) s ∧ cBare.params.length = 0 ∧ fenceCheck s [] [1] = none ∧ (s.dig 1).acq = some acqA ∧
      acqA.key ≠ cBare.key ∧ Works acqA.key s ∧ (∀ e ∈ s.journal, e.retry = none) := by simp only [runs_iff, buf_iff, NamesPins, NamesPin, PinFree, Blank, HasRoom, Works, Waits, Alone, ← Option.isSome_iff_exists]; decide +kernel
theorem wit_TriggerSequencerMoves_0 :
    WriteRuns (.trg 1 0x000) 0x80010002#32 (.host (hw 0x2107000 0x80010002)) (fun e _ => engBayUnit e 1) S ∧ bayRegReach S 1 = none ∧
      bit (S.trg 1).ctrl 31 = false ∧ Tab.get 0 (S.trg 1).act (fld 0x80010002#32 16 3) = 0 :=
  ⟨write_host (by simp only [runs_iff, buf_iff, NamesPins, NamesPin, PinFree, Blank, HasRoom, Works, Waits, Alone, ← Option.isSome_iff_exists]; decide +kernel) (by decide +kernel) (by decide +kernel) (by decide +kernel) (by decide +kernel), by decide +kernel⟩
/-- Sequencer 1 in state 0, whose condition A is pulse source 1 and leads to state 5. -/
def moveS : State := S.updTrg 1 (fun x => { x with ctrl := 0x80000000#32, cond := [(0, 0x0A800000#32)] })
theorem wit_TriggerSequencerMoves_1 :
    bit (moveS.trg 1).ctrl 31 = true ∧ pulsesIn 2#32 0#80 ≠ [] ∧ (moveS.trg 1).pulses = [] ∧
      (∀ m, (moveS.trg 1).lastMove = some m → m + eclkSteps ≤ moveS.mono) ∧ masteredBy moveS 1 = none ∧
      condHolds moveS 1 (pulsesIn 2#32 0#80) ((moveS.trg 1).condA (moveS.trg 1).st) = true ∧
      ∀ i ∈ [28, 29, 30, 31], bit (Tab.get 0 (moveS.trg 1).act ((moveS.trg 1).condA (moveS.trg 1).st).next) i = false := by
  refine ⟨by decide +kernel, by decide +kernel, by decide +kernel, fun m h => ?_, by decide +kernel, by decide +kernel, by decide +kernel⟩
  cases h
theorem wit_ArmGroupEventsHaveTheirEffect_0 :
    let s := Gr (fun x => { x with state := 1, readyAt := 9000 })
    (s.group 2).state = 1 ∧ (s.group 2).readyAt ≠ 0 := by decide +kernel
theorem wit_ArmGroupEventsHaveTheirEffect_1_taken :
    let f : Fire := { t := 9000, key := some k7 }
    let s := Gr (fun x => { x with state := 2, known := [f] })
    (s.group 2).known = [f] ∧ f.key = some cGroup.key ∧ Works cGroup.key s ∧ Meets (s.group 2) f.t 0 := by simp only [runs_iff, buf_iff, NamesPins, NamesPin, PinFree, Blank, HasRoom, Works, Waits, Alone, ← Option.isSome_iff_exists]; decide +kernel
theorem wit_ArmGroupEventsHaveTheirEffect_1_held :
    let f : Fire := { t := 8999, key := some k7 }
    let s := Gr (fun x => { x with state := 1, readyAt := 9000, known := [f] })
    (s.group 2).known = [f] ∧ f.key = some cGroup.key ∧ Works cGroup.key s ∧ Meets (s.group 2) f.t 1 := by simp only [runs_iff, buf_iff, NamesPins, NamesPin, PinFree, Blank, HasRoom, Works, Waits, Alone, ← Option.isSome_iff_exists]; decide +kernel
theorem wit_ArmGroupEventsHaveTheirEffect_1_missed :
    let f : Fire := { t := 9000, key := some k7 }
    let s := Gr (fun x => { x with state := 3, trigAt := 8000, recTime := 1000, fires := 1, known := [f] })
    (s.group 2).known = [f] ∧ f.key = some cGroup.key ∧ Works cGroup.key s ∧ Meets (s.group 2) f.t 2 := by simp only [runs_iff, buf_iff, NamesPins, NamesPin, PinFree, Blank, HasRoom, Works, Waits, Alone, ← Option.isSome_iff_exists]; decide +kernel
theorem wit_ArmGroupEventsHaveTheirEffect_1_idle :
    let f : Fire := { t := 9000, key := some k7 }
    let s := Gr (fun x => { x with known := [f] })
    (s.group 2).known = [f] ∧ f.key = some cGroup.key ∧ Works cGroup.key s ∧ Meets (s.group 2) f.t 3 := by simp only [runs_iff, buf_iff, NamesPins, NamesPin, PinFree, Blank, HasRoom, Works, Waits, Alone, ← Option.isSome_iff_exists]; decide +kernel
theorem wit_ArmGroupEventsHaveTheirEffect_2 : ((Gr (fun x => { x with state := 3 })).group 2).state = 3 := by decide +kernel
theorem wit_ArmGroupEventsHaveTheirEffect_3 :
    let s := Gr (fun x => { x with cfg := 2, state := 4, nfire := 1, fires := 1 })
    (s.group 2).state = 4 ∧ (s.group 2).nfire ≠ 0 ∧ (s.group 2).nfire.toNat ≤ (s.group 2).fires.toNat ∧ NoAcq s 2 := by decide +kernel
/-- Group 2 is of cross-device group 7 and a remote one masters it. -/
def remote (x : Ag) : Ag := { x with cfg := 0x83C00002#32 }
theorem wit_ArmGroupEventsHaveTheirEffect_4 :
    let m (k : BitVec 2) : TrgMsg := { mcg := 7, kind := k, dev := 5, bay := 3, gseq := 9, t := 5000#80 }
    let s := Gr remote
    (m 0).dev ≠ s.devid ∧ (∀ h < 16, ((s.group h).xen = true ∧ (s.group h).mcg = (m 0).mcg.toNat) ↔ h = 2) ∧ (s.group 2).master = 2 ∧
      NoAcq s 2 ∧ s.now.toNat ≤ (m 2).t.toNat + (s.group 2).latency := by decide +kernel
theorem wit_AcquisitionRecordIsWritten :
    let a : Acq := { acqA with inRecord := some 100000#80 }
    let s := G (fun x => { x with acq := some a })
    (s.dig 1).acq = some a ∧ a.inRecord = some 100000#80 ∧ a.endBy = 0 ∧ a.stopKeys = [] ∧ Works a.key s ∧
      stackFenced s (stackOf s a.first) = false := by simp only [runs_iff, buf_iff, NamesPins, NamesPin, PinFree, Blank, HasRoom, Works, Waits, Alone, ← Option.isSome_iff_exists]; decide +kernel

/-! ## System time -/

/-- The time block in a state of its own. -/
def T (f : Time → Time) : State := inWork (S.updTim f)
/-- Time is set and within no lock. -/
def timed : State := T (fun x => { x with tq := 1 })
def cSet (now : Nat) : Cmd := hc 0 0 [(10, 2 ^ 64 + 77), (6, 0), (1, now), (7, 0)]
def cPulse (mode : Nat) : Cmd := hc 0 0 [(1, 7), (1, mode), (2, 0), (4, 1), (8, 1640), (10, 16384000), (6, 0)]
def cTwo (a b : Nat) : Cmd := hc 0 0 [(1, a), (1, b), (6, 0)]
def cZero : Cmd := hc 0 0 []
def cAsym : Cmd := hc 0 0 [(1, 5), (7, 0), (8, 2147483647)]

theorem wit_TimeCommandsHaveTheirEffect_0 :
    Runs 0xB00 1 (cSet 1) .device S ∧ (cSet 1).params.length = 0x18 ∧ Blank (cSet 1) 10 6 ∧ (cSet 1).u 0x10 1 ≤ 1 ∧ S.tim.tq ≠ 3 ∧
      S.tim.setPend = none ∧ (∀ e ∈ S.tim.tpo, e.2.lostKeys ((cSet 1).time 0) = []) := by simp only [runs_iff, buf_iff, NamesPins, NamesPin, PinFree, Blank, HasRoom, Works, Waits, Alone, ← Option.isSome_iff_exists]; decide +kernel
theorem wit_TimeCommandsHaveTheirEffect_1 : TimPulseReady (cPulse 2) timed .device := by (repeat' refine And.intro ?_ ?_) <;> first | decide +kernel | (simp only [runs_iff, buf_iff, NamesPins, NamesPin, PinFree, Blank, HasRoom, Works, Waits, Alone, ← Option.isSome_iff_exists]; decide +kernel)
theorem wit_TimeCommandsHaveTheirEffect_2 :
    let s := T (fun x => { x with tpo := [(7, { mode := 2, nextAt := 5000 })] })
    Runs 0xB01 1 (cPulse 0) .device s ∧ (cPulse 0).params.length = 0x20 ∧ (cPulse 0).u 0 1 ≤ 7 ∧ (cPulse 0).u 1 1 = 0 ∧
      Blank (cPulse 0) 0x1A 6 ∧ (tpoOf s ((cPulse 0).u 0 1)).key = none ∧ (tpoOf s ((cPulse 0).u 0 1)).pend = none := by simp only [runs_iff, buf_iff, NamesPins, NamesPin, PinFree, Blank, HasRoom, Works, Waits, Alone, ← Option.isSome_iff_exists]; decide +kernel
theorem wit_TimeCommandsHaveTheirEffect_3 :
    Runs 0xB02 1 (cTwo 3 3) .device S ∧ (cTwo 3 3).params.length = 8 ∧ (cTwo 3 3).u 0 1 ≤ 3 ∧ (cTwo 3 3).u 1 1 ≤ 3 := by simp only [runs_iff, buf_iff, NamesPins, NamesPin, PinFree, Blank, HasRoom, Works, Waits, Alone, ← Option.isSome_iff_exists]; decide +kernel
theorem wit_TimeCommandsHaveTheirEffect_4 :
    let c : Cmd := hc 0 0 [(4, 0x31004B8), (4, 0)]
    Runs 0x001 29 c .device S ∧ c.params.length = 8 ∧ regAt (c.u 0 4) = some (.tci 3 0x8) := by simp only [runs_iff, buf_iff, NamesPins, NamesPin, PinFree, Blank, HasRoom, Works, Waits, Alone, ← Option.isSome_iff_exists]; decide +kernel
theorem wit_TimeCommandsHaveTheirEffect_5 : Runs 0xB03 1 cZero .device S ∧ cZero.params.length = 0 := by simp only [runs_iff, buf_iff, NamesPins, NamesPin, PinFree, Blank, HasRoom, Works, Waits, Alone, ← Option.isSome_iff_exists]; decide +kernel
theorem wit_TimeCommandsHaveTheirEffect_6 :
    let s := S.updTport 5 (fun x => { x with reg := 0xA0000000#32 })
    Runs 0xB04 1 (cTwo 5 0) .device s ∧ (cTwo 5 0).params.length = 8 ∧ (cTwo 5 0).u 0 1 ≤ 5 ∧
      bit (s.tport ((cTwo 5 0).u 0 1)).reg 29 = true := by simp only [runs_iff, buf_iff, NamesPins, NamesPin, PinFree, Blank, HasRoom, Works, Waits, Alone, ← Option.isSome_iff_exists]; decide +kernel
theorem wit_TimeCommandsHaveTheirEffect_7 :
    Runs 0xB05 1 cAsym .device S ∧ cAsym.params.length = 16 ∧ cAsym.u 0 1 ≤ 5 ∧ -2147483648 ≤ cAsym.i 8 8 ∧ cAsym.i 8 8 ≤ 2147483647 := by simp only [runs_iff, buf_iff, NamesPins, NamesPin, PinFree, Blank, HasRoom, Works, Waits, Alone, ← Option.isSome_iff_exists]; decide +kernel
theorem wit_TimeCommandsHaveTheirEffect_8 : Runs 0xB06 1 cZero .device S ∧ cZero.params.length = 0 := by simp only [runs_iff, buf_iff, NamesPins, NamesPin, PinFree, Blank, HasRoom, Works, Waits, Alone, ← Option.isSome_iff_exists]; decide +kernel
theorem wit_TimeCommandsHaveTheirEffect_9 :
    WriteRuns (.tim 0x008) 6#32 (.host (hw 0x3100008 6)) noReach S ∧ fld 6#32 0 3 ≠ 7 ∧ fld 6#32 0 3 ≠ fld S.tim.ref 0 3 :=
  ⟨write_host (by simp only [runs_iff, buf_iff, NamesPins, NamesPin, PinFree, Blank, HasRoom, Works, Waits, Alone, ← Option.isSome_iff_exists]; decide +kernel) (by decide +kernel) (by decide +kernel) (by decide +kernel) (by decide +kernel), by decide +kernel⟩
theorem wit_TimeCommandsHaveTheirEffect_10 :
    WriteRuns (.tport 5 0) 0x80000000#32 (.host (hw 0x31001A0 0x80000000)) noReach S ∧ fld 0x80000000#32 30 2 = 2 ∧ S.isGm = false ∧
      ∀ m < 6, m ≠ 5 → fld (S.tport m).reg 30 2 ≠ 2 :=
  ⟨write_host (by simp only [runs_iff, buf_iff, NamesPins, NamesPin, PinFree, Blank, HasRoom, Works, Waits, Alone, ← Option.isSome_iff_exists]; decide +kernel) (by decide +kernel) (by decide +kernel) (by decide +kernel) (by decide +kernel), by decide +kernel⟩
theorem wit_TimeEventsHaveTheirEffect_0 :
    let s := T (fun x => { x with setPend := some (k7, 5#80) })
    s.tim.setPend = some (cZero.key, 5#80) ∧ Works cZero.key s := by simp only [runs_iff, buf_iff, NamesPins, NamesPin, PinFree, Blank, HasRoom, Works, Waits, Alone, ← Option.isSome_iff_exists]; decide +kernel
theorem wit_TimeEventsHaveTheirEffect_1 :
    let s := T (fun x => { x with tpo := [(7, { mode := 2, nextAt := 5000, period := 1640, width := 1, key := some k7 })] })
    (tpoOf s 7).pend = none ∧ (tpoOf s 7).mode ≠ 0 ∧ (tpoOf s 7).key = some cZero.key ∧ Works cZero.key s := by simp only [runs_iff, buf_iff, NamesPins, NamesPin, PinFree, Blank, HasRoom, Works, Waits, Alone, ← Option.isSome_iff_exists]; decide +kernel
theorem wit_TimeEventsHaveTheirEffect_2 :
    let s := T (fun x => { x with tci := [(3, { cfg := 1 })] })
    bit (tciOf s 3).cfg 0 = true ∧ s.sclkOn = true ∧ (tciOf s 3).last = none := by decide +kernel
theorem wit_TimeEventsHaveTheirEffect_3 :
    let s := T (fun x => { x with sync := 0x400003E8#32, tq := 3 })
    isSource s = true ∧ s.tim.tq = 3 ∧ syncPeriod s ≠ 0 := by decide +kernel
theorem wit_TimeEventsHaveTheirEffect_4_sets :
    let s := T (fun x => { x with sync := 0x800003E8#32, setPend := some (k7, 5#80) })
    isSink s = true ∧ s.sclkOn = true ∧ s.tim.setPend = some (cZero.key, 5#80) ∧ Works cZero.key s ∧
      (∀ e ∈ s.tim.tpo, e.2.mode ≠ 1 ∧ e.2.pend = none) := by simp only [runs_iff, buf_iff, NamesPins, NamesPin, PinFree, Blank, HasRoom, Works, Waits, Alone, ← Option.isSome_iff_exists]; decide +kernel
theorem wit_TimeEventsHaveTheirEffect_4_stray :
    let s := T (fun x => { x with sync := 0x800003E8#32 })
    isSink s = true ∧ s.sclkOn = true ∧ s.tim.setPend = none ∧ usSteps < (syncOffset s (2 * usSteps)).natAbs := by decide +kernel
theorem wit_TimeEventsHaveTheirEffect_4_steers :
    let s := T (fun x => { x with sync := 0x800003E8#32, theta := some 0 })
    isSink s = true ∧ s.sclkOn = true ∧ s.tim.setPend = none ∧ (syncOffset s 100).natAbs ≤ usSteps ∧ s.tim.theta = some 0 ∧
      (syncOffset s 100 * 256 - 0).natAbs * 4 ≤ syncPeriod s * 256 := by decide +kernel
theorem wit_TimeEventsHaveTheirEffect_5 :
    let s := T (fun x => { x with sync := 0x800003E8#32, syncAt := some 7 })
    s.tim.syncAt = some 7 ∧ isSink s = true := by decide +kernel
theorem wit_TimeEventsHaveTheirEffect_6 :
    let x : SyncCal := { key := k7, seen := 63, missing := 9, out := true }
    let s := T (fun y => { y with sync := 0x400003E8#32, cal := some x })
    s.tim.cal = some x ∧ x.key = cZero.key ∧ (isSource s = true → x.out = true) ∧ (0 ≤ (usSteps : Int) ∧ (usSteps : Int) ≤ (usSteps : Int)) ∧
      Works cZero.key s := by simp only [runs_iff, buf_iff, NamesPins, NamesPin, PinFree, Blank, HasRoom, Works, Waits, Alone, ← Option.isSome_iff_exists]; decide +kernel
theorem wit_TimeEventsHaveTheirEffect_7_8_9 :
    (T (fun x => { x with refPresent := true })).tim.refPresent = true ∧ S.tim.refPresent = false ∧
      (T (fun x => { x with moving := true })).tim.moving = true := by decide +kernel

/-- Port 1 is active, in time state `st`, its peer device 5. -/
def link (st : Nat) (f : TPort → TPort) : State :=
  (S.updPort 1 (fun x => { x with state := 2, peerDev := 5 })).updTport 1 (fun x => f { x with reg := BitVec.ofNat 32 (st * 2 ^ 30) })
def ptpM : PtpMsg := { version := 2, domain := 0, srcDev := 5, seqId := 9, twoStep := true, forMe := true, sec := 1, ns := 2, corr := 0 }

theorem wit_PtpMessagesHaveTheirEffect_0 : Exchanges 1 1 (link 1 id) ∧ ((link 1 id).tport 1).tsq = [] := by decide +kernel
theorem wit_PtpMessagesHaveTheirEffect_1 : Exchanges 1 2 (link 2 id) ∧ ((link 2 id).tport 1).tsq.length < 16 := by decide +kernel
theorem wit_PtpMessagesHaveTheirEffect_2 :
    Exchanges 1 1 ((link 1 id).updTim (fun x => { x with cfg := 1 })) ∧
      ∃ q, announceQuality ((link 1 id).updTim (fun x => { x with cfg := 1 })) = some q := by simp only [runs_iff, buf_iff, NamesPins, NamesPin, PinFree, Blank, HasRoom, Works, Waits, Alone, ← Option.isSome_iff_exists]; decide +kernel
theorem wit_PtpMessagesHaveTheirEffect_3 :
    ((link 2 id).port 1).state = 2 ∧ (link 2 id).serving = true ∧ portState (link 2 id) 1 ≠ 0 ∧
      ¬FitsProfile 1 { ptpM with version := 1 } (link 2 id) := by decide +kernel
theorem wit_PtpMessagesHaveTheirEffect_4_5 : Exchanges 1 2 (link 2 id) ∧ FitsProfile 1 ptpM (link 2 id) := by decide +kernel
theorem wit_PtpMessagesHaveTheirEffect_6 : Exchanges 1 1 (link 1 id) ∧ FitsProfile 1 ptpM (link 1 id) := by decide +kernel
theorem wit_PtpMessagesHaveTheirEffect_7 :
    let y : PtpSync := { id := 9, t2 := 100, t1 := some 50 }
    let r : PtpReq := { id := 9, t3 := some 200, sync := some y }
    let s := link 2 (fun x => { x with dreqs := [r] })
    Exchanges 1 2 s ∧ FitsProfile 1 ptpM s ∧ ptpM.forMe = true ∧ (s.tport 1).dreqs.find? (fun r => r.id == ptpM.seqId) = some r ∧
      s.mono ≤ r.at_ + 100000 * usSteps ∧ r.sync = some y ∧ y.t1 = some 50 ∧ r.t3 = some 200 ∧ bit (s.tport 1).reg 29 = false ∧
      (s.tport 1).delays = [] := by decide +kernel
theorem wit_PtpMessagesHaveTheirEffect_8 :
    ((link 2 id).port 1).state = 2 ∧ (link 2 id).serving = true ∧ portState (link 2 id) 1 ≠ 0 ∧ FitsProfile 1 ptpM (link 2 id) := by decide +kernel
theorem wit_PtpMessagesHaveTheirEffect_9 :
    matchEnd ((link 2 (fun x => { x with syncs := [{ at_ := 50 }, { at_ := 40 }], dreqs := [{ at_ := 45 }] })).tport 1) = some 40 := by decide +kernel

/-! ## Obros ports -/

/-- Port 1 active, in a state of its own. -/
def L (f : Port → Port) : State := S.updPort 1 (fun x => f { x with state := 2 })
def cRoute : Cmd := hc 0 0 [(2, 1022), (2, 2), (4, 0), (1, 5), (1, 63), (6, 0)]

theorem wit_LinkCommandsHaveTheirEffect_0 :
    Runs 0xC00 1 (cTwo 5 0) .device S ∧ (cTwo 5 0).params.length = 8 ∧ (cTwo 5 0).u 0 1 ≤ 5 ∧ (cTwo 5 0).u 1 1 ≤ 1 ∧
      (cTwo 5 0).src.toNat ≠ (cTwo 5 0).u 0 1 := by simp only [runs_iff, buf_iff, NamesPins, NamesPin, PinFree, Blank, HasRoom, Works, Waits, Alone, ← Option.isSome_iff_exists]; decide +kernel
theorem wit_LinkCommandsHaveTheirEffect_1 :
    Runs 0xC01 1 (cTwo 1 2) .device (L id) ∧ (cTwo 1 2).params.length = 8 ∧ (cTwo 1 2).u 0 1 ≤ 5 ∧ (cTwo 1 2).u 1 1 ≤ 2 ∧
      portFenced (L id) ((cTwo 1 2).u 0 1) = false := by simp only [runs_iff, buf_iff, NamesPins, NamesPin, PinFree, Blank, HasRoom, Works, Waits, Alone, ← Option.isSome_iff_exists]; decide +kernel
theorem wit_LinkCommandsHaveTheirEffect_2 :
    Runs 0xC02 1 cRoute .device S ∧ cRoute.params.length = 8 + cdiv (cRoute.u 2 2) 8 * 8 ∧ cRoute.u 0 2 ≤ 1023 ∧ 1 ≤ cRoute.u 2 2 ∧
      cRoute.u 0 2 + cRoute.u 2 2 ≤ 1024 ∧
      (∀ i < cRoute.u 2 2, cRoute.u (8 + i) 1 < 64 ∧ cRoute.u (8 + i) 1 % 8 ≠ 6 ∧ cRoute.u (8 + i) 1 / 8 ≠ 6) := by simp only [runs_iff, buf_iff, NamesPins, NamesPin, PinFree, Blank, HasRoom, Works, Waits, Alone, ← Option.isSome_iff_exists]; decide +kernel
theorem wit_LinkCommandsHaveTheirEffect_3 :
    Runs 0xC03 1 (cTwo 255 127) .device S ∧ (cTwo 255 127).params.length = 8 ∧ (cTwo 255 127).u 1 1 ≤ 127 := by simp only [runs_iff, buf_iff, NamesPins, NamesPin, PinFree, Blank, HasRoom, Works, Waits, Alone, ← Option.isSome_iff_exists]; decide +kernel
theorem wit_LinkCommandsHaveTheirEffect_4 :
    Runs 0xC04 1 (cTwo 5 0) .device S ∧ (cTwo 5 0).params.length = 8 ∧ (cTwo 5 0).u 0 1 ≤ 5 ∧ portFenced S ((cTwo 5 0).u 0 1) = false := by
  simp only [runs_iff, buf_iff, NamesPins, NamesPin, PinFree, Blank, HasRoom, Works, Waits, Alone, ← Option.isSome_iff_exists]; decide +kernel
theorem wit_LinkEventsHaveTheirEffect_0_1 : (S.port 1).state = 1 ∧ (S.port 1).failAt = 0 := by decide +kernel
theorem wit_LinkEventsHaveTheirEffect_2 :
    let s := L (fun x => { x with state := 1, failAt := 1 })
    (s.port 1).state = 1 ∧ (s.port 1).failAt ≠ 0 := by decide +kernel
theorem wit_LinkEventsHaveTheirEffect_3 :
    let s := L (fun x => { x with state := 4, fenceAt := 1 })
    (s.port 1).state = 4 ∧ bit (s.port 1).cfg 7 = true := by decide +kernel
theorem wit_LinkEventsHaveTheirEffect_4 : ((L id).port 1).up = true ∧ (List.replicate 514 0#10).length = 514 := by decide +kernel
set_option maxRecDepth 100000 in
theorem wit_LinkEventsHaveTheirEffect_5 :
    let f : List Byte := List.replicate 160 0
    ((L id).port 1).up = true ∧ crc32c (f.take 156) ≠ BitVec.ofNat 32 (rdLe f 156 4) := by decide +kernel
theorem wit_LinkEventsHaveTheirEffect_6 :
    let s := L (fun x => { x with txBuf := [{}], stuck := 7 })
    (s.port 1).up = true ∧ (s.port 1).txBuf ≠ [] := by decide +kernel
theorem wit_LinkEventsHaveTheirEffect_7_8 : ((L id).port 1).up = true ∧ [0, 0, 0, 13108].length = 4 ∧ ((L id).port 1).state = 2 := by decide +kernel
theorem wit_LinkEventsHaveTheirEffect_9 :
    let s := L (fun x => { x with state := 3, txWait := [{}] })
    (s.port 1).state = 3 ∧ (s.port 1).txWait ≠ [] := by decide +kernel
theorem wit_LinkEventsHaveTheirEffect_10 :
    let s := L (fun x => { x with rxLpi := true })
    (s.port 1).up = true ∧ (s.port 1).rxLpi = true := by decide +kernel
theorem wit_LinkEventsHaveTheirEffect_11 :
    let s := L (fun x => { x with fckIn := true, clkTrained := true })
    (s.port 1).fckIn = true := by decide +kernel


/-! ## Faults, trace -/

/-- The fault system in a state of its own. -/
def F (f : Faults → Faults) : State := inWork (S.updFlt f)
def cFltSource : Cmd := hc 0 0 [(2, 0x1F8), (1, 3), (1, 0), (2, 65535), (2, 0), (8, 2 ^ 32)]
def cFltRead : Cmd := hc 0 0 [(1, 0), (1, 0), (2, 4), (2, 127), (2, 0)]
def cAlarms : Cmd := hc 0 0 [(8, 0x20), (56, 0)]
/-- One entry waits at source 0x21. -/
def oneEntry (e : FEntry) : State := F (fun x => { x with sources := [(0x21, { entry := some e })] })
theorem next_of_one (e : FEntry) : NextRecord 0x21 e (oneEntry e) := by
  refine ⟨rfl, by simp [oneEntry, F, S, inWork, State.updFlt, State.source, Tab.get, eligible], fun j x hj hx _ => ?_⟩
  simp [oneEntry, F, S, inWork, State.updFlt, State.source, Tab.get, hj, source0] at hx

theorem wit_FaultCommandsHaveTheirEffect_0_7 : FltReady 0xD00 cZero S .device ∧ FltReady 0xD05 cZero S .device := by (repeat' refine And.intro ?_ ?_) <;> first | decide +kernel | (simp only [runs_iff, buf_iff, NamesPins, NamesPin, PinFree, Blank, HasRoom, Works, Waits, Alone, ← Option.isSome_iff_exists]; decide +kernel)
theorem wit_FaultCommandsHaveTheirEffect_1 : FltSourceReady cFltSource S .device := by (repeat' refine And.intro ?_ ?_) <;> first | decide +kernel | (simp only [runs_iff, buf_iff, NamesPins, NamesPin, PinFree, Blank, HasRoom, Works, Waits, Alone, ← Option.isSome_iff_exists]; decide +kernel)
theorem wit_FaultCommandsHaveTheirEffect_2 :
    WriteRuns (.fltSrc 0x1F8 false) 0xC0000001#32 (.host (hw 0x32013C0 0xC0000001)) noReach S ∧ 1 ≤ fld 0xC0000001#32 0 16 ∧
      (resetBase 0x1F8 = 3 → fld 0xC0000001#32 30 2 = 3) :=
  ⟨write_host (by simp only [runs_iff, buf_iff, NamesPins, NamesPin, PinFree, Blank, HasRoom, Works, Waits, Alone, ← Option.isSome_iff_exists]; decide +kernel) (by decide +kernel) (by decide +kernel) (by decide +kernel) (by decide +kernel), by decide +kernel⟩
theorem wit_FaultCommandsHaveTheirEffect_3 :
    FltReadReady cFltRead (F (fun x => { x with gleaner := [{ seq := 4 }], seq := 5 })) .device := by (repeat' refine And.intro ?_ ?_) <;> first | decide +kernel | (simp only [runs_iff, buf_iff, NamesPins, NamesPin, PinFree, Blank, HasRoom, Works, Waits, Alone, ← Option.isSome_iff_exists]; decide +kernel)
theorem wit_FaultCommandsHaveTheirEffect_4 : FltReady 0xD03 cZero S .device ∧ Tab.wf S.flt.sources = true := by (repeat' refine And.intro ?_ ?_) <;> first | decide +kernel | (simp only [runs_iff, buf_iff, NamesPins, NamesPin, PinFree, Blank, HasRoom, Works, Waits, Alone, ← Option.isSome_iff_exists]; decide +kernel)
theorem wit_FaultCommandsHaveTheirEffect_5 : Runs 0xD04 1 cAlarms .device S ∧ cAlarms.params.length = 64 := by simp only [runs_iff, buf_iff, NamesPins, NamesPin, PinFree, Blank, HasRoom, Works, Waits, Alone, ← Option.isSome_iff_exists]; decide +kernel
theorem wit_FaultCommandsHaveTheirEffect_6 : WriteRuns (.fltAlarm 15) 1#32 (.host (hw 0x320023C 1)) noReach S :=
  write_host (by simp only [runs_iff, buf_iff, NamesPins, NamesPin, PinFree, Blank, HasRoom, Works, Waits, Alone, ← Option.isSome_iff_exists]; decide +kernel) (by decide +kernel) (by decide +kernel) (by decide +kernel) (by decide +kernel)
theorem wit_FaultCommandsHaveTheirEffect_8 :
    WriteRuns (.flt 0x01C) 1048575#32 (.host (hw 0x320001C 1048575)) noReach S ∧ (1048575#32).toNat < S.flt.size :=
  ⟨write_host (by simp only [runs_iff, buf_iff, NamesPins, NamesPin, PinFree, Blank, HasRoom, Works, Waits, Alone, ← Option.isSome_iff_exists]; decide +kernel) (by decide +kernel) (by decide +kernel) (by decide +kernel) (by decide +kernel), by decide +kernel⟩
theorem wit_FaultCommandsHaveTheirEffect_9 : WriteRuns (.flt 0x100) 0x6000#32 (.host (hw 0x3200100 0x6000)) noReach S :=
  write_host (by simp only [runs_iff, buf_iff, NamesPins, NamesPin, PinFree, Blank, HasRoom, Works, Waits, Alone, ← Option.isSome_iff_exists]; decide +kernel) (by decide +kernel) (by decide +kernel) (by decide +kernel) (by decide +kernel)
theorem wit_FaultEventsHaveTheirEffect_0 :
    let e : FEntry := { sev := 2 }
    NextRecord 0x21 e (oneEntry e) ∧ Tab.wf (oneEntry e).flt.sources = true ∧ startsFatal 0x21 e = false :=
  ⟨next_of_one _, by decide +kernel⟩
theorem wit_FaultEventsHaveTheirEffect_1 :
    let e : FEntry := { sev := 3 }
    NextRecord 0x21 e (oneEntry e) ∧ Tab.wf (oneEntry e).flt.sources = true ∧ startsFatal 0x21 e = true ∧
      (oneEntry e).flt.dumping = false ∧ (oneEntry e).boot.warmBusy = false ∧ bit (oneEntry e).flt.dump 13 = false :=
  ⟨next_of_one _, by decide +kernel⟩
theorem wit_FaultEventsHaveTheirEffect_2 : ((F (fun x => { x with sources := [(511, { hold := true })] })).source 511).hold = true := by decide +kernel
theorem wit_FaultEventsHaveTheirEffect_3 :
    let s := F (fun x => { x with gleaner := [{ copied := true }] ++ { seq := 1 } :: [] })
    s.flt.gleaner = [{ copied := true }] ++ { seq := 1 } :: [] ∧ (∀ x ∈ [({ copied := true } : FRecord)], x.copied = true) ∧
      ({ seq := 1 } : FRecord).copied = false ∧ spillReady s = true := by decide +kernel
theorem wit_FaultEventsHaveTheirEffect_4 :
    let s := F (fun x => { x with dst := 0x80000001#32, sources := [(3, { alarm := true })] })
    bit s.flt.dst 31 = true ∧ (∃ i, (s.source i).alarm = true) ∧ s.powered = true := ⟨by decide +kernel, ⟨3, by decide +kernel⟩, by decide +kernel⟩
theorem wit_FaultEventsHaveTheirEffect_5 : (F (fun x => { x with pulse := true })).flt.pulse = true := by decide +kernel
def cTrace : Cmd := hc 0 0 [(1, 1), (1, 2), (6, 0), (8, 2 ^ 48 + 1)]
def cCounters : Cmd := hc 0 0 [(2, 1023), (2, 1), (4, 0)]
theorem wit_TraceAndCountersHaveTheirEffect_0 :
    Runs 0xF00 1 cTrace .device S ∧ cTrace.params.length = 16 ∧ cTrace.u 0 1 ≤ 1 ∧ (cTrace.u 1 1 = 1 ∨ cTrace.u 1 1 = 2) ∧
      cTrace.u 8 8 < 2 ^ 49 ∧ cTrace.u 8 8 / 2 ^ 18 % 64 = 0 := by simp only [runs_iff, buf_iff, NamesPins, NamesPin, PinFree, Blank, HasRoom, Works, Waits, Alone, ← Option.isSome_iff_exists]; decide +kernel
theorem wit_TraceAndCountersHaveTheirEffect_1 :
    Runs 0xF01 1 cCounters .device S ∧ cCounters.params.length = 8 ∧ cCounters.u 0 2 ≤ 1023 ∧ 1 ≤ cCounters.u 2 2 ∧
      cCounters.u 2 2 ≤ 510 ∧ cCounters.u 0 2 + cCounters.u 2 2 ≤ 1024 := by simp only [runs_iff, buf_iff, NamesPins, NamesPin, PinFree, Blank, HasRoom, Works, Waits, Alone, ← Option.isSome_iff_exists]; decide +kernel
theorem wit_TraceAndCountersHaveTheirEffect_2 :
    let s := S.updObs (fun x => { x with buffer := [[1], [2]], lanes := true })
    s.obs.buffer = [1] :: [[2]] ∧ s.obs.lanes = true := by decide +kernel

/-! ## Supplies, sleep, the governor -/

/-- Nothing runs where the tables are empty. -/
theorem nothing_of (s : State) (h : s.runs = [] ∧ s.seqs = [] ∧ s.caps = [] ∧ s.slices = [] ∧ s.pins = [] ∧ s.dps = [] ∧ s.engines = [] ∧
    s.bays = []) : NothingRuns s := by
  obtain ⟨h1, h2, h3, h4, h5, h6, h7, h8⟩ := h
  refine ⟨h1, h2, h3, by simp [h4], fun p => ?_, fun d => ?_, fun e => ?_, fun k => ?_⟩
  · simp only [State.pin, h5, Tab.get]; decide
  · simp only [State.dpsOf, h6, Tab.get]
  · simp only [State.eng, h7, Tab.get]; decide
  · simp only [State.awg, State.dig, State.bay, h8, Tab.get]; decide
theorem quiet_of (s : State) (k : Nat) (h : s.pins = []) (hb : s.blks = []) : BayQuiet s k :=
  ⟨fun i _ => by simp only [State.blk, hb, Tab.get]; decide, fun p _ => by simp only [State.pin, h, Tab.get]; decide⟩
/-- Bay 1 in a state of its own. -/
def B (f : Bay → Bay) : State := inWork (S.updBay 1 f)
/-- Every bay sleeps. -/
def asleep : State := { S with bays := (List.range 16).map (fun k => (k, { state := 2 })) }
/-- A zone's sample that every sensor passes. -/
def warm : List Int := [100, 101, 102, 103, 104, 105, 106, 107]
def Z (z : Nat) (f : Zone → Zone) : State := S.updZone z f
def cBayPin : Cmd := hc 1 1 [(1, 1), (7, 0)]
def cTd : Cmd := hc 0 0 [(1, 7), (1, 0), (2, 0xFF00), (2, 0x0100), (2, 0)]

theorem wit_ThermalCommandsHaveTheirEffect_0 : Runs 0xE00 1 cZero .device S ∧ cZero.params.length = 0 := by simp only [runs_iff, buf_iff, NamesPins, NamesPin, PinFree, Blank, HasRoom, Works, Waits, Alone, ← Option.isSome_iff_exists]; decide +kernel
theorem wit_ThermalCommandsHaveTheirEffect_1 :
    BayCmdReady 0xE01 0 cBare S (.bay 1) ∧ bayAwake S (bayArg cBare) = true ∧ maySleep S (bayArg cBare) = true ∧ BayQuiet S (bayArg cBare) :=
  ⟨by (repeat' refine And.intro ?_ ?_) <;> first | decide +kernel | (simp only [runs_iff, buf_iff, NamesPins, NamesPin, PinFree, Blank, HasRoom, Works, Waits, Alone, ← Option.isSome_iff_exists]; decide +kernel), by decide +kernel, by decide +kernel, quiet_of _ _ rfl rfl⟩
theorem wit_ThermalCommandsHaveTheirEffect_1_asleep :
    BayCmdReady 0xE01 0 cBare (B (fun x => { x with state := 2 })) (.bay 1) ∧
      bayAwake (B (fun x => { x with state := 2 })) (bayArg cBare) = false := by (repeat' refine And.intro ?_ ?_) <;> first | decide +kernel | (simp only [runs_iff, buf_iff, NamesPins, NamesPin, PinFree, Blank, HasRoom, Works, Waits, Alone, ← Option.isSome_iff_exists]; decide +kernel)
theorem wit_ThermalCommandsHaveTheirEffect_2 :
    let s := B (fun x => { x with state := 2 })
    BayCmdReady 0xE02 0 cBare s (.bay 1) ∧ (s.bay (bayArg cBare)).wakeReq = 0 ∧ (s.bay (bayArg cBare)).wakeKeys = [] ∧
      bayAwake s 1 = false ∧ wakeFits s [1] = true := by (repeat' refine And.intro ?_ ?_) <;> first | decide +kernel | (simp only [runs_iff, buf_iff, NamesPins, NamesPin, PinFree, Blank, HasRoom, Works, Waits, Alone, ← Option.isSome_iff_exists]; decide +kernel)
theorem wit_ThermalCommandsHaveTheirEffect_2_waits :
    let s := (B (fun x => { x with state := 2 })).updZone 0 (fun x => { x with level := 7 })
    BayCmdReady 0xE02 0 cBare s (.bay 1) ∧ (s.bay (bayArg cBare)).wakeReq = 0 ∧ (s.bay (bayArg cBare)).wakeKeys = [] ∧
      bayAwake s 1 = false ∧ wakeFits s [1] = false := by (repeat' refine And.intro ?_ ?_) <;> first | decide +kernel | (simp only [runs_iff, buf_iff, NamesPins, NamesPin, PinFree, Blank, HasRoom, Works, Waits, Alone, ← Option.isSome_iff_exists]; decide +kernel)
theorem wit_ThermalCommandsHaveTheirEffect_3 : BayCmdReady 0xE03 8 cBayPin S (.bay 1) ∧ cBayPin.u 0 1 ≤ 1 := by (repeat' refine And.intro ?_ ?_) <;> first | decide +kernel | (simp only [runs_iff, buf_iff, NamesPins, NamesPin, PinFree, Blank, HasRoom, Works, Waits, Alone, ← Option.isSome_iff_exists]; decide +kernel)
theorem wit_ThermalCommandsHaveTheirEffect_4 : Runs 0xE04 1 (cTwo 1 0) .device S ∧ (cTwo 1 0).params.length = 8 ∧ (cTwo 1 0).u 0 1 ≤ 1 := by
  simp only [runs_iff, buf_iff, NamesPins, NamesPin, PinFree, Blank, HasRoom, Works, Waits, Alone, ← Option.isSome_iff_exists]; decide +kernel
theorem wit_ThermalCommandsHaveTheirEffect_5 :
    Runs 0xE05 1 cTd .device S ∧ cTd.params.length = 8 ∧ cTd.u 0 1 ≤ 7 ∧ cTd.i 2 2 ≤ cTd.i 4 2 := by simp only [runs_iff, buf_iff, NamesPins, NamesPin, PinFree, Blank, HasRoom, Works, Waits, Alone, ← Option.isSome_iff_exists]; decide +kernel
theorem wit_ThermalCommandsHaveTheirEffect_6 : WriteRuns (.sup 0x20) 2#32 (.host (hw 0x3300020 2)) noReach S ∧ bit 2#32 0 = false :=
  ⟨write_host (by simp only [runs_iff, buf_iff, NamesPins, NamesPin, PinFree, Blank, HasRoom, Works, Waits, Alone, ← Option.isSome_iff_exists]; decide +kernel) (by decide +kernel) (by decide +kernel) (by decide +kernel) (by decide +kernel), by decide +kernel⟩
theorem wit_ThermalCommandsHaveTheirEffect_7 :
    WriteRuns (.sup 0x20) 3#32 (.host (hw 0x3300020 3)) noReach asleep ∧ bit 3#32 0 = true ∧ (∀ k < 16, (asleep.bay k).state = 2) ∧
      othersInFlight asleep (hw 0 0).key = false ∧ (∀ r ∈ asleep.compl, r.key ≠ (hw 0 0).key) :=
  ⟨write_host (by simp only [runs_iff, buf_iff, NamesPins, NamesPin, PinFree, Blank, HasRoom, Works, Waits, Alone, ← Option.isSome_iff_exists]; decide +kernel) (by decide +kernel) (by decide +kernel) (by decide +kernel) (by decide +kernel), by decide +kernel⟩
theorem wit_GovernorEventsHaveTheirEffect_0 :
    5 < 6 ∧ warm.length = 8 ∧ (S.zone 5).excl = 0 ∧
      (∀ i < 8, sampleOk (warm.getD i 0) (S.zone 5).prev[i]? (otherValid 5 0 warm i) = true) ∧
      (S.zone 5).crossings = (S.zone 5).level.toNat := by decide +kernel
theorem wit_GovernorEventsHaveTheirEffect_1 :
    let l := warm.set 2 (-20000)
    5 < 6 ∧ l.length = 8 ∧ (S.zone 5).excl = 0 ∧
      (∀ i < 8, sampleOk (l.getD i 0) (S.zone 5).prev[i]? (otherValid 5 0 l i) = decide (i ≠ 2)) ∧
      (S.zone 5).crossings = (S.zone 5).level.toNat := by decide +kernel
theorem wit_GovernorEventsHaveTheirEffect_2 : 6 ≤ 7 ∧ (S.zone 7).excl = 0 ∧ sampleOk 100 (S.zone 7).prev[0]? [90, 110] = true := by decide +kernel
theorem wit_GovernorEventsHaveTheirEffect_3 :
    let s := Z 5 (fun x => { x with excl := 4 })
    bit (s.zone 5).excl 2 = true ∧ (s.zone 5).crossings = (s.zone 5).level.toNat := by decide +kernel
theorem wit_GovernorEventsHaveTheirEffect_4 : ((Z 5 (fun x => { x with hold := true })).zone 5).hold = true := by decide +kernel
theorem wit_GovernorEventsHaveTheirEffect_5_up :
    let s := Z 5 (fun x => { x with temp := 36480 })
    bit (s.zone 5).crossed 6 ≠ true ∧ 34560 + 320 * (6 : Int) ≤ (s.zone 5).temp := by decide +kernel
theorem wit_GovernorEventsHaveTheirEffect_5_down :
    let s := Z 0 (fun x => { x with temp := 33536, crossed := 1, level := 1 })
    bit (s.zone 0).crossed 0 ≠ false ∧ (s.zone 0).temp ≤ 34560 + 320 * (0 : Int) - 1024 := by decide +kernel
theorem wit_GovernorEventsHaveTheirEffect_6 :
    let s := Z 5 (fun x => { x with flaplock := true })
    (s.zone 5).flaplock = true ∧ (s.zone 5).crossings = (s.zone 5).level.toNat ∧ (s.zone 5).novalid = false := by decide +kernel
theorem wit_GovernorEventsHaveTheirEffect_8_9_10 :
    ((Z 5 (fun x => { x with temp := 37120 })).zone 5).warn = false ∧ 37120 ≤ ((Z 5 (fun x => { x with temp := 37120 })).zone 5).temp ∧
      ((Z 5 (fun x => { x with temp := 36096, warn := true })).zone 5).temp ≤ 36096 ∧
      39680 ≤ ((Z 7 (fun x => { x with temp := 39680 })).zone 7).temp ∧ (Z 7 (fun x => { x with temp := 39680 })).thm.shutdown = false := by decide +kernel
theorem wit_GovernorEventsHaveTheirEffect_11 :
    fld S.grn.stat (8 + 4 * 1) 4 < 6 ∧ 0 < fld (S.updGrn (fun g => { g with stat := setFld g.stat 12 4 1 })).grn.stat (8 + 4 * 1) 4 := by decide +kernel
theorem wit_SupplyAndSleepEventsHaveTheirEffect_0 :
    let s := B (fun x => { x with cfg := 0x80000064#32 })
    bit (s.bay 1).cfg 31 = true ∧ bayAwake s 1 = true ∧ maySleep s 1 = true ∧ BayQuiet s 1 := ⟨by decide +kernel, by decide +kernel, by decide +kernel, quiet_of _ _ rfl rfl⟩
theorem wit_SupplyAndSleepEventsHaveTheirEffect_1 :
    let s := B (fun x => { x with wake := 0xFFFFFFFFFFFFFFFF#64 })
    (s.bay 1).wake ≠ 0 ∧ s.stamp.toNat ≤ (s.bay 1).wake.toNat := by decide +kernel
theorem wit_SupplyAndSleepEventsHaveTheirEffect_2 :
    let s := B (fun x => { x with state := 2, wakeReq := 3 })
    (s.bay 1).wakeReq ≠ 0 ∧ bayAwake s 1 = false ∧ wakeFits s [1] = true ∧ (s.bay 1).wakeKeys = [] := by decide +kernel
theorem wit_SupplyAndSleepEventsHaveTheirEffect_3 :
    let s := { asleep with ports := (List.range 6).map (fun n => (n, { state := 0 })) }
    s.sclkOn = true ∧ sclkUsed s = false := by decide +kernel
theorem wit_SupplyAndSleepEventsHaveTheirEffect_6 : activeB S ≠ true := by decide +kernel
theorem wit_SupplyAndSleepEventsHaveTheirEffect_8 : S.peRail = false ∧ NothingRuns S :=
  ⟨by decide +kernel, nothing_of _ ⟨rfl, rfl, rfl, rfl, rfl, rfl, rfl, rfl⟩⟩
theorem wit_SupplyAndSleepEventsHaveTheirEffect_9 : (S.updThm (fun t => { t with supStat := 0x40#32 })).peRail = true := by decide +kernel

/-! ## Queues, intake, completions -/

/-- A packet of R327 from its four header words and its parameters, with its CRC-32C trailer. -/
def packet (w0 w1 w2 w3 : Nat) (l : List Byte) : List Byte :=
  let h := leBytes 4 w0 ++ leBytes 4 w1 ++ leBytes 4 w2 ++ leBytes 4 w3 ++ l
  h ++ leBytes 4 (crc32c h).toNat
/-- Queue 3 as given, and no journal but the entries given. -/
def Q (q : Queue) (j : List JEntry) : State :=
  { S with queues := S.queues ++ [(3, q)], journal := j, works := j.map (fun e => { key := e.key }) }
def qOpen : Queue := { state := 1, credits := 2, maxlen := 4, sources := 0x7F, nextSeq := 7, firstSeq := 1 }
/-- DEV.INFO of queue 3, sequence 7, tag 1. -/
def pInfo : List Byte := packet 0x00000003 0x00010000 7 0 []
def waits : JEntry := { key := { qid := 3, seq := 7 }, state := 1, jsn := 1, bytes := pInfo }
def cQue (a b : Nat) : Cmd := hc 0 0 [(2, a), (1, b), (5, 0)]
def cCreate : Cmd := hc 0 0 [(2, 65535), (1, 3), (1, 0), (1, 0), (1, 0), (2, 1), (2, 510), (2, 127), (4, 0xFFFFFFFF)]
def cCq : Cmd := hc 0 0 [(1, 255), (1, 0), (2, 0x83FF), (4, 64)]

theorem wit_QueueCommandsHaveTheirEffect_0 : QueCreateReady cCreate S .device := by (repeat' refine And.intro ?_ ?_) <;> first | decide +kernel | (simp only [runs_iff, buf_iff, NamesPins, NamesPin, PinFree, Blank, HasRoom, Works, Waits, Alone, ← Option.isSome_iff_exists]; decide +kernel)
theorem wit_QueueCommandsHaveTheirEffect_1 :
    Runs 0x101 1 (cQue 3 0) .device (Q qOpen []) ∧ (cQue 3 0).params.length = 8 ∧ (cQue 3 0).u 0 2 ≠ 0 ∧
      ((Q qOpen []).queue ((cQue 3 0).u 0 2)).state = 1 := by simp only [runs_iff, buf_iff, NamesPins, NamesPin, PinFree, Blank, HasRoom, Works, Waits, Alone, ← Option.isSome_iff_exists]; decide +kernel
theorem wit_QueueCommandsHaveTheirEffect_2 :
    let s := Q { qOpen with state := 2 } [waits]
    Runs 0x101 1 (cQue 3 0) .device s ∧ (cQue 3 0).params.length = 8 ∧ (cQue 3 0).u 0 2 ≠ 0 ∧
      (s.queue ((cQue 3 0).u 0 2)).state = 2 ∧ NotWaiting (cQue 3 0) ((cQue 3 0).u 0 2) s := by simp only [runs_iff, buf_iff, NamesPins, NamesPin, PinFree, Blank, HasRoom, Works, Waits, Alone, ← Option.isSome_iff_exists]; decide +kernel
theorem wit_QueueCommandsHaveTheirEffect_3 :
    let s := Q { qOpen with state := 2, haltSeq := 7 } [{ waits with state := 4 }]
    Runs 0x102 1 (cQue 3 1) .device s ∧ (cQue 3 1).params.length = 8 ∧ (cQue 3 1).u 2 1 ≤ 2 ∧ (s.queue 3).state = 2 ∧
      haltEntryOf s 3 = some { waits with state := 4 } := by simp only [runs_iff, buf_iff, NamesPins, NamesPin, PinFree, Blank, HasRoom, Works, Waits, Alone, ← Option.isSome_iff_exists]; decide +kernel
theorem wit_QueueCommandsHaveTheirEffect_4 :
    Runs 0x103 1 (cQue 255 1) .device S ∧ (cQue 255 1).params.length = 8 ∧ (cQue 255 1).u 2 1 ≤ 1 ∧ (cQue 255 1).u 0 2 ≤ 255 := by simp only [runs_iff, buf_iff, NamesPins, NamesPin, PinFree, Blank, HasRoom, Works, Waits, Alone, ← Option.isSome_iff_exists]; decide +kernel
theorem wit_QueueCommandsHaveTheirEffect_5 :
    Runs 0x110 1 cCq .device S ∧ cCq.params.length = 8 ∧ cCq.u 0 1 ≠ 0 ∧ cCq.u 2 2 / 2 ^ 10 % 32 = 0 ∧ (∃ i < 11, cCq.u 4 4 = 64 * 2 ^ i) ∧
      (S.cq (cCq.u 0 1)).state ≠ 1 ∧ spaceFits S (cCq.u 4 4 * 32) = true :=
  ⟨(runs_iff ..).2 (by decide +kernel), by decide +kernel, by decide +kernel, by decide +kernel, ⟨0, by decide +kernel⟩, by decide +kernel⟩
theorem wit_QueueCommandsHaveTheirEffect_6 :
    Runs 0x111 1 (cTwo 255 0) .device S ∧ (cTwo 255 0).params.length = 8 ∧ (cTwo 255 0).u 0 1 ≠ 0 ∧
      (∀ e ∈ S.queues, e.2.state ≠ 0 → e.2.cq.toNat ≠ (cTwo 255 0).u 0 1) := by simp only [runs_iff, buf_iff, NamesPins, NamesPin, PinFree, Blank, HasRoom, Works, Waits, Alone, ← Option.isSome_iff_exists]; decide +kernel
theorem wit_QueueCommandsHaveTheirEffect_7_8 :
    WriteRuns (.que 0x00) 1#32 (.host (hw 0x400 1)) noReach S ∧ WriteRuns (.que 0x04) 0x80000000#32 (.host (hw 0x404 0x80000000)) noReach S :=
  ⟨write_host (by simp only [runs_iff, buf_iff, NamesPins, NamesPin, PinFree, Blank, HasRoom, Works, Waits, Alone, ← Option.isSome_iff_exists]; decide +kernel) (by decide +kernel) (by decide +kernel) (by decide +kernel) (by decide +kernel), write_host (by simp only [runs_iff, buf_iff, NamesPins, NamesPin, PinFree, Blank, HasRoom, Works, Waits, Alone, ← Option.isSome_iff_exists]; decide +kernel) (by decide +kernel) (by decide +kernel) (by decide +kernel) (by decide +kernel)⟩
theorem wit_IntakeHasItsEffect_0 :
    let s := Q qOpen []
    s.takesPackets = true ∧ PacketPasses 6 pInfo s ∧ (atIntake s (pkQid pInfo)).length < (s.queue (pkQid pInfo)).credits.toNat := by decide +kernel
theorem wit_IntakeHasItsEffect_1 : S.takesPackets = true ∧ pkOk (pInfo.set 0 0xFF) = false := by decide +kernel
theorem wit_IntakeHasItsEffect_2_closed :
    S.takesPackets = true ∧ pkOk pInfo = true ∧ (S.queue (pkQid pInfo)).state ≠ 1 ∧ (S.queue (pkQid pInfo)).state ≠ 2 := by decide +kernel
theorem wit_IntakeHasItsEffect_2_source :
    let s := Q { qOpen with sources := 0x3F } []
    pkOk pInfo = true ∧ (s.queue (pkQid pInfo)).state = 1 ∧ bit (s.queue (pkQid pInfo)).sources 6 = false := by decide +kernel
theorem wit_IntakeHasItsEffect_2_length :
    let b := packet 0x00200003 0x00010005 7 0 (List.replicate 40 0)
    let s := Q qOpen []
    pkOk b = true ∧ (s.queue (pkQid b)).state = 1 ∧ bit (s.queue (pkQid b)).sources 0 = true ∧
      (s.queue (pkQid b)).maxlen.toNat < pkLen b := by decide +kernel
theorem wit_IntakeHasItsEffect_2_credit :
    let s := { Q qOpen [] with intake := [(3, [{ bytes := pInfo }, { bytes := pInfo }])] }
    PacketPasses 0 pInfo s ∧ (s.queue (pkQid pInfo)).credits.toNat ≤ (atIntake s (pkQid pInfo)).length := by decide +kernel
/-- A packet with sequence number `n` is at queue 3's intake. -/
def turn (n : Nat) : State := { Q qOpen [] with intake := [(3, [{ bytes := packet 0x00000003 0x00010000 n 0 [] }])] }
theorem wit_IntakeHasItsEffect_3 :
    let p : Packet := { bytes := pInfo }
    atIntake (turn 7) 3 = p :: [] ∧ (turn 7).serving = true ∧ pkQid p.bytes = 3 ∧ ((turn 7).queue 3).state = 1 ∧
      BitVec.ofNat 32 (pkSeq p.bytes) = ((turn 7).queue 3).nextSeq ∧ intakeHeld p (turn 7) = false ∧
      (turn 7).entry? (pkKey p.bytes) = none ∧ (turn 7).work? (pkKey p.bytes) = none := by decide +kernel
theorem wit_IntakeHasItsEffect_4 :
    (∃ p, atIntake (turn 9) 3 = p :: [] ∧ BitVec.ofNat 32 (pkSeq p.bytes) - ((turn 9).queue 3).nextSeq = 2) ∧
      (∃ p, atIntake (turn 0) 3 = p :: [] ∧ BitVec.ofNat 32 (pkSeq p.bytes) - ((turn 0).queue 3).nextSeq = 0xFFFFFFF9 ∧
        (((turn 0).queue 3).nextSeq - ((turn 0).queue 3).firstSeq).toNat <
          (((turn 0).queue 3).nextSeq - BitVec.ofNat 32 (pkSeq p.bytes)).toNat) := by
  refine ⟨⟨_, rfl, ?_⟩, ⟨_, rfl, ?_, ?_⟩⟩ <;> decide +kernel
theorem wit_IntakeHasItsEffect_5 :
    let h := leBytes 4 255 ++ leBytes 4 5 ++ leBytes 4 0
    let b := h ++ leBytes 4 (crc32c h).toNat
    let s := S.updCq 255 (fun x => { x with state := 1, tail := 5 })
    s.serving = true ∧ b.length = 16 ∧ crc32c (b.take 12) = BitVec.ofNat 32 (rdLe b 12 4) ∧ pkWord b 0 % 256 ≠ 0 ∧
      (s.cq (pkWord b 0 % 256)).state = 1 ∧ (pkWord b 2).testBit 0 = false := by decide +kernel
theorem wit_IntakeHasItsEffect_6 : (Q qOpen []).serving = true ∧ (Q qOpen []).spi.busy = false ∧ PacketPasses 6 pInfo (Q qOpen []) := by decide +kernel
/-- PIN.LEVELS of the bay 1 in the journal. -/
def levels1 : JEntry := { waits with bytes := packet 0x50000003 0x00010000 7 0x40000001 [] }
theorem wit_CommandsStartAndArePosted_0 :
    let s := Q qOpen [waits]
    StartReady { qid := 3, seq := 7 } waits s ∧ KnownCommand waits 0x000 .device ∧ (∀ b ∈ aimedBays s 0x000 waits.cmd, bayAwake s b = true) ∧
      seqFits s (newSeq 0x000 (aimedBays s 0x000 waits.cmd).eraseDups) = true := by (repeat' refine And.intro ?_ ?_) <;> first | decide +kernel | (simp only [runs_iff, buf_iff, NamesPins, NamesPin, PinFree, Blank, HasRoom, Works, Waits, Alone, ← Option.isSome_iff_exists]; decide +kernel)
theorem wit_CommandsStartAndArePosted_1 :
    let s := { Q qOpen [levels1] with bays := asleep.bays }
    StartReady { qid := 3, seq := 7 } levels1 s ∧ KnownCommand levels1 0x500 (.bay 1) ∧
      (∃ b ∈ aimedBays s 0x500 levels1.cmd, bayAwake s b = false) := ⟨by (repeat' refine And.intro ?_ ?_) <;> first | decide +kernel | (simp only [runs_iff, buf_iff, NamesPins, NamesPin, PinFree, Blank, HasRoom, Works, Waits, Alone, ← Option.isSome_iff_exists]; decide +kernel), by decide +kernel, ⟨1, by decide +kernel⟩⟩
theorem wit_CommandsStartAndArePosted_2 :
    let e : JEntry := { waits with bytes := packet 0x00080003 0x00010000 7 0 [] }
    StartReady { qid := 3, seq := 7 } e (Q qOpen [e]) ∧ pkRsv e.bytes = true := by (repeat' refine And.intro ?_ ?_) <;> first | decide +kernel | (simp only [runs_iff, buf_iff, NamesPins, NamesPin, PinFree, Blank, HasRoom, Works, Waits, Alone, ← Option.isSome_iff_exists]; decide +kernel)
theorem wit_CommandsStartAndArePosted_2_unknown :
    let e : JEntry := { waits with bytes := packet 0xFFF00003 0x00010000 7 0 [] }
    StartReady { qid := 3, seq := 7 } e (Q qOpen [e]) ∧ pkOp e.bytes ∉ allOpcodes := by (repeat' refine And.intro ?_ ?_) <;> first | decide +kernel | (simp only [runs_iff, buf_iff, NamesPins, NamesPin, PinFree, Blank, HasRoom, Works, Waits, Alone, ← Option.isSome_iff_exists]; decide +kernel)
theorem wit_CommandsStartAndArePosted_3 :
    let x : JEntry := { waits with key := { qid := 3, seq := 6 }, state := 4, record := some { cls := 3 } }
    let e : JEntry := { waits with jsn := 2, bytes := packet 0x00040003 0x00010000 7 0 [] }
    let s := Q qOpen [x, e]
    s.entry? { qid := 3, seq := 7 } = some e ∧ e.state = 1 ∧ e.retry = none ∧ s.serving = true ∧ orderOk s e = true ∧
      linkBroken s e = some x ∧ (∃ w, s.work? { qid := 3, seq := 7 } = some w) := by simp only [runs_iff, buf_iff, NamesPins, NamesPin, PinFree, Blank, HasRoom, Works, Waits, Alone, ← Option.isSome_iff_exists]; decide +kernel
theorem wit_CommandsStartAndArePosted_4 :
    let r : Cpl := { key := { qid := 3, seq := 7 } }
    let s := { Q { qOpen with cq := 9 } [{ waits with state := 3 }] with
      compl := [] ++ r :: [], cqs := [(9, { state := 1, depth := 64, tail := 63 })] }
    s.compl = [] ++ r :: [] ∧ postable s r = true ∧ s.serving = true := by decide +kernel


/-! ## The device's own commands -/

def cRead (a : Nat) : Cmd := hc 0 0 [(4, a), (4, 0)]
def cStage : Cmd := hc 0 0 [(4, 5), (4, 1)]

theorem wit_DeviceAndRegisterCommandsHaveTheirEffect_0 : Runs 0x000 1 cZero .device S ∧ cZero.params.length = 0 := by simp only [runs_iff, buf_iff, NamesPins, NamesPin, PinFree, Blank, HasRoom, Works, Waits, Alone, ← Option.isSome_iff_exists]; decide +kernel
theorem wit_DeviceAndRegisterCommandsHaveTheirEffect_1 :
    Runs 0x001 29 (cRead 0x1010100) .device S ∧ (cRead 0x1010100).params.length = 8 ∧ regAt ((cRead 0x1010100).u 0 4) = some (.pin 3 0x00) ∧
      regScope S .device (.pin 3 0x00) = none := by simp only [runs_iff, buf_iff, NamesPins, NamesPin, PinFree, Blank, HasRoom, Works, Waits, Alone, ← Option.isSome_iff_exists]; decide +kernel
theorem wit_DeviceAndRegisterCommandsHaveTheirEffect_2 :
    Runs 0x001 29 (cRead 0x17F0128) .device S ∧ (cRead 0x17F0128).params.length = 8 ∧ Target.device.hasPin S 255 = true ∧
      regAt ((cRead 0x17F0128).u 0 4) = some (.pin 255 0x28) ∧ regAt ((cRead 0x17F0124).u 0 4) = some (.pin 255 0x24) := by simp only [runs_iff, buf_iff, NamesPins, NamesPin, PinFree, Blank, HasRoom, Works, Waits, Alone, ← Option.isSome_iff_exists]; decide +kernel
theorem wit_DeviceAndRegisterCommandsHaveTheirEffect_3 :
    Runs 0x002 29 (hw 0x100 1) .device S ∧ (hw 0x100 1).params.length = 8 ∧ regAt ((hw 0x100 1).u 0 4) = some (.boot 0) := by simp only [runs_iff, buf_iff, NamesPins, NamesPin, PinFree, Blank, HasRoom, Works, Waits, Alone, ← Option.isSome_iff_exists]; decide +kernel
theorem wit_DeviceAndRegisterCommandsHaveTheirEffect_4 :
    let c := hw 0x3008FFC 63
    Runs 0x002 29 c .device S ∧ c.params.length = 8 ∧ regAt (c.u 0 4) = some (.route 1023) ∧ c.u 4 4 % 8 ≠ 6 ∧ c.u 4 4 / 8 % 8 ≠ 6 := by simp only [runs_iff, buf_iff, NamesPins, NamesPin, PinFree, Blank, HasRoom, Works, Waits, Alone, ← Option.isSome_iff_exists]; decide +kernel
theorem wit_DeviceAndRegisterCommandsHaveTheirEffect_5 :
    let c := hw 0x33001F0 0xFFFFFFFF
    Runs 0x002 29 c .device S ∧ c.params.length = 8 ∧ regAt (c.u 0 4) = some (.bay 15 0x0) ∧ c.u 4 4 % 65536 ≠ 0 := by simp only [runs_iff, buf_iff, NamesPins, NamesPin, PinFree, Blank, HasRoom, Works, Waits, Alone, ← Option.isSome_iff_exists]; decide +kernel
theorem nothing_S : NothingRuns S := nothing_of _ ⟨rfl, rfl, rfl, rfl, rfl, rfl, rfl, rfl⟩
theorem wit_ResetAndFirmwareCommandsHaveTheirEffect_0 :
    Runs 0x010 8 (hc 2 127 []) (.slice 127) S ∧ (hc 2 127 []).params.length = 0 ∧ NothingRuns S := ⟨(runs_iff ..).2 (by decide +kernel), by decide +kernel, nothing_S⟩
theorem wit_ResetAndFirmwareCommandsHaveTheirEffect_1 :
    Runs 0x011 4 cBare (.bay 1) S ∧ cBare.params.length = 0 ∧ NothingRuns S := ⟨(runs_iff ..).2 (by decide +kernel), by decide +kernel, nothing_S⟩
theorem wit_ResetAndFirmwareCommandsHaveTheirEffect_2 : Runs 0x012 1 cZero .device S ∧ cZero.params.length = 0 := by simp only [runs_iff, buf_iff, NamesPins, NamesPin, PinFree, Blank, HasRoom, Works, Waits, Alone, ← Option.isSome_iff_exists]; decide +kernel
theorem wit_ResetAndFirmwareCommandsHaveTheirEffect_3 : FwStageReady cStage (published S 5) .device := by (repeat' refine And.intro ?_ ?_) <;> first | decide +kernel | (simp only [runs_iff, buf_iff, NamesPins, NamesPin, PinFree, Blank, HasRoom, Works, Waits, Alone, ← Option.isSome_iff_exists]; decide +kernel)
theorem wit_ResetAndFirmwareCommandsHaveTheirEffect_4 :
    let s := S.updBoot (fun b => { b with stbyImg := true })
    Runs 0x021 1 cZero .device s ∧ cZero.params.length = 0 ∧ s.boot.stbyImg = true ∧ s.boot.stbyFailed = false ∧
      s.boot.switching = false := by simp only [runs_iff, buf_iff, NamesPins, NamesPin, PinFree, Blank, HasRoom, Works, Waits, Alone, ← Option.isSome_iff_exists]; decide +kernel

/-! ## The Granary -/

/-- The last unit of the Granary. -/
def cGrnRead : Cmd := hc 0 0 [(8, 2 * 16384 * 1048576 - 8), (4, 8), (4, 0)]
/-- Eight bytes at the end of slot 5. -/
def cGrnWrite : Cmd := hc 0 0 [(8, 6 * 1048576 - 8), (8, 0x0123456789ABCDEF)]
def cSeal : Cmd := hc 0 0 [(4, 5), (4, 1048576), (4, 0), (4, 0)]
def cSlot (n k : Nat) : Cmd := hc 0 0 [(4, n), (4, k)]
def filled (s : State) (slot : Nat) (st : BitVec 3) : State := s.updSlot slot (fun x => { x with st := st })

theorem wit_GranaryCommandsHaveTheirEffect_0 : GrnReadReady cGrnRead S .device := by (repeat' refine And.intro ?_ ?_) <;> first | decide +kernel | (simp only [runs_iff, buf_iff, NamesPins, NamesPin, PinFree, Blank, HasRoom, Works, Waits, Alone, ← Option.isSome_iff_exists]; decide +kernel)
theorem wit_GranaryCommandsHaveTheirEffect_1 : GrnWriteReady cGrnWrite (takeCommits S) .device := by (repeat' refine And.intro ?_ ?_) <;> first | decide +kernel | (simp only [runs_iff, buf_iff, NamesPins, NamesPin, PinFree, Blank, HasRoom, Works, Waits, Alone, ← Option.isSome_iff_exists]; decide +kernel)
theorem wit_GranaryCommandsHaveTheirEffect_2 :
    let u := takeCommits (filled S 5 1)
    Runs 0x202 1 cSeal .device u ∧ cSeal.params.length = 16 ∧ NamesSegment cSeal u ∧ cSeal.u 4 4 % 8 = 0 ∧ 8 ≤ cSeal.u 4 4 ∧
      cSeal.u 4 4 ≤ slotSize ∧ segState u (cSeal.u 0 4) = 1 := by simp only [runs_iff, buf_iff, NamesPins, NamesPin, PinFree, Blank, HasRoom, Works, Waits, Alone, ← Option.isSome_iff_exists]; decide +kernel
theorem wit_GranaryCommandsHaveTheirEffect_2_ready :
    let u := takeCommits (filled S 5 2)
    Runs 0x202 1 cSeal .device u ∧ NamesSegment cSeal u ∧ segState u (cSeal.u 0 4) = 2 := by simp only [runs_iff, buf_iff, NamesPins, NamesPin, PinFree, Blank, HasRoom, Works, Waits, Alone, ← Option.isSome_iff_exists]; decide +kernel
theorem wit_GranaryCommandsHaveTheirEffect_3 :
    let x : Seal := { slot := 5, len := 8, key := k7 }
    let s := inWork (S.updGrn (fun g => { g with seals := [{ slot := 4 }] ++ x :: [] }))
    s.grn.seals = [{ slot := 4 }] ++ x :: [] ∧ (∀ y ∈ [({ slot := 4 } : Seal)], y.slot ≠ 5) ∧ x.key = cSeal.key ∧ Works cSeal.key s := by simp only [runs_iff, buf_iff, NamesPins, NamesPin, PinFree, Blank, HasRoom, Works, Waits, Alone, ← Option.isSome_iff_exists]; decide +kernel
theorem wit_GranaryCommandsHaveTheirEffect_4 :
    let x : Seal := { slot := 5, len := 8, key := k8 }
    let u := takeCommits (inWork ((filled S 5 1).updGrn (fun g => { g with seals := [x] })))
    Runs 0x203 1 (cSlot 5 0) .device u ∧ (cSlot 5 0).params.length = 8 ∧ NamesSegment (cSlot 5 0) u ∧ segState u 5 ≤ 2 ∧
      u.grn.seals.filter (fun x => x.slot == 5) = [x] ∧ x.key ≠ (cSlot 5 0).key ∧ Works x.key u := by simp only [runs_iff, buf_iff, NamesPins, NamesPin, PinFree, Blank, HasRoom, Works, Waits, Alone, ← Option.isSome_iff_exists]; decide +kernel
theorem wit_GranaryCommandsHaveTheirEffect_5 :
    Runs 0x204 1 (cSlot 32767 127) .device S ∧ (cSlot 32767 127).params.length = 8 ∧ 1 ≤ (cSlot 32767 127).u 4 4 ∧
      (cSlot 32767 127).u 4 4 ≤ 127 ∧ (cSlot 32767 127).u 0 4 < 2 * slotsPerStack S := by simp only [runs_iff, buf_iff, NamesPins, NamesPin, PinFree, Blank, HasRoom, Works, Waits, Alone, ← Option.isSome_iff_exists]; decide +kernel
theorem wit_GranaryCommandsHaveTheirEffect_6 :
    let s := S.updGrn (fun g => { g with caps := [{ first := capSlot, count := 1, busy := false }] })
    Runs 0x205 1 (cSlot capSlot 0) .device s ∧ (cSlot capSlot 0).params.length = 8 ∧ slotFenceCheck s ((cSlot capSlot 0).u 0 4) = none ∧
      (∃ b ∈ s.grn.caps, b.first = (cSlot capSlot 0).u 0 4) ∧ (∀ b ∈ s.grn.caps, b.first = (cSlot capSlot 0).u 0 4 → b.busy = false) :=
  ⟨(runs_iff ..).2 (by decide +kernel), by decide +kernel, by decide +kernel, ⟨_, List.mem_singleton.2 rfl, by decide +kernel⟩, by decide +kernel⟩
theorem wit_GranaryCommandsHaveTheirEffect_7 :
    let s := S.updGrn (fun g => { g with stat := setFld g.stat 2 2 2 })
    Runs 0x206 1 (cTwo 1 0) .device s ∧ (cTwo 1 0).params.length = 8 ∧ (cTwo 1 0).u 0 1 ≤ 1 ∧ stackFenced s ((cTwo 1 0).u 0 1) = true := by simp only [runs_iff, buf_iff, NamesPins, NamesPin, PinFree, Blank, HasRoom, Works, Waits, Alone, ← Option.isSome_iff_exists]; decide +kernel
theorem wit_GranaryEventsHaveTheirEffect_0 :
    WriteRuns (.grn 0x14) 0x00010008#32 (.host (hw 0x4000014 0x00010008)) (fun _ _ => false) S ∧ GrnRgnWriteReady 1 0x00010008#32 S :=
  ⟨write_host (by simp only [runs_iff, buf_iff, NamesPins, NamesPin, PinFree, Blank, HasRoom, Works, Waits, Alone, ← Option.isSome_iff_exists]; decide +kernel) (by decide +kernel) (by decide +kernel) (by decide +kernel) (by decide +kernel), by decide +kernel⟩
theorem wit_GranaryEventsHaveTheirEffect_3 :
    let s := S.updGrn (fun g => { g with stat := setFld g.stat 2 2 3 })
    Memory.wf s.grn.mem = true ∧ fld s.grn.stat (2 * 1) 2 = 3 := by decide +kernel
theorem wit_GranaryEventsHaveTheirEffect_4 : stackFenced S 0 = false ∧ NothingRuns S ∧ S.grn.seals = [] := ⟨by decide +kernel, nothing_S, by decide +kernel⟩


/-! ## Streams -/

/-- The map of site 9: home slice 1, pins 3 and 2 (paired), controller 5. -/
def cSite : Cmd := hc 3 9 [(1, 9), (1, 1), (1, 2), (1, 1), (1, 0), (3, 0), (1, 5), (7, 2 ^ 56 - 1), (8, 2 ^ 64 - 1), (4, 3), (4, 0x058102), (248, 0)]
/-- A listing in slot 10: one position of 512 rows, one column group wide, in slot 11. -/
def listing : List (Nat × Byte) :=
  [(0, 1), (2, 1), (4, 1), (0x880, 11), (0x885, 2), (0x889, 2)].map (fun e => (10 * 1048576 + e.1, e.2))
/-- Site 9 is the member of Sheaf 4; its listing and its segment are READY. -/
def sheaf4 : State :=
  { S with
    sites := [(9, { home := 1, pins := [{ pin := 3 }] })], sheaves := [(4, 1#128 <<< 9)]
    grn := { S.grn with
      mem := listing
      slots := [(10, { st := 2, len := 0x890 }), (11, { st := 2, len := 4096 })] } }
def cStart : Cmd := hc 0 (2 ^ 28 + 4) [(4, 10), (4, 0), (4, capSlot), (2, 2), (2, 0), (8, 0), (2, 0), (6, 0)]
def cAtSheaf : Cmd := hc 0 (2 ^ 28 + 4) []
def cAtSite : Cmd := hc 3 9 []
/-- Sheaf 4 plays: position 1 is a jump target. -/
def playing : Run :=
  { key := k8, phase := 2, listing := 10, maxLag := 5, members := [9], sites := [(9, { row := 3, nidx := 3, hpos := 0, idx := 2 })]
    front := 3, begun := true, first := capSlot, count := 2
    poss := [{ slot := 11, rows := 512 }, { slot := 12, rows := 600, jtgt := true }, { slot := 13, rows := 512, last := true }] }
/-- A run of Sheaf 4 that differs from `playing`. -/
def R (f : Run → Run) : State := inWork { sheaf4 with runs := [(4, f playing)] }

theorem wit_SiteAndSheafCommandsHaveTheirEffect_0 : StrSiteReady cSite S (.site 9) := by (repeat' refine And.intro ?_ ?_) <;> first | decide +kernel | (simp only [runs_iff, buf_iff, NamesPins, NamesPin, PinFree, Blank, HasRoom, Works, Waits, Alone, ← Option.isSome_iff_exists]; decide +kernel)
theorem wit_SiteAndSheafCommandsHaveTheirEffect_1 :
    Runs 0x301 16 cAtSite (.site 9) sheaf4 ∧ cAtSite.params.length = 0 ∧ runOfSite sheaf4 cAtSite.index.toNat = none := by simp only [runs_iff, buf_iff, NamesPins, NamesPin, PinFree, Blank, HasRoom, Works, Waits, Alone, ← Option.isSome_iff_exists]; decide +kernel
theorem wit_SiteAndSheafCommandsHaveTheirEffect_2 :
    let c := hc 0 (2 ^ 28 + 127) [(16, 2 ^ 9)]
    Runs 0x302 2 c (.sheaf 127) sheaf4 ∧ c.params.length = 16 ∧ c.u 0 16 = 2 ^ 9 ∧ (sheaf4.site? 9).isSome = true ∧ sheaf4.run? 127 = none := by
  simp only [runs_iff, buf_iff, NamesPins, NamesPin, PinFree, Blank, HasRoom, Works, Waits, Alone, ← Option.isSome_iff_exists]; decide +kernel
theorem wit_SiteAndSheafCommandsHaveTheirEffect_2_named :
    ∀ x < 128, ((hc 0 (2 ^ 28 + 127) [(16, 2 ^ 9)]).u 0 16).testBit x = true → (sheaf4.site? x).isSome = true := by decide +kernel
set_option maxRecDepth 100000 in
theorem wit_StreamCommandsHaveTheirEffect_0 : StrStartReady cStart sheaf4 (.sheaf 4) ∧ startGranted sheaf4 (startReqOf cStart 4) = true := by
  (repeat' refine And.intro ?_ ?_) <;> first | decide +kernel | (simp only [runs_iff, buf_iff, NamesPins, NamesPin, PinFree, Blank, HasRoom, Works, Waits, Alone, ← Option.isSome_iff_exists]; decide +kernel)
theorem wit_StreamCommandsHaveTheirEffect_1 :
    let s := R id
    Runs 0x304 18 cAtSheaf (.sheaf 4) s ∧ cAtSheaf.params.length = 0 ∧ stopTarget s (.sheaf 4) = some (4, none) ∧ s.run? 4 = some playing ∧
      playing.phase = 2 := by simp only [runs_iff, buf_iff, NamesPins, NamesPin, PinFree, Blank, HasRoom, Works, Waits, Alone, ← Option.isSome_iff_exists]; decide +kernel
theorem wit_StreamCommandsHaveTheirEffect_1_site :
    let s := R id
    Runs 0x304 18 cAtSite (.site 9) s ∧ stopTarget s (.site 9) = some (4, some 9) ∧ (playing.site 9).live = true := by simp only [runs_iff, buf_iff, NamesPins, NamesPin, PinFree, Blank, HasRoom, Works, Waits, Alone, ← Option.isSome_iff_exists]; decide +kernel
def cJump (p : Nat) : Cmd := hc 0 (2 ^ 28 + 4) [(4, p), (4, 0)]
theorem wit_StreamCommandsHaveTheirEffect_2 :
    let u := takeCommits (R id)
    Runs 0x305 2 (cJump 1) (.sheaf 4) u ∧ (cJump 1).params.length = 8 ∧ u.run? 4 = some playing ∧ playing.admitted = true ∧
      playing.jumpPending = false ∧ (cJump 1).u 0 4 < playing.poss.length ∧ (posAt playing.poss ((cJump 1).u 0 4)).jtgt = true := by simp only [runs_iff, buf_iff, NamesPins, NamesPin, PinFree, Blank, HasRoom, Works, Waits, Alone, ← Option.isSome_iff_exists]; decide +kernel
theorem wit_StreamCommandsHaveTheirEffect_3_4 :
    Runs 0x306 18 cAtSheaf (.sheaf 4) (R id) ∧ cAtSheaf.params.length = 0 ∧ Runs 0x306 18 cAtSite (.site 9) S ∧ cAtSite.params.length = 0 := by
  simp only [runs_iff, buf_iff, NamesPins, NamesPin, PinFree, Blank, HasRoom, Works, Waits, Alone, ← Option.isSome_iff_exists]; decide +kernel

/-- The start waits for its grant. -/
def waitsForGrant : State := { inWork sheaf4 with starts := [] ++ startReqOf cStart 4 :: [] }
set_option maxRecDepth 100000 in
theorem wit_StreamEventsHaveTheirEffect_0 :
    waitsForGrant.starts = [] ++ startReqOf cStart 4 :: [] ∧ (startReqOf cStart 4).sheaf = 4 ∧
      startGranted waitsForGrant (startReqOf cStart 4) = true ∧ startCheck { waitsForGrant with starts := [] ++ [] } (startReqOf cStart 4) = none ∧
      (waitsForGrant.work? (startReqOf cStart 4).key).isSome = true := by decide +kernel
theorem wit_StreamEventsHaveTheirEffect_1 :
    let r : Run := { playing with phase := 1, startAt := 4096 }
    (R (fun _ => r)).run? 4 = some r ∧ r.phase = 1 := by decide +kernel
theorem wit_StreamEventsHaveTheirEffect_2 : PlainRow 4 9 playing (R id) := by decide +kernel
theorem wit_StreamEventsHaveTheirEffect_2_pin : ((R id).site? 9).map (·.pins) = some [{ pin := 3 }] := by decide +kernel
theorem wit_StreamEventsHaveTheirEffect_3 :
    let r := playing.updSite 9 (fun q => { q with ending := some (4, 0, 0xFF) })
    runOfSite (R (fun _ => r)) 9 = some (4, r) ∧ (R (fun _ => r)).run? 4 = some r ∧ r.phase = 2 ∧ (r.site 9).live = true ∧ r.com = none ∧
      (r.site 9).ending = some (4, 0, 0xFF) := by decide +kernel
theorem wit_StreamEventsHaveTheirEffect_3_lag :
    let r : Run := { playing with front := 9 }
    runOfSite (R (fun _ => r)) 9 = some (4, r) ∧ r.phase = 2 ∧ (r.site 9).live = true ∧ r.com = none ∧ (r.site 9).ending = none ∧
      r.maxLag < r.frontAt (r.site 9).vstart - (r.site 9).nidx := by decide +kernel
/-- A commit point waits at position 1. -/
def atCommit : Run := { playing with com := some { pos := 1, idx := 855, row := 599, nominal := some 2 } }
theorem wit_StreamEventsHaveTheirEffect_4 : CommitsTo 4 2 atCommit { pos := 1, idx := 855, row := 599, nominal := some 2 } (R (fun _ => atCommit)) ∧
    segmentReady (R (fun _ => atCommit)) atCommit 2 = false := by decide +kernel
theorem wit_StreamEventsHaveTheirEffect_4_ready :
    let s := (R (fun _ => atCommit)).updSlot 13 (fun x => { x with st := 2, len := 4096 })
    CommitsTo 4 2 atCommit { pos := 1, idx := 855, row := 599, nominal := some 2 } s ∧ segmentReady s atCommit 2 = true := by decide +kernel
theorem wit_StreamEventsHaveTheirEffect_5 :
    let s := (R id).updGrn (fun g => { g with warn := 100#32 })
    s.run? 4 = some playing ∧ (deadlineOf s playing 2).isSome = true ∧ fld s.grn.warn 0 20 ≠ 0 ∧ (2#32).toNat ∉ playing.warned ∧
      segState s (posAt playing.poss 2).slot ≠ 2 := by decide +kernel
/-- Two records of 32 bytes wait to be drained. -/
def recA : List Byte := List.replicate 32 1
def recB : List Byte := List.replicate 32 2
theorem wit_StreamEventsHaveTheirEffect_6 :
    let s := (R id).updSlice 1 (fun x => { x with win := { x.win with fifo := [recA, recB], recs := 7 } })
    runOfSite s 9 = some (4, playing) ∧ (playing.site 9).drained = false ∧ homeOf s 9 = 1 ∧ (s.slice 1).win.fifo = recA :: [recB] ∧
      (s.slice 1).win.refused = 0 ∧ 0 < playing.logRoom ∧ (s.slice 1).win.recs.toNat - (s.slice 1).win.fifo.length < playing.logRoom := by decide +kernel
/-- Both sites of the run are over. -/
def bothEnded (drained : Bool) : Run :=
  { playing with phase := 3, members := [9, 10], sites := [(9, { live := false }), (10, { live := false, drained := drained })] }
theorem wit_StreamEventsHaveTheirEffect_7 :
    let r := bothEnded false
    let s := R (fun _ => r)
    runOfSite s 9 = some (4, r) ∧ s.run? 4 = some r ∧ (r.site 9).live = false ∧ (r.site 9).drained = false ∧
      stackFenced s (stackOf s r.first) = false ∧ (s.slice (homeOf s 9)).win.fifo = [] ∧ 10 ∈ r.members ∧ (r.site 10).drained = false := by decide +kernel
theorem wit_StreamEventsHaveTheirEffect_8 :
    let r := bothEnded true
    let s := R (fun _ => r)
    runOfSite s 9 = some (4, r) ∧ s.run? 4 = some r ∧ (r.site 9).live = false ∧ (r.site 9).drained = false ∧
      (∀ y ∈ r.members, y ≠ 9 → (r.site y).drained = true) ∧ r.phase = 3 ∧ r.key = k8 ∧ (s.work? k8).isSome = true ∧
      (s.entry? k8).bind (·.retry) = none ∧ r.begun = true := by decide +kernel


/-! ## Engines -/

/-- A microword from fields: place and value (R151). -/
def mw (l : List (Nat × Nat)) : MWord := BitVec.ofNat 128 (l.foldl (fun a x => a + x.2 * 2 ^ x.1) 0)
/-- Engine `e` in a state of its own. -/
def E (e : Nat) (f : Engine → Engine) : State := inWork (S.updEng e f)
/-- Engine `e` runs the word `w` at its PC 0. -/
def W (e : Nat) (w : MWord) (f : Engine → Engine) : State := E e (fun x => f { x with state := 1, store := [(0, entryOf w)] })
def nop : MWord := mw []
/-- Engine 143's bay is bay 15. -/
def cAtBay : Cmd := hc 1 15 []
def cCall : Cmd := hc 1 15 [(2, 16383), (1, 2), (5, 0), (4, capSlot), (2, 1024), (1, 1), (1, 0), (4, 7), (4, 8)]
/-- An image of one HALT word for slice engines. -/
def image : List Byte := imageHeader true [haltWord] 5 ++ wordBytes [haltWord]
/-- Slot 10 holds the image and is READY. -/
def withImage : State := { S with grn := { S.grn with
  slots := [(10, { st := 2, len := 48 })]
  mem := (((List.range 48).zip image).filter (fun e => e.2 != 0)).map (fun e => (10 * 1048576 + e.1, e.2)) } }
def cStore (slot : Nat) : Cmd := hc 0 0 [(4, slot), (4, 0)]
/-- The other bank of engine 143 is VALID (its VALID word is 1, R171). -/
def bankIn (s : State) : State := s.updGrn (fun g => { g with mem := [(headerAddr S 0 true 143 + 32, 1)] })
def cReload (sel force : Nat) : Cmd := hc 1 15 [(1, sel), (1, force), (6, 0)]
theorem nothing_eng (e : Nat) (x : Engine) (h : x.calls = [] ∧ x.open? = none ∧ x.reload = none) :
    NothingRuns (inWork { S with engines := [(e, x)] }) := by
  obtain ⟨h1, h2, h3, h4, h5, h6, h7, h8⟩ := nothing_S
  refine ⟨h1, h2, h3, h4, h5, h6, fun i => ?_, h8⟩
  by_cases hi : e = i
  · simp [State.eng, inWork, Tab.get, hi, h]
  · simp [State.eng, inWork, Tab.get, Ne.symm hi]

theorem wit_EngineCommandsHaveTheirEffect_0 : EngCallReady cCall S (.bay 15) := by (repeat' refine And.intro ?_ ?_) <;> first | decide +kernel | (simp only [runs_iff, buf_iff, NamesPins, NamesPin, PinFree, Blank, HasRoom, Works, Waits, Alone, ← Option.isSome_iff_exists]; decide +kernel)
theorem wit_EngineCommandsHaveTheirEffect_1 : EngStoreReady (cStore 10) withImage .device := by (repeat' refine And.intro ?_ ?_) <;> first | decide +kernel | (simp only [runs_iff, buf_iff, NamesPins, NamesPin, PinFree, Blank, HasRoom, Works, Waits, Alone, ← Option.isSome_iff_exists]; decide +kernel)
theorem wit_EngineCommandsHaveTheirEffect_1_one : EngStoreReady (hc 2 127 [(4, 10), (4, 0)]) withImage (.slice 127) := by (repeat' refine And.intro ?_ ?_) <;> first | decide +kernel | (simp only [runs_iff, buf_iff, NamesPins, NamesPin, PinFree, Blank, HasRoom, Works, Waits, Alone, ← Option.isSome_iff_exists]; decide +kernel)
theorem wit_EngineCommandsHaveTheirEffect_2 :
    let s := bankIn S
    Runs 0x402 12 (cReload 1 0) (.bay 15) s ∧ (cReload 1 0).params.length = 8 ∧ (Target.bay 15).engNo = 143 ∧ (s.eng 143).state = 0 ∧
      bankValid s ((s.eng 143).bank != ((cReload 1 0).u 0 1 == 1)) 143 = true ∧ (s.eng 143).reload = none := by simp only [runs_iff, buf_iff, NamesPins, NamesPin, PinFree, Blank, HasRoom, Works, Waits, Alone, ← Option.isSome_iff_exists]; decide +kernel
theorem wit_EngineCommandsHaveTheirEffect_2_busy :
    let s := bankIn (E 143 (fun x => { x with state := 1 }))
    Runs 0x402 12 (cReload 1 1) (.bay 15) s ∧ (cReload 1 1).u 1 1 = 1 ∧ (s.eng 143).state = 1 ∧
      bankValid s ((s.eng 143).bank != ((cReload 1 1).u 0 1 == 1)) 143 = true ∧ (s.eng 143).reload = none := by simp only [runs_iff, buf_iff, NamesPins, NamesPin, PinFree, Blank, HasRoom, Works, Waits, Alone, ← Option.isSome_iff_exists]; decide +kernel
/-- Engine 143 loads its other bank. -/
def loads : State := E 143 (fun x => { x with state := 3, loading := true, reload := some (true, k7) })
theorem wit_EngineCommandsHaveTheirEffect_3 :
    loads.serving = true ∧ (loads.eng 143).loading = true ∧ (loads.eng 143).reload = some (true, cAtBay.key) ∧ Waits cAtBay.key loads ∧
      (loadAttempts loads true 143 true true).isSome = true := by simp only [runs_iff, buf_iff, NamesPins, NamesPin, PinFree, Blank, HasRoom, Works, Waits, Alone, ← Option.isSome_iff_exists]; decide +kernel
theorem wit_EngineCommandsHaveTheirEffect_3_fails :
    loadAttempts loads true 143 false false = none ∧ NothingRuns { loads with engines := [] } ∧
      ∀ i, (loads.eng i).calls = [] ∧ (loads.eng i).open? = none := by
  refine ⟨by decide +kernel, nothing_of _ ⟨rfl, rfl, rfl, rfl, rfl, rfl, rfl, rfl⟩, fun i => ?_⟩
  by_cases hi : 143 = i
  · simp [loads, E, S, State.updEng, Tab.upd, Tab.set, Tab.get, State.eng, inWork, ← hi, State.reset]
  · simp [loads, E, S, State.updEng, Tab.upd, Tab.set, Tab.get, State.eng, inWork, hi, Ne.symm hi, State.reset]
theorem wit_EngineCommandsHaveTheirEffect_4 :
    let s := E 143 (fun x => { x with repair := [16383] })
    s.serving = true ∧ (s.eng 143).state = 0 ∧ (s.eng 143).repair ≠ [] ∧ (loadAttempts s (s.eng 143).bank 143 true true).isSome = true := by
  decide +kernel
theorem wit_EngineCommandsHaveTheirEffect_5 :
    WriteRuns (.eng 143 0) 0x00053FFF#32 (.host (hw 0x2F01000 0x00053FFF)) noReach S ∧ fld 0x00053FFF#32 16 2 ≤ 1 ∧
      engFence (.host (hw 0x2F01000 0x00053FFF)) 143 S = none :=
  ⟨write_host (by simp only [runs_iff, buf_iff, NamesPins, NamesPin, PinFree, Blank, HasRoom, Works, Waits, Alone, ← Option.isSome_iff_exists]; decide +kernel) (by decide +kernel) (by decide +kernel) (by decide +kernel) (by decide +kernel), by decide +kernel⟩
theorem wit_EngineCommandsHaveTheirEffect_6 :
    let s := E 143 (fun x => { x with ctrlPend := some 0x00010005#32 })
    (s.eng 143).state ≠ 2 ∧ (s.eng 143).group = false ∧ (s.eng 143).cur = none := by decide +kernel

def call : Call := { key := k7, entry := 16383, args := [7, 8] }
theorem wit_EngineEventsHaveTheirEffect_0 :
    let s := E 143 (fun x => { x with calls := [call] })
    s.serving = true ∧ ((s.eng 143).applyMode).state = 0 ∧ ((s.eng 143).applyMode).reload = none ∧ takeable s 143 = 0 ∧ Calm 143 s.mono s ∧
      ((s.eng 143).applyMode).calls = call :: [] := by decide +kernel
theorem wit_EngineEventsHaveTheirEffect_1 :
    let s := W 127 nop (fun x => { x with even := 0x3F#32, latched := 0x18 })
    ((s.eng 127).applyMode).state = 1 ∧ AtBoundary 127 (max s.mono ((s.eng 127).applyMode).nextAt) s ∧ topEvent (takeable s 127) = some 4 := by
  decide +kernel
theorem wit_EngineEventsHaveTheirEffect_1_idle :
    let s := E 127 (fun x => { x with even := 0x3F#32, latched := 0x08 })
    ((s.eng 127).applyMode).state = 0 ∧ AtBoundary 127 s.mono s ∧ topEvent (takeable s 127) = some 3 := by decide +kernel
/-- WAIT for a condition that never holds, with a limit. -/
def waits' : MWord := mw [(124, 5), (117, 1), (96, 9), (32, 65535)]
theorem wit_EngineEventsHaveTheirEffect_2 :
    let s := W 143 waits' (fun x => { x with waiting := true, waitEnd := 4096 })
    engRunning s 143 = true ∧ syndrome ((s.eng 143).entry (s.eng 143).pc) = 0 ∧ ((s.eng 143).entry (s.eng 143).pc).setWidth 128 = waits' ∧
      (s.eng 143).waiting = true ∧ (s.eng 143).waitEnd ≠ 0 ∧ Calm 143 (max s.mono (s.eng 143).waitEnd) s ∧ condOf s 143 waits' = false := by decide +kernel
theorem wit_EngineEventsHaveTheirEffect_3_4 :
    ((E 143 (fun x => { x with timerEnd := 4096 })).eng 143).timerEnd ≠ 0 ∧ ((E 143 (fun x => { x with group := true })).eng 143).group = true := by
  decide +kernel
theorem wit_EngineEventsHaveTheirEffect_5 :
    let x : Engine := { state := 1, store := [(0, entryOf nop + 1)] }
    let s := inWork { S with engines := [(143, x)] }
    FetchFails 143 s ∧ NothingRuns s ∧ syndrome ((s.eng 143).entry (s.eng 143).pc) ≠ 0 := ⟨by decide +kernel, nothing_eng _ _ ⟨rfl, rfl, rfl⟩, by decide +kernel⟩
theorem wit_EngineEventsHaveTheirEffect_6 :
    let s := W 143 nop (fun x => { x with calls := [call], open? := some { call := { key := k8 } } })
    FetchFails 143 s ∧ call ∈ (s.eng 143).calls ∧ (s.eng 143).open?.map (·.call) = some { key := k8 } ∧ Waits k7 s ∧ Waits k8 s ∧ s.journal = [] := by
  simp only [runs_iff, buf_iff, NamesPins, NamesPin, PinFree, Blank, HasRoom, Works, Waits, Alone, ← Option.isSome_iff_exists]; decide +kernel
theorem wit_EngineEventsHaveTheirEffect_7 :
    S.serving = true ∧ (S.eng 127).loading = false ∧ (4095#14).toNat < 4096 ∧ 4095#14 ∉ (S.eng 127).repair ∧ (16383#14).toNat < 16384 ∧
      16383#14 ∉ (S.eng 143).repair := by decide +kernel
theorem wit_UnitFencesHaveTheirEffect : NothingRuns S := nothing_S


/-! ## Microwords -/

/-- What a word not yet begun needs. -/
theorem seq_ready {code : Nat} {e : Fin 144} {w : MWord} {s : State}
    (h : WordReady false e w s ∧ mwSeq w = code ∧ (s.eng e.val).cur = none ∧ mwAlu w = 0 ∧ mwIfu w = 0) : SeqReady code e w s :=
  ⟨h.1, h.2.1, fun _ => h.2.2.2, fun c hc => absurd (h.2.2.1 ▸ hc) (by simp)⟩
/-- What a word needs whose other parts have acted. -/
theorem seq_ready_begun {code : Nat} {e : Fin 144} {w : MWord} {s : State} {c : WordCur}
    (h : WordReady false e w s ∧ mwSeq w = code ∧ (s.eng e.val).cur = some c ∧ c.aluDone = true ∧ c.ifDone = true) : SeqReady code e w s :=
  ⟨h.1, h.2.1, fun hc => absurd (h.2.2.1 ▸ hc) (by simp), fun d hd => by
    have := h.2.2.1.symm.trans hd; cases this; exact h.2.2.2⟩
theorem alu_ready {code : Nat} {e : Fin 144} {w : MWord} {s : State}
    (h : WordReady false e w s ∧ mwAlu w = code ∧ (s.eng e.val).cur = none ∧ (mwBsel w = 2 → mwIfu w = 0)) : AluReady code e w s :=
  ⟨h.1, h.2.1, fun _ => h.2.2.2, fun c hc => absurd (h.2.2.1 ▸ hc) (by simp)⟩
theorem alu_ready_begun {code : Nat} {e : Fin 144} {w : MWord} {s : State} {c : WordCur}
    (h : WordReady false e w s ∧ mwAlu w = code ∧ (s.eng e.val).cur = some c ∧ c.aluDone = false ∧ c.ifDone = true) : AluReady code e w s :=
  ⟨h.1, h.2.1, fun hc => absurd (h.2.2.1 ▸ hc) (by simp), fun d hd => by
    have := h.2.2.1.symm.trans hd; cases this; exact ⟨h.2.2.2.1, fun _ => h.2.2.2.2⟩⟩
theorem ifu_ready {unit op : Nat} {e : Fin 144} {w : MWord} {s : State}
    (h : WordReady false e w s ∧ mwIfu w = unit ∧ mwIfop w = op ∧ (unit ≤ 5 → e.val < 128) ∧ (s.eng e.val).cur = none ∧
      (mwAlu w = 0 ∨ mwBsel w = 2)) : IfuReady unit op e w s :=
  ⟨h.1, h.2.1, h.2.2.1, h.2.2.2.1, fun _ => h.2.2.2.2.2, fun c hc => absurd (h.2.2.2.2.1 ▸ hc) (by simp)⟩
theorem ifu_ready_begun {unit op : Nat} {e : Fin 144} {w : MWord} {s : State} {c : WordCur}
    (h : WordReady false e w s ∧ mwIfu w = unit ∧ mwIfop w = op ∧ (unit ≤ 5 → e.val < 128) ∧ (s.eng e.val).cur = some c ∧
      c.ifDone = false ∧ c.aluDone = true) : IfuReady unit op e w s :=
  ⟨h.1, h.2.1, h.2.2.1, h.2.2.2.1, fun hc => absurd (h.2.2.2.2.1 ▸ hc) (by simp), fun d hd => by
    have := h.2.2.2.2.1.symm.trans hd; cases this; exact ⟨h.2.2.2.2.2.1, Or.inl h.2.2.2.2.2.2⟩⟩

/-- A word of one sequencer code with its target and condition. -/
def wSeq (code : Nat) : MWord := mw [(124, code), (96, 4095), (113, 1)]
theorem wit_SequencerWordsHaveTheirEffect_0 : SeqReady 0 143 (wSeq 0) (W 143 (wSeq 0) id) := seq_ready (by decide +kernel)
theorem wit_SequencerWordsHaveTheirEffect_0_begun :
    SeqReady 0 5 (mw [(92, 2), (73, 9)]) (W 5 (mw [(92, 2), (73, 9)]) (fun x => { x with cur := some { aluDone := true, ifDone := true } })) :=
  seq_ready_begun (c := { aluDone := true, ifDone := true }) (by decide +kernel)
theorem wit_SequencerWordsHaveTheirEffect_1 : SeqReady 1 143 (wSeq 1) (W 143 (wSeq 1) id) := seq_ready (by decide +kernel)
theorem wit_SequencerWordsHaveTheirEffect_2 : SeqReady 2 143 (wSeq 2) (W 143 (wSeq 2) id) := seq_ready (by decide +kernel)
theorem wit_SequencerWordsHaveTheirEffect_3 : SeqReady 3 143 (wSeq 3) (W 143 (wSeq 3) id) := seq_ready (by decide +kernel)
theorem wit_SequencerWordsHaveTheirEffect_4 : SeqReady 4 143 (wSeq 4) (W 143 (wSeq 4) id) := seq_ready (by decide +kernel)
theorem wit_SequencerWordsHaveTheirEffect_5 : SeqReady 5 143 (wSeq 5) (W 143 (wSeq 5) id) := seq_ready (by decide +kernel)
theorem wit_SequencerWordsHaveTheirEffect_6 :
    WordReady true 143 waits' (W 143 waits' id) ∧ mwSeq waits' = 5 ∧ ((W 143 waits' id).eng 143).cur = none := by decide +kernel
theorem wit_SequencerWordsHaveTheirEffect_7 : SeqReady 6 143 (wSeq 6) (W 143 (wSeq 6) id) := seq_ready (by decide +kernel)
theorem wit_SequencerWordsHaveTheirEffect_8 : SeqReady 7 143 haltWord (W 143 haltWord id) := seq_ready (by decide +kernel)
theorem wit_SequencerWordsHaveTheirEffect_8_call :
    let s := W 143 haltWord (fun x => { x with open? := some { call := call, put := [5] } })
    SeqReady 7 143 haltWord s ∧ (s.eng 143).open? = some { call := call, put := [5] } ∧ Waits k7 s := ⟨seq_ready (by decide +kernel), by simp only [runs_iff, buf_iff, NamesPins, NamesPin, PinFree, Blank, HasRoom, Works, Waits, Alone, ← Option.isSome_iff_exists]; decide +kernel⟩
theorem wit_SequencerWordsHaveTheirEffect_9 :
    SeqReady 8 143 (wSeq 8) (W 143 (wSeq 8) id) ∧ ((W 143 (wSeq 8) id).eng 143).state ≠ 2 := ⟨seq_ready (by decide +kernel), by decide +kernel⟩
theorem wit_SequencerWordsHaveTheirEffect_10 :
    let s := W 143 (wSeq 8) (fun x => { x with state := 2, idleOrigin := true })
    SeqReady 8 143 (wSeq 8) s ∧ (s.eng 143).state = 2 := ⟨seq_ready (by decide +kernel), by decide +kernel⟩

def wAlu (code : Nat) : MWord := mw [(92, code), (88, 15), (82, 2), (77, 19)]
theorem wit_AluWordsHaveTheirEffect_0 : 12 ≤ mwAlu (wAlu 12) ∧ 20 ≤ mwDst (mw [(77, 20)]) := by decide +kernel
theorem wit_AluWordsHaveTheirEffect_1 : WordReady false 0 (wAlu 0) (W 0 (wAlu 0) id) ∧ mwAlu (wAlu 0) = 0 := by decide +kernel
theorem wit_AluWordsHaveTheirEffect_2 : AluReady 1 0 (wAlu 1) (W 0 (wAlu 1) id) := alu_ready (by decide +kernel)
theorem wit_AluWordsHaveTheirEffect_2_begun :
    AluReady 1 143 (mw [(92, 1), (82, 2), (73, 9), (69, 1)]) (W 143 (mw [(92, 1), (82, 2), (73, 9), (69, 1)])
      (fun x => { x with cur := some { ifDone := true } })) := alu_ready_begun (c := { ifDone := true }) (by decide +kernel)
theorem wit_AluWordsHaveTheirEffect_3 : AluReady 2 0 (wAlu 2) (W 0 (wAlu 2) id) := alu_ready (by decide +kernel)
theorem wit_AluWordsHaveTheirEffect_4 : AluReady 3 0 (wAlu 3) (W 0 (wAlu 3) id) := alu_ready (by decide +kernel)
theorem wit_AluWordsHaveTheirEffect_5 : AluReady 4 0 (wAlu 4) (W 0 (wAlu 4) id) := alu_ready (by decide +kernel)
theorem wit_AluWordsHaveTheirEffect_6 : AluReady 5 0 (wAlu 5) (W 0 (wAlu 5) id) := alu_ready (by decide +kernel)
theorem wit_AluWordsHaveTheirEffect_7 : AluReady 6 0 (wAlu 6) (W 0 (wAlu 6) id) := alu_ready (by decide +kernel)
theorem wit_AluWordsHaveTheirEffect_8 : AluReady 7 0 (wAlu 7) (W 0 (wAlu 7) id) := alu_ready (by decide +kernel)
theorem wit_AluWordsHaveTheirEffect_9 : AluReady 8 0 (wAlu 8) (W 0 (wAlu 8) id) := alu_ready (by decide +kernel)
theorem wit_AluWordsHaveTheirEffect_10 : AluReady 9 0 (wAlu 9) (W 0 (wAlu 9) id) := alu_ready (by decide +kernel)
theorem wit_AluWordsHaveTheirEffect_11 : AluReady 10 0 (wAlu 10) (W 0 (wAlu 10) id) := alu_ready (by decide +kernel)
theorem wit_AluWordsHaveTheirEffect_12 : AluReady 11 0 (wAlu 11) (W 0 (wAlu 11) id) := alu_ready (by decide +kernel)

/-- A word of one interface operation, with argument SR[2] and an IMM. -/
def wIfu (unit op imm : Nat) : MWord := mw [(73, unit), (69, op), (65, 2), (0, imm)]
/-- Engine `e` runs it, with SR[2] = `v`. -/
def I (e unit op imm : Nat) (v : Word) : State := W e (wIfu unit op imm) (fun x => { x with sr := [(2, v)] })
/-- Pins 254 and 255 are out of SAFE. -/
def awake (s : State) : State := (s.updPin 254 (fun x => { x with stat := 0 })).updPin 255 (fun x => { x with stat := 0 })
theorem wit_PinAndRegisterWordsHaveTheirEffect_0 :
    IfuReady 1 0 127 (wIfu 1 0 0x100) (I 127 1 0 0x100 0) ∧ ifuPinName 127 (wIfu 1 0 0x100) = some (.pin 255 0x00) ∧
      pinUnitReach (I 127 1 0 0x100 0) 127 (.pin 255 0x00) = true := ⟨ifu_ready (by decide +kernel), by decide +kernel⟩
/-- The ALU waits for the value of the read. -/
def wReadAdd : MWord := mw [(92, 2), (82, 2), (73, 1), (0, 0x100)]
theorem wit_PinAndRegisterWordsHaveTheirEffect_0_alu : IfuReady 1 0 127 wReadAdd (W 127 wReadAdd id) := ifu_ready (by decide +kernel)
theorem wit_PinAndRegisterWordsHaveTheirEffect_0_begun :
    IfuReady 1 0 127 (wIfu 1 0 0x100) (W 127 (wIfu 1 0 0x100) (fun x => { x with cur := some { aluDone := true } })) :=
  ifu_ready_begun (c := { aluDone := true }) (by decide +kernel)
theorem wit_PinAndRegisterWordsHaveTheirEffect_1_3 :
    IfuReady 1 0 127 (wIfu 1 0 0xFFF) (I 127 1 0 0xFFF 0) ∧ ifuPinName 127 (wIfu 1 0 0xFFF) = none ∧
      IfuReady 1 1 127 (wIfu 1 1 0xFFF) (I 127 1 1 0xFFF 0) ∧ ifuPinName 127 (wIfu 1 1 0xFFF) = none :=
  ⟨ifu_ready (by decide +kernel), by decide +kernel, ifu_ready (by decide +kernel), by decide +kernel⟩
theorem wit_PinAndRegisterWordsHaveTheirEffect_1_3_reach :
    let w := wIfu 1 0 (0x80000100 + 126 * 2 ^ 24)
    let n := RegName.pin 253 0x00
    ifuPinName 127 w = some n ∧ pinUnitReach (I 127 1 0 0x100 0) 127 n = false := by decide +kernel
theorem wit_PinAndRegisterWordsHaveTheirEffect_2 :
    IfuReady 1 1 127 (wIfu 1 1 0x100) (I 127 1 1 0x100 0x12345678) ∧ ifuPinName 127 (wIfu 1 1 0x100) = some (.pin 255 0x00) ∧
      pinUnitReach (I 127 1 1 0x100 0x12345678) 127 (.pin 255 0x00) = true := ⟨ifu_ready (by decide +kernel), by decide +kernel⟩
theorem wit_PinAndRegisterWordsHaveTheirEffect_4 :
    IfuReady 10 0 143 (wIfu 10 0 0x5818) (I 143 10 0 0x5818 0) ∧ ifuBayName 143 (wIfu 10 0 0x5818) = some (.blk 63 0x00) ∧
      bayUnitReach (I 143 10 0 0x5818 0) 143 (.blk 63 0x00) = true := ⟨ifu_ready (by decide +kernel), by decide +kernel⟩
theorem wit_PinAndRegisterWordsHaveTheirEffect_5_7 :
    IfuReady 10 0 0 (wIfu 10 0 0x4000) (I 0 10 0 0x4000 0) ∧ ifuBayName 0 (wIfu 10 0 0x4000) = some (.dps 0 0x00) ∧
      bayUnitReach (I 0 10 0 0x4000 0) 0 (.dps 0 0x00) = false ∧ IfuReady 10 1 0 (wIfu 10 1 0x4000) (I 0 10 1 0x4000 0) ∧
      bayUnitReach (I 0 10 1 0x4000 0) 0 (.dps 0 0x00) = false := ⟨ifu_ready (by decide +kernel), by decide +kernel, by decide +kernel, ifu_ready (by decide +kernel), by decide +kernel⟩
theorem wit_PinAndRegisterWordsHaveTheirEffect_6 :
    IfuReady 10 1 143 (wIfu 10 1 0x5818) (I 143 10 1 0x5818 0x80461A80) ∧ ifuBayName 143 (wIfu 10 1 0x5818) = some (.blk 63 0x00) ∧
      bayUnitReach (I 143 10 1 0x5818 0x80461A80) 143 (.blk 63 0x00) = true ∧ bayRegReach S 15 = none ∧
      fld 0x80461A80#32 20 4 ≤ 4 ∧ fld 0x80461A80#32 0 19 ≤ 400000 := ⟨ifu_ready (by decide +kernel), by decide +kernel⟩
theorem wit_PinAndRegisterWordsHaveTheirEffect_8 :
    let s := awake (I 127 2 0 1 0)
    IfuReady 2 0 127 (wIfu 2 0 1) s ∧ PmuUsable 127 255 s ∧ (s.pin 255).pmu.holder ≠ 3 ∧ bit (s.pin 255).stat 0 = false :=
  ⟨ifu_ready (by decide +kernel), by decide +kernel⟩
theorem wit_PinAndRegisterWordsHaveTheirEffect_9_held :
    let s := (I 127 2 0 1 0).updPin 255 (fun x => { x with pmu := { x.pmu with ctrl := 8 } })
    IfuReady 2 0 127 (wIfu 2 0 1) s ∧ ¬PmuUsable 127 255 s := ⟨ifu_ready (by decide +kernel), by decide +kernel⟩
theorem wit_PinAndRegisterWordsHaveTheirEffect_9_tripped :
    let s := (I 127 2 0 1 0).updPin 255 (fun x => { x with stat := 1 })
    IfuReady 2 0 127 (wIfu 2 0 1) s ∧ (s.pin 255).pmu.mode = 0 ∧ bit (s.pin 255).stat 0 = true := ⟨ifu_ready (by decide +kernel), by decide +kernel⟩
theorem wit_PinAndRegisterWordsHaveTheirEffect_10 :
    let s := I 127 2 1 0 0
    IfuReady 2 1 127 (wIfu 2 1 0) s ∧ PmuUsable 127 (selPin s 127) s ∧ (s.pin (selPin s 127)).pmu.keys = [] := ⟨ifu_ready (by decide +kernel), by decide +kernel⟩
/-- The host holds the PMU of pin 254, which engine 127 has selected. -/
def hostHolds (s : State) : State := s.updPin 254 (fun x => { x with pmu := { x.pmu with ctrl := 8 } })
theorem wit_PinAndRegisterWordsHaveTheirEffect_11 :
    let s := hostHolds (I 127 2 1 0 0)
    IfuReady 2 1 127 (wIfu 2 1 0) s ∧ ¬PmuUsable 127 (selPin s 127) s := ⟨ifu_ready (by decide +kernel), by decide +kernel⟩
theorem wit_PinAndRegisterWordsHaveTheirEffect_12 :
    let s := awake (I 127 2 2 7 6500000)
    IfuReady 2 2 127 (wIfu 2 2 7) s ∧ EngForceReady 127 (wIfu 2 2 7) s ∧ -1500000 ≤ (Arg 127 (wIfu 2 2 7) s).toInt ∧
      (Arg 127 (wIfu 2 2 7) s).toInt ≤ 6500000 := ⟨ifu_ready (by decide +kernel), by decide +kernel⟩
theorem wit_PinAndRegisterWordsHaveTheirEffect_13 :
    let s := I 127 2 2 8 6500001
    IfuReady 2 2 127 (wIfu 2 2 8) s ∧ 7 < fld (wIfu 2 2 8) 0 4 ∧ 6500000 < (Arg 127 (wIfu 2 2 8) s).toInt ∧
      (Arg 127 (wIfu 2 2 8) (I 127 2 2 8 (BitVec.ofInt 32 (-1500001)))).toInt < -1500000 ∧ ¬PmuUsable 127 254 (hostHolds s) :=
  ⟨ifu_ready (by decide +kernel), by decide +kernel⟩
theorem wit_PinAndRegisterWordsHaveTheirEffect_14 :
    let s := awake (I 127 2 3 0 0)
    IfuReady 2 3 127 (wIfu 2 3 0) s ∧ EngForceReady 127 (wIfu 2 3 0) s ∧ -(rangeFs (fld (wIfu 2 3 0) 0 4)) ≤ (Arg 127 (wIfu 2 3 0) s).toInt ∧
      (Arg 127 (wIfu 2 3 0) s).toInt ≤ rangeFs (fld (wIfu 2 3 0) 0 4) := ⟨ifu_ready (by decide +kernel), by decide +kernel⟩
/-- Engine 127's PMU on pin 254 measures. -/
def measures (s : State) (m : BitVec 2) : State := s.updPin 254 (fun x => { x with pmu := { x.pmu with ctrl := BitVec.ofNat 32 (16 * m.toNat + 4) } })
theorem wit_PinAndRegisterWordsHaveTheirEffect_15 :
    let s := measures (I 127 2 4 0xFF00 0) 3
    IfuReady 2 4 127 (wIfu 2 4 0xFF00) s ∧ PmuUsable 127 (selPin s 127) s ∧ (s.pin (selPin s 127)).pmu.mode = 3 ∧
      bit (wIfu 2 4 0xFF00) 0 = false := ⟨ifu_ready (by decide +kernel), by decide +kernel⟩
theorem wit_PinAndRegisterWordsHaveTheirEffect_16 :
    let s := measures (I 127 2 5 0 0) 3
    IfuReady 2 5 127 (wIfu 2 5 0) s ∧ PmuUsable 127 (selPin s 127) s := ⟨ifu_ready (by decide +kernel), by decide +kernel⟩
theorem wit_PinAndRegisterWordsHaveTheirEffect_17 :
    let s := I 127 3 0 7 0
    IfuReady 3 0 127 (wIfu 3 0 7) s ∧ engPin s 127 255 = true ∧ fld (wIfu 3 0 7) 1 2 ≠ 0 ∧ (s.pin 255).tdc.holder ≠ 2 :=
  ⟨ifu_ready (by decide +kernel), by decide +kernel⟩
theorem wit_PinAndRegisterWordsHaveTheirEffect_18 :
    let s := I 127 3 1 1 0
    IfuReady 3 1 127 (wIfu 3 1 1) s ∧ engPin s 127 255 = true ∧ (s.pin 255).tdc.holder ≠ 2 := ⟨ifu_ready (by decide +kernel), by decide +kernel⟩
theorem wit_PinAndRegisterWordsHaveTheirEffect_19 :
    let a : TStamp := { full := 5 }
    let s := (I 127 3 2 1 0).updPin 255 (fun x => { x with tdc := { x.tdc with fifo := [a] } })
    IfuReady 3 2 127 (wIfu 3 2 1) s ∧ engPin s 127 255 = true ∧ (s.pin 255).tdc.holder ≠ 2 ∧ (s.pin 255).tdc.fifo = a :: [] :=
  ⟨ifu_ready (by decide +kernel), by decide +kernel⟩
theorem wit_PinAndRegisterWordsHaveTheirEffect_20 :
    let s := I 127 3 2 1 0
    IfuReady 3 2 127 (wIfu 3 2 1) s ∧ (s.pin 255).tdc.fifo = [] := ⟨ifu_ready (by decide +kernel), by decide +kernel⟩
/-- Site 9 has pin 255; its home is slice 126. -/
def elsewhere (s : State) : State := { s with sites := [(9, { home := 126, pins := [{ pin := 255 }] })] }
theorem wit_PinAndRegisterWordsHaveTheirEffect_20_reach :
    IfuReady 3 2 127 (wIfu 3 2 1) (elsewhere (I 127 3 2 1 0)) ∧ engPin (elsewhere (I 127 3 2 1 0)) 127 255 = false :=
  ⟨ifu_ready (by decide +kernel), by decide +kernel⟩
theorem wit_PinAndRegisterWordsHaveTheirEffect_21 :
    IfuReady 3 3 127 (wIfu 3 3 1) (I 127 3 3 1 0) ∧ engPin (I 127 3 3 1 0) 127 255 = true := ⟨ifu_ready (by decide +kernel), by decide +kernel⟩

/-- Engine 1, whose slice is the home of site 9 in the run `playing`. -/
def H (unit op imm : Nat) (v : Word) : State :=
  (R id).updEng 1 (fun x => { x with state := 1, store := [(0, entryOf (wIfu unit op imm))], sr := [(2, v)] })
theorem wit_SiteCallAndTimerWordsHaveTheirEffect_0_1 :
    IfuReady 4 0 1 (wIfu 4 0 0) (H 4 0 0 0) ∧ homeSite (H 4 0 0 0) 1 = some 9 ∧ IfuReady 4 1 1 (wIfu 4 1 0) (H 4 1 0 0) ∧
      homeSite (H 4 1 0 0) 1 = some 9 := ⟨ifu_ready (by decide +kernel), by decide +kernel, ifu_ready (by decide +kernel), by decide +kernel⟩
theorem wit_SiteCallAndTimerWordsHaveTheirEffect_2 :
    let s := H 4 2 0 5
    IfuReady 4 2 1 (wIfu 4 2 0) s ∧ homeSite s 1 = some 9 ∧ siteAdmitted s 9 = some (4, playing) ∧ (s.slice 1).win.logRate ≠ 0 ∧
      (s.slice 1).win.fifo.length < winFifoMax := ⟨ifu_ready (by decide +kernel), by decide +kernel⟩
theorem wit_SiteCallAndTimerWordsHaveTheirEffect_3_4 :
    IfuReady 5 0 1 (wIfu 5 0 0) (H 5 0 0 0) ∧ homeSite (H 5 0 0 0) 1 = some 9 ∧ IfuReady 5 1 1 (wIfu 5 1 0) (H 5 1 0 0) ∧
      homeSite (H 5 1 0 0) 1 = some 9 := ⟨ifu_ready (by decide +kernel), by decide +kernel, ifu_ready (by decide +kernel), by decide +kernel⟩
theorem wit_SiteCallAndTimerWordsHaveTheirEffect_5 :
    IfuReady 5 2 1 (wIfu 5 2 0) (H 5 2 0 1) ∧ homeSite (H 5 2 0 1) 1 = some 9 ∧ siteAdmitted (takeCommits (H 5 2 0 1)) 9 = some (4, playing) :=
  ⟨ifu_ready (by decide +kernel), by decide +kernel⟩
theorem wit_SiteCallAndTimerWordsHaveTheirEffect_6 :
    IfuReady 5 3 1 (wIfu 5 3 1) (H 5 3 1 0) ∧ homeSite (H 5 3 1 0) 1 = some 9 ∧ siteAdmitted (H 5 3 1 0) 9 = some (4, playing) ∧
      (H 5 3 1 0).run? 4 = some playing := ⟨ifu_ready (by decide +kernel), by decide +kernel⟩
theorem wit_SiteCallAndTimerWordsHaveTheirEffect_7 :
    IfuReady 5 4 1 (wIfu 5 4 0) (H 5 4 0 0) ∧ homeSite (H 5 4 0 0) 1 = some 9 ∧ runOfSite (H 5 4 0 0) 9 = some (4, playing) :=
  ⟨ifu_ready (by decide +kernel), by decide +kernel⟩
theorem wit_SiteCallAndTimerWordsHaveTheirEffect_8_win :
    homeSite S 127 = none ∧ IfuReady 4 0 127 (wIfu 4 0 0) (I 127 4 0 0 0) ∧ IfuReady 4 1 127 (wIfu 4 1 0) (I 127 4 1 0 0) ∧
      IfuReady 4 2 127 (wIfu 4 2 0) (I 127 4 2 0 0) := ⟨by decide +kernel, ifu_ready (by decide +kernel), ifu_ready (by decide +kernel), ifu_ready (by decide +kernel)⟩
theorem wit_SiteCallAndTimerWordsHaveTheirEffect_8_str :
    IfuReady 5 0 127 (wIfu 5 0 0) (I 127 5 0 0 0) ∧ IfuReady 5 1 127 (wIfu 5 1 0) (I 127 5 1 0 0) ∧
      IfuReady 5 2 127 (wIfu 5 2 0) (I 127 5 2 0 0) ∧ IfuReady 5 3 127 (wIfu 5 3 0) (I 127 5 3 0 0) ∧
      IfuReady 5 4 127 (wIfu 5 4 0) (I 127 5 4 0 0) ∧ homeSite (I 127 5 4 0 0) 127 = none :=
  ⟨ifu_ready (by decide +kernel), ifu_ready (by decide +kernel), ifu_ready (by decide +kernel), ifu_ready (by decide +kernel), ifu_ready (by decide +kernel), by decide +kernel⟩
theorem wit_SiteCallAndTimerWordsHaveTheirEffect_9_10 :
    IfuReady 6 0 143 (wIfu 6 0 0) (I 143 6 0 0 0) ∧ IfuReady 6 1 143 (wIfu 6 1 0) (I 143 6 1 0 0) := ⟨ifu_ready (by decide +kernel), ifu_ready (by decide +kernel)⟩
theorem wit_SiteCallAndTimerWordsHaveTheirEffect_11_12 :
    IfuReady 7 0 143 (wIfu 7 0 0x81) (I 143 7 0 0x81 5) ∧ IfuReady 7 1 143 (wIfu 7 1 0) (I 143 7 1 0 0) :=
  ⟨ifu_ready (by decide +kernel), ifu_ready (by decide +kernel)⟩
theorem wit_SiteCallAndTimerWordsHaveTheirEffect_13 :
    ((I 143 8 0 0 0).eng 143).open? = none ∧ IfuReady 8 0 143 (wIfu 8 0 0) (I 143 8 0 0 0) ∧ IfuReady 8 1 143 (wIfu 8 1 0) (I 143 8 1 0 0) ∧
      IfuReady 8 2 143 (wIfu 8 2 0) (I 143 8 2 0 0) := ⟨by decide +kernel, ifu_ready (by decide +kernel), ifu_ready (by decide +kernel), ifu_ready (by decide +kernel)⟩
/-- The open call of engine 143, with one argument left and two results. -/
def opened : OpenCall := { call := call, left := [9], put := [1, 2] }
def O (op imm : Nat) : State := W 143 (wIfu 8 op imm) (fun x => { x with open? := some opened })
theorem wit_SiteCallAndTimerWordsHaveTheirEffect_14_15 :
    ((O 0 0).eng 143).open? = some opened ∧ IfuReady 8 0 143 (wIfu 8 0 0) (O 0 0) ∧ ((O 1 0).eng 143).open? = some opened ∧
      IfuReady 8 1 143 (wIfu 8 1 0) (O 1 0) := ⟨by decide +kernel, ifu_ready (by decide +kernel), by decide +kernel, ifu_ready (by decide +kernel)⟩
theorem wit_SiteCallAndTimerWordsHaveTheirEffect_16 :
    ((O 2 0x1FFFF).eng 143).open? = some opened ∧ IfuReady 8 2 143 (wIfu 8 2 0x1FFFF) (O 2 0x1FFFF) ∧ opened.call.key = cAtBay.key ∧
      Waits k7 (O 2 0x1FFFF) := ⟨by decide +kernel, ifu_ready (by decide +kernel), by decide +kernel, by simp only [runs_iff, buf_iff, NamesPins, NamesPin, PinFree, Blank, HasRoom, Works, Waits, Alone, ← Option.isSome_iff_exists]; decide +kernel⟩
theorem wit_SiteCallAndTimerWordsHaveTheirEffect_17_18 :
    IfuReady 9 0 143 (wIfu 9 0 0) (I 143 9 0 0 100) ∧ IfuReady 9 1 143 (wIfu 9 1 0) (I 143 9 1 0 0) := ⟨ifu_ready (by decide +kernel), ifu_ready (by decide +kernel)⟩


/-! ## Firmware, resets, starts -/

def Boots (f : Boot → Boot) : State := inWork (S.updBoot f)
/-- A slow-path command and another are in progress. -/
def slowWork (s : State) : State := { s with works := [{ key := k7, op := 0x020, started := true }, { key := k8, started := true }] }
theorem wit_FirmwareEventsHaveTheirEffect_0 :
    let s := slowWork (Boots (fun b => { b with switching := true, switchKey := some k7 }))
    s.boot.switching = true ∧ (∃ w ∈ s.works, w.slow = true) ∧ (∃ w ∈ s.works, w.slow = false) ∧ (∀ x ∈ s.journal, x.retry = none) := by decide +kernel
theorem wit_FirmwareEventsHaveTheirEffect_1 :
    let s := slowWork (Boots (fun b => { b with stbyImg := true }))
    s.boot.switching = false ∧ s.serving = true ∧ s.boot.stbyFailed = false ∧ s.boot.stbyImg = true := by decide +kernel
theorem wit_FirmwareEventsHaveTheirEffect_2 :
    let s := Boots (fun b => { b with switching := true, switchKey := some k7 })
    s.boot.switching = true ∧ s.serving = true ∧ s.boot.switchKey = some cZero.key ∧ Waits cZero.key s := by simp only [runs_iff, buf_iff, NamesPins, NamesPin, PinFree, Blank, HasRoom, Works, Waits, Alone, ← Option.isSome_iff_exists]; decide +kernel
theorem wit_FirmwareEventsHaveTheirEffect_3 :
    (Boots (fun b => { b with flashWb := true, fwVer1 := 1 })).boot.flashWb = true ∧ (Boots (fun b => { b with flashWb := true })).boot.flashWb = true := by
  decide +kernel

theorem wit_WarmResetsHaveTheirEffect_0_5 : (F (fun x => { x with dumping := true, warmAfter := true })).flt.dumping = true := by decide +kernel
theorem wit_WarmResetsHaveTheirEffect_1 :
    let s := inWork S
    s.flt.dumping = false ∧ s.powered = true ∧ NoEntries s := by decide +kernel
def resetBusy (held : Bool) : State := Boots (fun b => { b with warmBusy := true, held := held, warmCause := 3 })
theorem wit_WarmResetsHaveTheirEffect_2 :
    let s := resetBusy true
    s.flt.dumping = false ∧ s.boot.coldPend = false ∧ s.boot.warmBusy = true ∧ s.boot.held = true ∧ StoresLoad s := by decide +kernel
theorem wit_WarmResetsHaveTheirEffect_3 :
    let s := resetBusy false
    s.boot.warmBusy = true ∧ s.boot.held = false ∧ s.boot.coldPend = false ∧ StoresLoad s ∧ NoEntries s := by decide +kernel
/-- Power state SL0, with or without retention. -/
def inSl0 (keep : Bool) : State := { S with thm := { S.thm with inSl0 := true, sl0 := if keep then 3 else 1 } }
theorem wit_WarmResetsHaveTheirEffect_4 :
    (inSl0 true).thm.inSl0 = true ∧ (inSl0 true).boot.off = false ∧ bit (inSl0 true).thm.sl0 1 = true ∧ StoresLoad (inSl0 true) ∧
      NoEntries (inSl0 true) := by decide +kernel
theorem wit_ColdStartsHaveTheirEffect_0 : (inWork S).boot.off = false ∧ (inWork S).thm.shutdown = false := by decide +kernel
theorem wit_ColdStartsHaveTheirEffect_1_2 :
    let s := Boots (fun b => { b with coldPend := true, fwVer1 := 2, flashWb := true })
    let u := Boots (fun b => { b with off := true, mcFirstBad := true })
    s.boot.flashOk = true ∧ s.boot.coldPend = true ∧ s.boot.off = false ∧ u.boot.flashOk = true ∧ u.boot.off = true := by decide +kernel
theorem wit_ColdStartsHaveTheirEffect_3 :
    let s := Boots (fun b => { b with coldPend := true, flashOk := false })
    s.boot.flashOk = false ∧ s.boot.coldPend = true := by decide +kernel
theorem wit_ColdStartsHaveTheirEffect_4 :
    S.serving = true ∧ S.boot.sl = 1 ∧ S.boot.calDone = false ∧ S.boot.recovery = false ∧ S.boot.coefNom = false ∧ S.peRail = false := by decide +kernel
theorem wit_ColdStartsHaveTheirEffect_5 :
    (inSl0 false).thm.inSl0 = true ∧ (inSl0 false).boot.off = false ∧ bit (inSl0 false).thm.sl0 1 = false ∧ (inSl0 false).boot.flashOk = true ∧
      (inSl0 false).peRail = false := by decide +kernel

/-! ## The block as a whole -/

theorem wit_RefusedCommandsChangeNothing_0_first :
    (0x000, 1, 0, Instr.devInfo) ∈ hostRowsA ++ hostRowsB ++ hostRowsC ++ hostRowsD ∧ (resetBusy true).serving = false :=
  ⟨.head _, by decide +kernel⟩
theorem wit_RefusedCommandsChangeNothing_0_scope :
    S.serving = true ∧ mayRun 0x000 cAtBay S = true ∧ (S.entry? cAtBay.key).bind (·.retry) = none ∧ cAtBay.target = some (.bay 15) ∧
      1 &&& (Target.bay 15).scopeBit = 0 ∧ cAtBay.params.length = 0 := by decide +kernel
theorem wit_RefusedCommandsChangeNothing_0_length :
    let c := hw 0 0
    S.serving = true ∧ mayRun 0x000 c S = true ∧ (S.entry? c.key).bind (·.retry) = none ∧ c.target = some .device ∧
      1 &&& Target.device.scopeBit ≠ 0 ∧ c.params.length ≠ 0 := by decide +kernel
/-- DEV.INFO with eight bytes of parameters, of queue 3. -/
def pLong : List Byte := packet 0x00000003 0x00010001 7 0 [0, 0, 0, 0, 0, 0, 0, 0]
def again : JEntry := { key := { qid := 3, seq := 7 }, state := 3, jsn := 1, bytes := pLong, retry := some { qid := 0, seq := 9 } }
theorem wit_RefusedCommandsChangeNothing_0_retry :
    let c := pkCmd 0 false pLong
    let s := Q { qOpen with state := 2 } [again]
    s.serving = true ∧ mayRun 0x000 c s = true ∧ s.entry? c.key = some again ∧ again.retry = some { qid := 0, seq := 9 } ∧
      ({ qid := 0, seq := 9 } : Key) ≠ c.key ∧ c.target = some .device ∧ 1 &&& Target.device.scopeBit ≠ 0 ∧ c.params.length ≠ 0 := by decide +kernel
theorem wit_RefusedCommandsChangeNothing_1 :
    let c := hc 0 0 [(8, 12 * 1048576 - 8), (8, 1)]
    let u := takeCommits ((R id).updSlot 11 (fun x => { x with st := 3 }))
    Runs 0x201 1 c .device u ∧ 16 ≤ c.params.length ∧ c.params.length % 8 = 0 ∧ c.u 0 8 % 8 = 0 ∧ c.u 0 8 < grnSize u ∧
      c.u 0 8 / slotSize = 11 ∧ regionOf u 11 = .pattern ∧ c.u 0 8 % slotSize + (c.params.length - 8) ≤ slotSize ∧
      slotFenceCheck u 11 = none ∧ segState u 11 = 3 := by simp only [runs_iff, buf_iff, NamesPins, NamesPin, PinFree, Blank, HasRoom, Works, Waits, Alone, ← Option.isSome_iff_exists]; decide +kernel
theorem wit_RefusedCommandsChangeNothing_1_holder : ∃ e ∈ (R id).runs, e.2.uses 11 = true := ⟨(4, playing), List.mem_singleton.2 rfl, by decide +kernel⟩
theorem wit_RefusedCommandsChangeNothing_2 :
    let s := { H 4 2 0 5 with runs := [] }
    IfuReady 4 2 1 (wIfu 4 2 0) s ∧ homeSite s 1 = some 9 ∧ siteAdmitted s 9 = none := ⟨ifu_ready (by decide +kernel), by decide +kernel⟩
theorem wit_RefusedCommandsChangeNothing_2_rate :
    let s := (H 4 2 0 5).updSlice 1 (fun x => { x with win := { x.win with ctrl := 0 } })
    IfuReady 4 2 1 (wIfu 4 2 0) s ∧ homeSite s 1 = some 9 ∧ (s.slice 1).win.logRate = 0 := ⟨ifu_ready (by decide +kernel), by decide +kernel⟩
theorem wit_StepRunsTheFrontCommand_1 : S.pending = [] := rfl
theorem wit_EveryStepKeepsTheInvariant : S.Inv ∧ (∃ t, step S = .next t) :=
  ⟨⟨by decide +kernel, by decide +kernel, by decide +kernel, by decide +kernel, by decide +kernel⟩, ⟨_, rfl⟩⟩


/-! ## Well-formedness: an ill-formed term for each check -/

theorem test_wf_params : (hc 0 0 []).wf = true ∧ (hc 0 0 [(7, 0)]).wf = false ∧ (hc 0 0 [(4080, 0)]).wf = true ∧
    (hc 0 0 [(4088, 0)]).wf = false := by decide +kernel
theorem test_wf_command : (Instr.devInfo (hc 0 0 [(7, 0)])).wf = false ∧ (Instr.devInfo cZero).wf = true := by decide +kernel
theorem test_wf_agent : (Instr.pinCtrlWrite (.host (hc 0 0 [(1, 0)])) 0 0).wf = false ∧ (Instr.pinCtrlWrite (.engine 0) 0 0).wf = true := by
  decide +kernel
theorem test_wf_scrub : (Instr.scrubPass [{ unit := 32768 * 32768, fatal := false }] false).wf = false ∧
    (Instr.scrubPass [{ unit := 32768 * 32768 - 1, fatal := false }] false).wf = true := by decide +kernel
def msg (ns : BitVec 32) : PtpMsg :=
  { version := 2, domain := 0, srcDev := 3, seqId := 0, twoStep := true, forMe := true, sec := 0, ns := ns, corr := 0 }
theorem test_wf_ptp : (Instr.ptpFollowUpReceive 0 (msg 1000000000)).wf = false ∧ (Instr.ptpFollowUpReceive 0 (msg 999999999)).wf = true := by
  decide +kernel
theorem test_wf_codeword : (Instr.codewordReceive 0 { msg := [], errors := 0 }).wf = false ∧
    (Instr.codewordReceive 0 { msg := List.replicate 514 0, errors := 545 }).wf = false ∧
    (Instr.codewordReceive 0 { msg := List.replicate 514 0, errors := 544 }).wf = true := by decide +kernel
theorem test_wf_train :
    (Instr.portTrained 0 { devid := 1, port := 0, pre := true, laneMap := 0, polInv := 0, skew := 0, credits := [1, 2, 3] }).wf = false := by
  decide +kernel
theorem test_wf_lengths : (Instr.tdcTableCheck 0 []).wf = false ∧ (Instr.sensorSample 5 [0]).wf = false ∧ (Instr.sensorSample 6 [0]).wf = true ∧
    (Instr.doorbell 0 []).wf = false ∧ (Instr.spiDbWrite [] 0).wf = false ∧
    (Instr.vector 0 (List.replicate 65 { zone := 0, exc := false })).wf = false := by decide +kernel
theorem test_no_row_has_bits : decodeTableWord 16 0 = none ∧ S.withFetchWord 16 0 = S := ⟨rfl, rfl⟩
theorem test_step_takes_the_front : (match step { S with pending := [.fltAck cZero, .coldReset] } with
    | .next t => t.pending | _ => []) = [.coldReset] := by decide +kernel

/-! ## Values of the worked examples -/

/-- What a command answers, where it goes on. -/
def after (o : Host.Outcome State Fault Refusal) : State := match o with
  | .next t => t
  | _ => S

/-- The quality words of spec/00_scope.md. -/
theorem test_quality_word : tagWord 3 3 false 0x2A = 0xD800002A#32 ∧ tagWord 2 2 false 0x2A = 0x9000002A#32 := by decide +kernel
/-- CRC-32C of "123456789" (R329). -/
theorem test_crc : crc32c [0x31, 0x32, 0x33, 0x34, 0x35, 0x36, 0x37, 0x38, 0x39] = 0xE3069283#32 := by decide +kernel
/-- The codes of the PAM4 pin (R39). -/
theorem test_dac_codes : [0, 400000, 800000, 1200000, 200000, 600000, 1000000].map codeOfUv =
    [0x3415, 0x3E80, 0x48EB, 0x5355, 0x394B, 0x43B5, 0x4E20] := by decide +kernel
/-- P083's registers lie where the examples say. -/
theorem test_addresses : regAt 0x01290100 = some (.pin 83 0) ∧ regAt 0x01290C00 = some (.timing 83 0) ∧ regAt 0x02204014 = some (.dps 4 0x14) ∧
    regAt 0x02205040 = some (.mon 9 0) ∧ regAt 0x01140220 = some (.pmu 40 0x20) ∧ regAt 0x03200230 = some (.fltAlarm 12) := by decide +kernel
/-- Step 6 of the PAM4 pin: PIN_STAT at zone 1 reads 0x200 after the write of PIN_CTRL. -/
theorem test_pin_ctrl :
    let t := after (exec (.pinCtrlWrite (.host (hw 0x01290120 0x00110009)) 83 0x00110009) S)
    (readReg 1 (.pin 83 0x24) t).1 = 0x200#32 ∧ (readReg 1 (.pin 83 0x20) t).1 = 0x00110009#32 := by decide +kernel
/-- Step 1 of eight symbols: TS_CFG[0] reads its VALID bit. -/
theorem test_ts_cfg :
    let t := after (exec (.devRegWrite (hw 0x01290C00 1)) (S.updPin 83 (fun x => { x with sets := [(0, { drv := 0, stb := 0x100, wcl := 0x100 })] })))
    (readReg 0 (.timing 83 0) t).1 = 0x80000001#32 := by decide +kernel

/-- P083 with its timing set and precoding. -/
def p083 : Pin := { ctrl := 0x00110009#32, stat := 0, stage := .term, symcfg := 3, sets := [(0, { cfg := 1, drv := 0, stb := 0x100, wcl := 0x100 })] }
/-- One vector of P083 in a symbol column. -/
def symVec (x : Pin) (nib z : Nat) (n : Nat) : PinPlay := playPin true nib none 0 (512 * n) { zone := BitVec.ofNat 2 z, exc := false } x
def symRun (x : Pin) : List (Nat × Nat) → Nat → List PinPlay
  | [], _ => []
  | a :: l, n => symVec x a.1 a.2 n :: symRun (symVec x a.1 a.2 n).pin l (n + 1)
/-- The drive table of eight symbols. -/
theorem test_symbols_driven : (symRun p083 [(1, 0), (3, 0), (2, 0), (0, 0), (2, 0), (3, 0), (1, 0), (0, 0)] 0).map (fun z => z.pin.txState.toNat) =
    [1, 1, 2, 2, 1, 1, 0, 0] := by decide +kernel
/-- The compare table: sampled levels, decoded data and fails. -/
theorem test_symbols_compared :
    (symRun p083 [(5, 1), (7, 1), (6, 2), (4, 2), (6, 2), (7, 1), (5, 0), (4, 0)] 0).map (fun z => z.strobe.map (fun s => (s.1, s.2.1))) =
      [(1, false), (3, false), (2, false), (0, false), (0, true), (2, true), (1, false), (0, false)].map some := by decide +kernel
/-- A dropped return at a set change, and one that stays. -/
def rz (ret : Word) : Pin :=
  { ctrl := 0x00110009#32, stat := 0, stage := .openZ
    sets := [(3, { cfg := 0x00010007, drv := 400, ret := ret, stb := 0, wcl := 0 }), (4, { cfg := 3, drv := 0, stb := 0, wcl := 0 })] }
theorem test_edge_drop :
    let o : StrobeObs := { zone := 0, exc := false }
    let run := fun (ret : Word) => let a := playPin false 1 none 3 0 o (rz ret); (playPin false 1 none 4 2048 o a.pin).drop
    run 2100 = true ∧ run 1700 = false ∧ ((rz 2100).tset 3).valid = true := by decide +kernel
/-- Turnaround at D = 4: the first strobe after a release comes too early, the second is not checked. -/
theorem test_turnaround :
    let x : Pin := { ctrl := 0x00010008#32, stat := 0, stage := .openZ, path := 410, sets := [(0, { cfg := 3, drv := 0, stb := 640, wcl := 640 })] }
    let o : StrobeObs := { zone := 0, exc := false }
    let a := playPin false 1 none 0 0 o x
    let b := playPin false 5 none 0 1024 o a.pin
    let c := playPin false 5 none 0 2048 o b.pin
    a.turn = false ∧ b.turn = true ∧ c.turn = false ∧ b.pin.tavcnt = 1 ∧ bit c.pin.stat 6 = true := by decide +kernel
/-- The MISR of the Winnow example. -/
theorem test_misr :
    let a := misrVector 0x8000000000000000#64 [⟨0, 3, false, true⟩, ⟨1, 1, false, true⟩, ⟨2, 0, false, true⟩, ⟨3, 2, false, true⟩]
    a = 0x39#64 ∧ misrVector a [⟨0, 0, false, true⟩, ⟨1, 0, false, true⟩, ⟨2, 3, false, true⟩, ⟨3, 3, false, true⟩] = 0xF0#64 := by decide +kernel
/-- Slot 28,000 lies in the STACK_1 capture region; the site areas of the Winnow example. -/
theorem test_areas : [27807, 27808, 28000, 31903, 31904].map (fun n => decide (regionOf S n = .capture)) = [false, true, true, true, false] ∧
    siteAreaSize 1 4 = 258048 ∧ (258048 - 512) / 32 = 8048 := by decide +kernel
/-- The record of pair 1 of the interval example. -/
theorem test_pair_record : pairRecord false true { full := BitVec.ofNat 80 (0x4000000000 + 410000) } 1 (-3) =
    leBytes 8 0x211 ++ leBytes 8 1 ++ leBytes 8 0xFFFFFFFFFFFFFFFD ++ leBytes 8 0x0000004000064190 := by decide +kernel
/-- The reciprocal frequency. -/
theorem test_frequency : milliHertz 100000 (819201024 * 256) = 0x174874FFB8 := by decide +kernel
/-- A 1588 timestamp of cycle 16,000,001,000. -/
theorem test_ptp_time : toPtp (16000001000 * 256) = (5, 312, 0x8000) := by decide +kernel
/-- The servo of the time example: θ = 100 fine steps over 62.5 ms. -/
theorem test_servo : (readReg 0 (.tim 0x20) (steer 25600 51200000000 S)).1 = 0xFFFFFDA4#32 := by decide +kernel


/-! ## Values of the worked examples: engines -/

/-- The words of the debounced match routine, from address 0x100. -/
def debounce : List MWord :=
  [0x55C00000100440000000000000000190, 0x00000000100600000000000000000008, 0x15E10109000012040000000000000000,
   0x53800000100802000000000000000124, 0x00000000500400000000000000000600, 0x00000000400400000000000000000600,
   0x10600101000000000000000000000000, 0x40000102000000000000000000000000, 0x0000000000000A000000000000000000,
   0x55E0000000000A200000000000000000, 0x70000000000000000000000000000000]
/-- The words of the leakage sweep, from address 0x200. -/
def sweep : List MWord :=
  [0x00000000100810000000000000000000, 0x00000000100830000000000000000000, 0x00000000100A30000000000000000000,
   0x00000000100870000000000000000000, 0x00000000100890000000000000000000, 0x00000000000004008000000000000000,
   0x00010000000004400000000000000002, 0x00000000000012080000000000000000, 0x53800000000004800000000000001001,
   0x54C000001008A4A00000000000000000, 0x000000004350102A0000000000000000, 0x10A0020D000000000000000000000000,
   0x00000000000000004000000000000000, 0x40080206201000000000000000000000, 0x00000000000004200000000000000000,
   0x11400211000000000000000000000000, 0x70000000000000000000000000000000, 0x70000000000010400000000000010001]
theorem test_words_legal : (debounce ++ sweep).all (wordLegal true) = true := by decide +kernel
/-- Word 0x100: WAIT, RUN, MOV, immediate 400 to SR[2]. -/
theorem test_word_100 :
    let w : MWord := 0x55C00000100440000000000000000190
    (mwSeq w, mwCond w, mwAlu w, mwBsel w, mwDst w, mwImm w) = (5, 0x17, 1, 1, 2, 400) := by decide +kernel
/-- Word 0x102: JUMP to 0x109 with CINV and SP; TMR.LOAD of SR[2]. -/
theorem test_word_102 :
    let w : MWord := 0x15E10109000012040000000000000000
    (mwSeq w, mwCond w, mwTgt w, mwIfu w, mwIfop w, mwIfa w) = (1, 0x17, 0x109, 9, 0, 2) ∧ mwCinv w = true ∧ mwSp w = true := by decide +kernel
/-- Word 0x20A: CMP SR[3], SR[5] beside QUE.PUT of SR[5]; word 0x20D: LOOP on LC[1] to 0x206 beside ADD. -/
theorem test_words_20A_20D :
    let a : MWord := 0x000000004350102A0000000000000000
    let b : MWord := 0x40080206201000000000000000000000
    [mwAlu a, mwSa a, mwSb a, mwBsel a, mwIfu a, mwIfop a, mwIfa a] = [4, 3, 5, 0, 8, 1, 5] ∧
      [mwSeq b, mwLcs b, mwTgt b, mwAlu b, mwSa b, mwSb b, mwDst b] = [4, 1, 0x206, 2, 0, 1, 0] := by decide +kernel
/-- The parity of entry 0x104 (R168). -/
theorem test_parity : parityOf 0x00000000500400000000000000000600 = 0xDF ∧ syndrome (entryOf 0x00000000500400000000000000000600) = 0 := by
  decide +kernel
/-- The machine check of S020 after bit 70 of entry 0x104 flipped. -/
theorem test_machine_check :
    let x : Engine := { state := 1, pc := 0x104, store := [(0x104, entryOf 0x00000000500400000000000000000600 ^^^ (1#136 <<< 70))] }
    let t := after (exec (.machineCheck 20) { S with engines := [(20, x)] })
    [0x200, 0x204, 0x208, 0x20C, 0x210, 0x214].map (fun o => (readReg 0 (.eng 20 o) t).1) =
      [0x80040104#32, 0x00000600#32, 0#32, 0x50040040#32, 0#32, 0xDF#32] := by decide +kernel
/-- SUB sets N for a reading above the limit (word 0x20A of the sweep, at its last point). -/
theorem test_cmp_limit :
    let w : MWord := mw [(92, 4), (88, 3), (84, 5)]
    let f := fun (v : Word) => ((after (exec (.aluCmp 20 w) (W 20 w (fun x => { x with sr := [(3, 5000), (5, v)] })))).eng 20).n
    (f 6120, f 3270, f 5000) = (true, false, false) := by decide +kernel
/-- LOOP counts down and falls through at 0 (word 0x107 of the debounced match). -/
theorem test_loop :
    let w : MWord := 0x40000102000000000000000000000000
    let f := fun (v : Word) => let y := (after (exec (.seqLoop 20 w) (W 20 w (fun x => { x with lc := [(0, v)] })))).eng 20; (y.lcv 0, y.pc)
    (f 8, f 1) = ((7, 0x102), (0, 1)) := by decide +kernel

/-! ## Streams -/

/-- The four sites of Sheaf 5, with site 2's second group at the column given. -/
def siteOn (home a na ca b nb cb : Nat) : Site :=
  { home := home, pins := (List.range na).map (fun i => { pin := a + i, col := ca + i }) ++ (List.range nb).map (fun i => { pin := b + i, col := cb + i }) }
def sheaf5 (col : Nat) : State :=
  { S with
    sites := [(0, siteOn 0 0 16 0 16 16 16), (1, siteOn 16 32 16 0 48 16 16), (2, siteOn 32 64 4 0 68 4 col), (3, siteOn 36 72 8 0 80 16 8)]
    sheaves := [(5, 15)], pins := [(0, { sets := [(0, { cfg := 3, stb := 0, wcl := 0 })] })] }
theorem test_sheaf_refused : privGroups (sheaf5 16) [0, 1, 2, 3] 2 4 = 3 ∧ 128 * 4 < 3 * 256 ∧ dMin (sheaf5 16) [0, 1, 2, 3] [{ tset := 0 }] = 4 := by
  decide +kernel
theorem test_sheaf_admitted : (List.range 7).map (privGroups (sheaf5 4) [0, 1, 2, 3] 2) = [1, 1, 1, 1, 2, 2, 0] ∧
    (List.range 7).map (lanesIn (sheaf5 4) [0, 1, 2, 3]) = [1, 1, 1, 1, 1, 2, 0] ∧
    class1Units (sheaf5 4) [0, 1, 2, 3] 2 2 [{ tset := 0 }] = 640 := by decide +kernel
/-- The deadlines of the streamed pattern, in fine steps (1.25 ns are 1,024). By R102 and R132 a commit point is the start of
the row 256 before the last, which is 257 vectors before the end; the example counts 256 (log entry 41). -/
def streamed (least : Nat) (kind : Nat) : Run :=
  { phase := 2, members := [0], sites := [(0, {})], width := 1, begun := true
    loops := [{ sp := 1, sr := 0, ep := 1, er := 131071, kind := kind, least := least, most := 5 }]
    poss := [100, 101, 102, 103, 102].map (fun n => { slot := n, rows := 131072 }) }
def deadlines (r : Run) (p : Nat) : Option Nat :=
  deadlineOf { S with
    runs := [(0, r)], sites := [(0, { home := 0, pins := [{ pin := 0 }] })], pins := [(0, { sets := [(0, { cfg := 3, stb := 0, wcl := 0 })] })] } r p
theorem test_deadlines : deadlines (streamed 5 0) 2 = some (98272 * 8192 - 1024) ∧ deadlines (streamed 5 0) 3 = some (114656 * 8192 - 1024) ∧
    deadlines (streamed 5 0) 4 = some (131040 * 8192 - 1024) ∧ deadlines (streamed 1 1) 2 = some (32736 * 8192 - 1024) := by decide +kernel

/-! ## Power, monitors, heat -/

/-- Site 6's supply and monitor 8 with the short: the trip of step 12. -/
def shorted : State :=
  { S with
    mono := 10000, dps := [(4, { ctrl := 0x000107D0, vset := 18000, ilim := 0x00C82000, stat := 0xA })]
    mons := [(8, { cfg := 0x88282827, thr := 0x27108000, trip := 1, stat := 0x14 })] }
theorem test_trip :
    let t := after (exec (.monAlarm 8 .above) shorted)
    (readReg 0 (.dps 4 0x14) t).1 = 0x00000083#32 ∧ (readReg 0 (.dps 4 0x20) t).1 = 0x00000802#32 := by decide +kernel
/-- VPE_N collapses: DPS_STAT and DPS_TRIPSRC of DPS_4. -/
theorem test_vpe_loss :
    let t := lossOff 8 true { cls := 8, code := Code.peRail } 4 { shorted with mons := [] }
    (readReg 0 (.dps 4 0x14) t).1 = 0x00000183#32 ∧ (readReg 0 (.dps 4 0x20) t).1 = 0x00000008#32 := by decide +kernel
/-- THZ_3 before the sample: in 1/256 °C. -/
def hot : State := S.updZone 3 (fun x => { x with
  temp := 35328, crossed := 7, level := 3, prev := [34355, 34432, 35328, 34496, 34278, 34330, 34458, 34381] })
theorem test_hottest_lost :
    let t := after (exec (.sensorSample 3 [34355, 34432, 45568, 34496, 34278, 34330, 34458, 34381]) hot)
    (readReg 0 (.zone 3 0) t).1 = 0x00008EC0#32 ∧ (t.zone 3).excl = 4 ∧ (t.zone 3).hold = true ∧ (t.source 0x1C8).alarm = true := by decide +kernel
theorem test_caps_and_derating : capOf hot 3 4 = 3 ∧ capOf hot 3 32 = 20 ∧
    (let s := { hot with dps := [(10, { ilim := 0x00C82000 })] }
     [7, 5, 8].map (fun v => effIlim (s.updZone 3 (fun x => { x with s := BitVec.ofNat 4 v })) 10) = [7168, 5120, 8192]) := by decide +kernel

/-! ## PMU, commands, faults, triggers -/

/-- PMU_RES_INFO of the leakage test: 64 samples of current on range 1. -/
theorem test_res_info :
    let s := S.updPin 40 (fun x => { x with pmu := { x.pmu with ctrl := 0x0001011B, stat := 1, measN := 64, measKind := true } })
    (readReg 0 (.pmu 40 0x20) (after (exec (.pmuMeasDone 40 12362 0) s))).1 = 0x00401020#32 := by decide +kernel
/-- PMU.FV on P040 as queue 0x42 sends it. -/
def pFv : List Byte := packet 0x60000042 0x00170001 0x1006 0x80000014 (leBytes 8 0x00325AA000030028)
theorem test_packet : pkOk pFv = true ∧ pkOp pFv = 0x600 ∧ pkKey pFv = { qid := 0x42, seq := 0x1006 } ∧ pkTag pFv = 0x17 ∧
    (pkCmd 0 false pFv).target = some (.slice 20) ∧ (pkCmd 0 false pFv).u 0 2 = 40 ∧ (pkCmd 0 false pFv).u 2 1 = 3 ∧
    (pkCmd 0 false pFv).i 4 4 = 3300000 := by decide +kernel
/-- The engine of S020 holds the PMU: W2 says REFUSED_STATE, PMU_HELD, and in DETAIL the pin (R360, log entry 17). -/
theorem test_pmu_held :
    let s := S.updPin 40 (fun x => { x with stat := 0, pmu := { x.pmu with ctrl := 0x14 } })
    (after (exec (.pmuFv (pkCmd 0 false pFv) false) s)).compl.map (fun r => r.w2) = [0x22000028#32] := by decide +kernel
/-- The completion record of the call that the warm reset ended. -/
def rec1001 : Cpl :=
  { key := { qid := 0x42, seq := 0x1001 }, tag := 0x12, cls := 7, code := BitVec.ofNat 12 Code.resetWarm, w3 := tagWord 3 3 false 0x2A }
theorem test_record : rec1001.bytes.take 16 =
    leBytes 4 0x00120042 ++ leBytes 4 0x1001 ++ leBytes 4 0x700A0000 ++ leBytes 4 0xD800002A := by decide +kernel
/-- Corrected errors in STACK_1: event k = 15 escalates, and the held entry is written at once as SEQ 0x1002. -/
def fineOf (us : Nat) : Full := BitVec.ofNat 80 (0x6000000000 + us * 819200)
theorem test_escalation :
    let e : FEntry := { stamp := fineOf 10, lastStamp := fineOf 140, count := 14, coalesced := true }
    let s := { (S.updFlt (fun f => { f with seq := 0x1002, sources := [(0x184, { c := 15, hold := true, entry := some e })] })) with
      now := fineOf 150, tim := { S.tim with sclk := true } }
    let t := after (exec .faultRecordWrite (raise 0x184 0 0 s))
    t.flt.gleaner.map (fun r => (r.seq, r.stamp, r.srcWord, r.flags, r.count, r.span)) =
      [(0x1002, 0x60007D0000, 0x1184, 0x06, 15, 0xDAC0)] := by decide +kernel
/-- The acquisition of BAY_3 when trigger t3 is taken: RS, the place of record 1, PRE_VALID and FIRST_VALID. -/
def acq3 : Acq := { pre := 1024, post := 2048, nrec := 4, first := 28200, count := 1, group := 2, start := 0x5000000000
                    emptied := 0x5000218000, records := 1, recMissed := 1, recMissStamp := 0x000300000050001CC000, source := 0x0B
                    origin := 0x8C05, rsl := 3, rtq := 3, rce := 0x2A, drawn := 0x5000258000 }
theorem test_record_place : acq3.rs = 6208 ∧ recordAddr acq3 1 = 0x6E2801940 ∧ validRange acq3 512 0x5000258000 = (512, 3072) ∧
    preValid acq3 (validRange acq3 512 0x5000258000) = 512 := by decide +kernel
theorem test_record_header : recordHeader acq3 0x00030000005000258000 0x20 512 (512, 3072) =
    leBytes 8 1 ++ leBytes 8 0x5000258000 ++ leBytes 2 3 ++ [0x20, 0x0B] ++ leBytes 4 0xD800002A ++ leBytes 4 0x200 ++ leBytes 4 0x200 ++
      leBytes 4 1 ++ leBytes 4 0 ++ leBytes 8 0x50001CC000 ++ leBytes 8 0x50001D8000 ++ leBytes 2 3 ++ leBytes 2 0x8C05 ++ leBytes 4 0 := by
  decide +kernel


/-- The sine of the waveform example: AWG_CTRL with BANK left at 1, AMP and FTW. -/
def cDds : Cmd := hc 1 3 [(1, 3), (1, 2), (1, 1), (1, 6), (2, 0), (2, 26214), (2, 0), (2, 0), (4, 0), (8, 10000000000), (8, 819200000000), (8, 0)]
/-- Time is locked. -/
def lockedT (s : State) : State := { s with tim := { s.tim with tq := 3, sclk := true, refPresent := true } }
theorem test_dds :
    let t := after (exec (.anaSource cDds) (lockedT (S.updBay 3 (fun b => { b with awg := { b.awg with ctrl := 0x18 } }))))
    [0x0, 0xC, 0x10, 0x14].map (fun o => (readReg 0 (.awg 3 o) t).1) = [0x0022011B#32, 0x6666#32, 0xCCCCCCCD#32, 0xCC#32] := by decide +kernel
/-- DEV_BOOT after the warm reset by RST_N. -/
theorem test_dev_boot : (readReg 0 (.boot 0) { S with boot := { S.boot with sl := 3, cause := 2 } }).1 = 0xC2020000#32 := by decide +kernel
/-- THM_ZONE_STAT[3] at 350 ms. -/
theorem test_zone_stat : (readReg 0 (.zone 3 4) (S.updZone 3 (fun x =>
      { x with temp := 36544, crossed := 0x7F, level := 7, hold := true, s := 5, excl := 4, eventAt := some 100 }))).1 = 0x00050714#32 := by
  decide +kernel
/-- The exchange of the time example: TIM_TRIM, TIM_OFFSET and the path delay of 80 ns. -/
theorem test_exchange :
    let t := takeExchange 2 0 (65636 * 256) 1000000 (1000000 + 65436 * 256) (lockedT S)
    (readReg 0 (.tim 0x20) t).1 = 0xFFFFFDA4#32 ∧ (readReg 0 (.tim 0x24) t).1 = 0x64#32 ∧ (t.tport 2).delays = [65536 * 256] ∧ t.tim.tq = 3 := by
  decide +kernel
/-- UE[1] and PATH_STEP[2] in one ECLK cycle: two records, the snapshot, FAULT_N and the alarms. -/
theorem test_same_cycle :
    let s := raise 0x1B1 0 0 (raise 0x186 0 0 { lockedT (S.updFlt (fun f => { f with seq := 0x1004 })) with now := 0x606 })
    let u := after (exec .faultRecordWrite (after (exec .faultRecordWrite s)))
    u.flt.gleaner.map (fun r => (r.seq.toNat, r.srcWord, r.flags.toNat)) = [(0x1004, 0x2186, 0x11), (0x1005, 0x11B1, 0x01)] ∧
      (readReg 0 (.flt 0x4) u).1 = 0xF0000064#32 ∧ (readReg 0 (.flt 0xC) u).1 = 0xC0000000#32 ∧
      (readReg 0 (.fltAlarm 12) u).1 = 0x40#32 ∧ (readReg 0 (.fltAlarm 13) u).1 = 0x20000#32 := by decide +kernel
/-- The FAIL record of run index 70,000. -/
theorem test_fail_record : failRecord false false [⟨5, 0, true, false⟩, ⟨9, 0, true, false⟩] 0 70000 0x120445C000 =
    leBytes 8 0x20001 ++ leBytes 8 0x11170 ++ leBytes 8 0x120445C000 ++ leBytes 8 0x220 := by decide +kernel

end Sys2Proof.Tests
end

section
/-!
PROOFS. Refused commands change nothing: the rows of the host commands refuse through `runCmd`, GRN.WRITE of an ACTIVE segment and
WIN.MARK through the checks that name the state.
-/
namespace Sys2Proof.Machine

/-! ## The rows of the host commands -/

/-- The instruction of a host command takes the row's opcode, scopes and length of parameters: it makes the checks of `runCmd`, the
length of the parameters first of all that follow the scope (R357 to R359). -/
def TakesRow (r : Nat × Nat × Nat × (Cmd → Instr)) : Prop :=
  ∀ c s, ∃ (rest state : State → Target → List (Option Reason)) (effect : Target → State → State),
    exec (r.2.2.2 c) s =
      .next (runCmd { op := r.1, scopes := r.2.1 } c (fun s t => lenCheck c r.2.2.1 :: rest s t) state effect s)

/-- A row whose instruction has the meaning `d` takes it when `d` is a `runCmd` with its opcode, scopes and length. -/
theorem TakesRow.of_meaning {r : Nat × Nat × Nat × (Cmd → Instr)} {d : Cmd → State → State}
    {rest state : Cmd → State → State → Target → List (Option Reason)} {effect : Cmd → State → Target → State → State}
    (hd : ∀ c s, d c s = runCmd { op := r.1, scopes := r.2.1 } c (fun s' t => lenCheck c r.2.2.1 :: rest c s s' t)
      (state c s) (effect c s) s)
    (he : ∀ c s, exec (r.2.2.2 c) s = .next (d c s)) : TakesRow r :=
  fun c s => ⟨rest c s, state c s, effect c s, (he c s).trans (congrArg _ (hd c s))⟩

theorem hostRowsA_take : ∀ r ∈ hostRowsA, TakesRow r := by
  simp only [List.forall_mem_cons]
  exact ⟨.of_meaning doDevInfo.eq_def fun _ _ => rfl,
    .of_meaning doDevRegWrite.eq_def fun _ _ => rfl,
    .of_meaning doDevResetSlice.eq_def fun _ _ => rfl,
    .of_meaning doDevResetBay.eq_def fun _ _ => rfl,
    .of_meaning doDevResetWarm.eq_def fun _ _ => rfl,
    .of_meaning doDevFwStage.eq_def fun _ _ => rfl,
    .of_meaning doDevFwSwitch.eq_def fun _ _ => rfl,
    .of_meaning doQueCreate.eq_def fun _ _ => rfl,
    .of_meaning doQueDelete.eq_def fun _ _ => rfl,
    .of_meaning doQueResume.eq_def fun _ _ => rfl,
    .of_meaning doQueStatus.eq_def fun _ _ => rfl,
    .of_meaning doQueCqCreate.eq_def fun _ _ => rfl,
    .of_meaning doQueCqDelete.eq_def fun _ _ => rfl,
    .of_meaning doGrnRead.eq_def fun _ _ => rfl,
    .of_meaning doGrnSegStatus.eq_def fun _ _ => rfl,
    .of_meaning doGrnCapFree.eq_def fun _ _ => rfl,
    .of_meaning doStrSite.eq_def fun _ _ => rfl,
    .of_meaning doStrSiteRelease.eq_def fun _ _ => rfl,
    .of_meaning doStrSheaf.eq_def fun _ _ => rfl,
    .of_meaning doStrStart.eq_def fun _ _ => rfl,
    List.forall_mem_nil _⟩

theorem hostRowsB_take : ∀ r ∈ hostRowsB, TakesRow r := by
  simp only [List.forall_mem_cons]
  exact ⟨.of_meaning doStrStop.eq_def fun _ _ => rfl,
    .of_meaning doStrStatus.eq_def fun _ _ => rfl,
    .of_meaning doEngStoreMaster.eq_def fun _ _ => rfl,
    .of_meaning doEngReload.eq_def fun _ _ => rfl,
    .of_meaning doPinLevels.eq_def fun _ _ => rfl,
    .of_meaning doPinThresh.eq_def fun _ _ => rfl,
    .of_meaning doPinLoad.eq_def fun _ _ => rfl,
    .of_meaning doPinClamp.eq_def fun _ _ => rfl,
    .of_meaning doPinCtrl.eq_def fun _ _ => rfl,
    .of_meaning doPinTset.eq_def fun _ _ => rfl,
    .of_meaning doPmuMeas.eq_def fun _ _ => rfl,
    .of_meaning doPmuDisc.eq_def fun _ _ => rfl,
    .of_meaning doTdcCapture.eq_def fun _ _ => rfl,
    .of_meaning doTdcInterval.eq_def fun _ _ => rfl,
    .of_meaning doTdcFreq.eq_def fun _ _ => rfl,
    .of_meaning doTdcStop.eq_def fun _ _ => rfl,
    .of_meaning doTdcCalRead.eq_def fun _ _ => rfl,
    .of_meaning doPwrOn.eq_def fun _ _ => rfl,
    .of_meaning doPwrOff.eq_def fun _ _ => rfl,
    .of_meaning doPwrSet.eq_def fun _ _ => rfl,
    List.forall_mem_nil _⟩

theorem hostRowsC_take : ∀ r ∈ hostRowsC, TakesRow r := by
  simp only [List.forall_mem_cons]
  exact ⟨.of_meaning doPwrGang.eq_def fun _ _ => rfl,
    .of_meaning doAnaLoad.eq_def fun _ _ => rfl,
    .of_meaning doAnaSource.eq_def fun _ _ => rfl,
    .of_meaning doAnaSourceStop.eq_def fun _ _ => rfl,
    .of_meaning doAnaSpan.eq_def fun _ _ => rfl,
    .of_meaning doAnaCapture.eq_def fun _ _ => rfl,
    .of_meaning doAnaCaptureStop.eq_def fun _ _ => rfl,
    .of_meaning doTrgArm.eq_def fun _ _ => rfl,
    .of_meaning doTrgDisarm.eq_def fun _ _ => rfl,
    .of_meaning doTrgFire.eq_def fun _ _ => rfl,
    .of_meaning doTrgAcquire.eq_def fun _ _ => rfl,
    .of_meaning doTrgAcqStop.eq_def fun _ _ => rfl,
    .of_meaning doTimSet.eq_def fun _ _ => rfl,
    .of_meaning doTimTci.eq_def fun _ _ => rfl,
    .of_meaning doTimSyncCal.eq_def fun _ _ => rfl,
    .of_meaning doTimRelease.eq_def fun _ _ => rfl,
    .of_meaning doTimAsym.eq_def fun _ _ => rfl,
    .of_meaning doTimStatus.eq_def fun _ _ => rfl,
    .of_meaning doLnkTrain.eq_def fun _ _ => rfl,
    .of_meaning doLnkPort.eq_def fun _ _ => rfl,
    List.forall_mem_nil _⟩

theorem hostRowsD_take : ∀ r ∈ hostRowsD, TakesRow r := by
  simp only [List.forall_mem_cons]
  exact ⟨.of_meaning doLnkMcast.eq_def fun _ _ => rfl,
    .of_meaning doLnkStatus.eq_def fun _ _ => rfl,
    .of_meaning doFltAck.eq_def fun _ _ => rfl,
    .of_meaning doFltSource.eq_def fun _ _ => rfl,
    .of_meaning doFltRead.eq_def fun _ _ => rfl,
    .of_meaning doFltAlarms.eq_def fun _ _ => rfl,
    .of_meaning doFltAlarmClr.eq_def fun _ _ => rfl,
    .of_meaning doFltSnapRelease.eq_def fun _ _ => rfl,
    .of_meaning doThmStatus.eq_def fun _ _ => rfl,
    .of_meaning doThmBaySleep.eq_def fun _ _ => rfl,
    .of_meaning doThmBayWake.eq_def fun _ _ => rfl,
    .of_meaning doThmBayPin.eq_def fun _ _ => rfl,
    .of_meaning doThmVinMode.eq_def fun _ _ => rfl,
    .of_meaning doThmTdLimit.eq_def fun _ _ => rfl,
    .of_meaning doObsTrace.eq_def fun _ _ => rfl,
    .of_meaning doObsCounters.eq_def fun _ _ => rfl,
    List.forall_mem_nil _⟩

/-! ## What refusing a command leaves -/

/-- A scope that the entry does not list, or one that W3 spells wrongly, fails the scope check (R345, R358). -/
theorem scopeCheck_eq_some {f : Form} {c : Cmd} (h : ∀ tg, c.target = some tg → f.scopes &&& tg.scopeBit = 0) :
    scopeCheck f c = some (rFormat Code.scope) := by
  unfold scopeCheck
  split
  · rfl
  · rename_i tg htg
    simp [when?, h tg htg]

theorem scopeCheck_eq_none {f : Form} {c : Cmd} {tg : Target} (ht : c.target = some tg) (h : f.scopes &&& tg.scopeBit ≠ 0) :
    scopeCheck f c = none := by
  simp [scopeCheck, ht, h]

theorem lenCheck_eq_some {c : Cmd} {n : Nat} (h : c.params.length ≠ n) : lenCheck c n = some (rFormat Code.paramLen) := by
  simp [lenCheck, when?, h]

/-- A command of a device that serves none, or one that has ended or not begun, has no effect (R342, R357, R491). -/
theorem runCmd_idle {f : Form} {c : Cmd} {s : State} (format state : State → Target → List (Option Reason))
    (effect : Target → State → State) (h : s.serving = false ∨ mayRun f.op c s = false) :
    runCmd f c format state effect s = s := by
  unfold runCmd
  rw [if_neg]
  rintro ⟨h1, h2⟩
  rcases h with h | h
  · simp [h] at h1
  · simp [h] at h2

/-- The first check that fails refuses the command, in the state with its work begun. -/
theorem runCmd_refuses {f : Form} {c : Cmd} {s : State} {format state : State → Target → List (Option Reason)}
    {effect : Target → State → State} {r : Reason} (h : s.serving = true) (hm : mayRun f.op c s = true)
    (hf : let tg := c.target.getD .device; let u := s.withWorks (begun f.op c tg s)
      firstFail ([scopeCheck f c] ++ format u tg ++ [roleCheck f c, recoveryCheck f u] ++ state u tg) = some r) :
    runCmd f c format state effect s = refuse c.key r (s.withWorks (begun f.op c (c.target.getD .device) s)) := by
  obtain ⟨W, w, hb, -, -⟩ := beginWork_spec f.op c ((c.target.getD .device).bays s) s
  have hb' : beginWork f.op c ((c.target.getD .device).bays s) s = s.withWorks (begun f.op c (c.target.getD .device) s) := by
    rw [begun, hb]; rfl
  unfold runCmd
  rw [if_pos ⟨h, hm⟩]
  dsimp only at hf ⊢
  rw [hb', hf]

/-- A command that runs and passes its format checks is refused by the first check of the state that fails (R350, R359). -/
theorem runCmd_refuses_state {f : Form} {c : Cmd} {tg : Target} {s : State} {format state : State → Target → List (Option Reason)}
    {effect : Target → State → State} {r : Reason} (h : Runs f.op f.scopes c tg s)
    (hf : firstFail (format (s.withWorks (begun f.op c tg s)) tg) = none)
    (hs : firstFail (state (s.withWorks (begun f.op c tg s)) tg) = some r) :
    runCmd f c format state effect s = refuse c.key r (s.withWorks (begun f.op c tg s)) := by
  have htg : c.target.getD .device = tg := by rw [h.target]; rfl
  have hscope : scopeCheck f c = none := scopeCheck_eq_none h.target h.scope
  have hrole : roleCheck f c = none := by
    rcases h.role with h | h <;> simp [roleCheck, h]
  have hfirm : recoveryCheck f (s.withWorks (begun f.op c tg s)) = none := by
    rcases h.firmware with h | h | h <;> simp [recoveryCheck, h]
  rw [runCmd_refuses (r := r) h.serving h.started, htg]
  rw [htg]
  simp only [firstFail_append, firstFail_cons, firstFail_nil, hscope, hrole, hfirm, hf, hs, Option.none_or]

/-- What the completion record of a refused command holds (R344, R350). -/
theorem mkCpl_refused {s : State} {w : Work} {r : Reason} {w6 w7 : Word} {data : List Byte} (h : r.cls ≠ 0) :
    (mkCpl s w r.cls r.code r.detail w6 w7 data).cls = BitVec.ofNat 4 r.cls ∧
      (mkCpl s w r.cls r.code r.detail w6 w7 data).code = BitVec.ofNat 12 r.code := by
  simp [mkCpl, h]

/-- A refusal changes only the books and the queues. -/
theorem refuse_bookQ (k : Key) (r : Reason) (s : State) : refuse k r s = bookQ (refuse k r s) s := complete_bookQ ..

/-- Refusing a command that is no retried execution ends it in one record, with the reason, W6 and W7; beside the books only its queue
may change, and that only in class REFUSED_STATE (R350). -/
theorem refuse_ended {k : Key} {r : Reason} {s : State} {w : Work} (hw : s.work? k = some w)
    (hr : (s.entry? k).bind (·.retry) = none) (hc : r.cls ≠ 0) :
    EndedWith k r.cls r.code r.detail s (refuse k r s) ∧
      (∃ x, (refuse k r s).compl = s.compl ++ [x] ∧ x.w6 = BitVec.ofNat 32 r.w6 ∧ x.w7 = BitVec.ofNat 32 r.w7) ∧
      (BitVec.ofNat 4 r.cls ≠ 2 → refuse k r s = book (refuse k r s) s) := by
  obtain ⟨t, ht, hb, hW, hcm⟩ := complete_spec (cls := r.cls) (code := r.code) (detail := r.detail)
    (w6 := BitVec.ofNat 32 r.w6) (w7 := BitVec.ofNat 32 r.w7) (data := []) hw hr
  obtain ⟨hcls, hcode⟩ := mkCpl_refused (s := s) (w := w) (w6 := BitVec.ofNat 32 r.w6) (w7 := BitVec.ofNat 32 r.w7) (data := []) hc
  have hk : w.key = k := by simpa using List.find?_some hw
  have hu : ∃ q, refuse k r s = { t with queues := q } := by
    unfold refuse
    rw [ht]
    split
    · exact ⟨_, rfl⟩
    · exact ⟨t.queues, rfl⟩
  have hwk : t.work? k = none := by
    unfold State.work?
    rw [hW]; exact find_dropped _ _
  refine ⟨?_, ?_, ?_⟩
  · obtain ⟨q, hq⟩ := hu
    rw [hq]
    exact ⟨hwk, _, hcm, hk, hcls, hcode, rfl⟩
  · obtain ⟨q, hq⟩ := hu
    rw [hq]
    exact ⟨_, hcm, rfl, rfl⟩
  · intro h2
    have : refuse k r s = t := by
      unfold refuse
      rw [ht, if_neg (by rwa [hcls])]
    rw [this]; exact hb

theorem find_dropped_of_none {W : List Work} {k : Key} (k' : Key) (h : W.find? (fun w => w.key == k) = none) :
    (W.filter (fun w => w.key != k')).find? (fun w => w.key == k) = none := by
  rw [List.find?_eq_none] at h ⊢
  exact fun w hw => h w (List.mem_filter.1 hw).1

/-- Refusing an execution that QUE.RESUME began, other than in class REFUSED_STATE: one record is added, of that QUE.RESUME and with the
reason; both works are over, and of the queues that of the execution alone may change, which reopens (R351). -/
theorem refuse_retried_spec {k rk : Key} {r : Reason} {s : State} {w : Work} (hw : s.work? k = some w)
    (hr : (s.entry? k).bind (·.retry) = some rk) (hc : r.cls ≠ 0) (h2 : BitVec.ofNat 4 r.cls ≠ 2) :
    ∃ u x, refuse k r s = u.updQueue k.qid.toNat (fun q => if q.state = 2 then { q with state := 1 } else q) ∧ u = book u s ∧
      u.works = (s.works.filter (fun w => w.key != k)).filter (fun w => w.key != rk) ∧ u.compl = s.compl ++ [x] ∧ x.key = rk ∧
      x.cls = BitVec.ofNat 4 r.cls ∧ x.code = BitVec.ofNat 12 r.code := by
  have h0 : s.workOf k = w := by simp [State.workOf, hw]
  obtain ⟨hcls, hcode⟩ := mkCpl_refused (s := s) (w := w) (w6 := BitVec.ofNat 32 r.w6) (w7 := BitVec.ofNat 32 r.w7) (data := []) hc
  unfold refuse complete
  dsimp only
  rw [h0, hr, if_neg (by rw [hw]; exact Bool.false_ne_true)]
  generalize mkCpl s w r.cls r.code r.detail (BitVec.ofNat 32 r.w6) (BitVec.ofNat 32 r.w7) [] = x at hcls hcode ⊢
  dsimp only
  rw [if_neg (by rwa [hcls])]
  generalize hv : traceCommand 2 k w.op.toNat (((s.entry? k).map (·.jsn)).getD 0) x.w2
    (count (if w.op.toNat ∈ slowOpcodes then 697 else 696) 1 (dropWork k s)) = v
  have hbv : v = book v s := by subst hv; exact book_trans (trace_book ..) rfl
  obtain ⟨hwv, hcv⟩ : v.works = s.works.filter (fun w => w.key != k) ∧ v.compl = s.compl := by subst hv; exact trace_works ..
  generalize hx : ({ x with key := rk, tag := (v.workOf rk).tag, src := (v.workOf rk).src } : Cpl) = x'
  obtain ⟨jb, jw, jc⟩ := journalCpl_spec x' (dropWork rk (v.updEntry k fun e => { e with retry := none }))
  refine ⟨_, x', rfl, book_trans jb (book_trans (u := v) rfl hbv), ?_, jc.trans ?_, by rw [← hx], by rw [← hx, ← hcls],
    by rw [← hx, ← hcode]⟩
  · rw [jw, ← hwv]; rfl
  · rw [← hcv]; rfl

/-- What is left of a refused execution of QUE.RESUME: neither command is in progress, the queue of the execution has reopened if it was
halted (R351). -/
theorem refuse_retried {k rk : Key} {r : Reason} {s : State} {w : Work} (hw : s.work? k = some w)
    (hr : (s.entry? k).bind (·.retry) = some rk) (hc : r.cls ≠ 0) (h2 : BitVec.ofNat 4 r.cls ≠ 2) :
    (refuse k r s).work? rk = none ∧ (refuse k r s).work? k = none ∧
      (∃ x, (refuse k r s).compl = s.compl ++ [x] ∧ x.key = rk ∧ x.cls = BitVec.ofNat 4 r.cls ∧ x.code = BitVec.ofNat 12 r.code) ∧
      ∀ q, (refuse k r s).queue q =
        if q = k.qid.toNat ∧ (s.queue q).state = 2 then { s.queue q with state := 1 } else s.queue q := by
  obtain ⟨u, x, hu, hb, hW, hcm, hx⟩ := refuse_retried_spec hw hr hc h2
  have hqueue : ∀ q, u.queue q = s.queue q := fun q => by rw [hb]; rfl
  rw [hu]
  refine ⟨?_, ?_, ⟨x, hcm, hx⟩, fun q => ?_⟩
  · show u.works.find? _ = none
    rw [hW]; exact find_dropped _ _
  · show u.works.find? _ = none
    rw [hW]; exact find_dropped_of_none rk (find_dropped _ _)
  · rw [State.updQueue_queue, hqueue, hqueue]
    by_cases h : q = k.qid.toNat
    · subst h; simp
    · simp [h]

/-! ## What a row refuses before anything else -/

/-- A row's scope and the length of its parameters are checked before anything else (R358, R359). -/
theorem TakesRow.refuses {r : Nat × Nat × Nat × (Cmd → Instr)} (hrow : TakesRow r) {c : Cmd} {s : State} {q : Reason}
    (hs : s.serving = true) (hm : mayRun r.1 c s = true)
    (hq : (scopeCheck { op := r.1, scopes := r.2.1 } c).or (lenCheck c r.2.2.1) = some q) :
    exec (r.2.2.2 c) s = .next (refuse c.key q (s.withWorks (begun r.1 c (c.target.getD .device) s))) := by
  obtain ⟨rest, state, effect, hx⟩ := hrow c s
  refine hx.trans (congrArg _ (runCmd_refuses hs hm ?_))
  simp only [firstFail_append, firstFail_cons, firstFail_nil, Option.or_none, Option.or_assoc]
  rw [← Option.or_assoc, hq]
  rfl

theorem TakesRow.idle {r : Nat × Nat × Nat × (Cmd → Instr)} (hrow : TakesRow r) {c : Cmd} {s : State}
    (h : s.serving = false ∨ mayRun r.1 c s = false) : exec (r.2.2.2 c) s = .next s := by
  obtain ⟨rest, state, effect, hx⟩ := hrow c s
  exact hx.trans (congrArg _ (runCmd_idle _ _ _ h))

/-- A format refusal of a row's command that is no retried execution ends it, and only the books change. -/
theorem TakesRow.ended {r : Nat × Nat × Nat × (Cmd → Instr)} (hrow : TakesRow r) {c : Cmd} {s : State} {code : Nat}
    (hs : s.serving = true) (hm : mayRun r.1 c s = true) (hr : (s.entry? c.key).bind (·.retry) = none)
    (hq : (scopeCheck { op := r.1, scopes := r.2.1 } c).or (lenCheck c r.2.2.1) = some (rFormat code)) :
    ∃ t, exec (r.2.2.2 c) s = .next t ∧ EndedWith c.key 3 code 0 s t ∧ t = book t s := by
  obtain ⟨w, hw, -⟩ := begun_find r.1 c (c.target.getD .device) s
  obtain ⟨hend, -, hb⟩ := refuse_ended (r := rFormat code) hw hr (show 3 ≠ 0 by decide)
  exact ⟨_, hrow.refuses hs hm hq, hend, hb (by simp [rFormat])⟩

/-- A format refusal of a row's command that QUE.RESUME executes again ends that QUE.RESUME and reopens the queue (R351). -/
theorem TakesRow.retried {r : Nat × Nat × Nat × (Cmd → Instr)} (hrow : TakesRow r) {c : Cmd} {s : State} {code : Nat} {rk : Key}
    (hs : s.serving = true) (hm : mayRun r.1 c s = true) (hr : (s.entry? c.key).bind (·.retry) = some rk)
    (hq : (scopeCheck { op := r.1, scopes := r.2.1 } c).or (lenCheck c r.2.2.1) = some (rFormat code)) :
    ∃ t x, exec (r.2.2.2 c) s = .next t ∧ t.work? rk = none ∧ t.work? c.key = none ∧ t.compl = s.compl ++ [x] ∧ x.key = rk ∧
      x.cls = 3 ∧ x.code = BitVec.ofNat 12 code ∧ t = bookQ t s ∧
      ∀ q, t.queue q = if q = c.qid.toNat ∧ (s.queue q).state = 2 then { s.queue q with state := 1 } else s.queue q := by
  obtain ⟨w, hw, -⟩ := begun_find r.1 c (c.target.getD .device) s
  obtain ⟨hrk, hk, ⟨x, hcm, hkey, hcls, hcode⟩, hqueue⟩ :=
    refuse_retried (r := rFormat code) hw hr (show 3 ≠ 0 by decide) (by simp [rFormat])
  exact ⟨_, x, hrow.refuses hs hm hq, hrk, hk, hcm, hkey, hcls, hcode, refuse_bookQ .., hqueue⟩

/-! ## GRN.WRITE of an ACTIVE segment -/

/-- The stream that W7 of the refusal names holds the slot, where one does (R97). -/
theorem holderOf_spec {s : State} {slot : Nat} (h : ∃ e ∈ s.runs, e.2.uses slot = true) :
    ∃ e ∈ s.runs, e.2.uses slot = true ∧ holderOf s slot = e.1 := by
  obtain ⟨e, he⟩ := Option.isSome_iff_exists.1 (List.find?_isSome (p := fun e : Nat × Run => e.2.uses slot).2 h)
  exact ⟨e, List.mem_of_find?_eq_some he, by simpa using List.find?_some he, by simp [holderOf, he]⟩

@[simp] theorem regionOf_withWorks (s : State) (W : List Work) (slot : Nat) : regionOf (s.withWorks W) slot = regionOf s slot := rfl
@[simp] theorem slotFenceCheck_withWorks (s : State) (W : List Work) (slot : Nat) :
    slotFenceCheck (s.withWorks W) slot = slotFenceCheck s slot := rfl
@[simp] theorem segState_withWorks (s : State) (W : List Work) (slot : Nat) : segState (s.withWorks W) slot = segState s slot := rfl
@[simp] theorem holderOf_withWorks (s : State) (W : List Work) (slot : Nat) : holderOf (s.withWorks W) slot = holderOf s slot := rfl

/-- A write of an ACTIVE segment is refused with the slot and the stream that holds it, once the waiting commit points are taken (R97,
R223). -/
theorem grnWrite_active {c : Cmd} {s u : State} {tg : Target} {slot : Nat} (hu : takeCommits s = u) (hslot : c.u 0 8 / slotSize = slot)
    (h : Runs 0x201 1 c tg u) (hlen : 16 ≤ c.params.length) (hmod : c.params.length % 8 = 0) (haddr : c.u 0 8 % 8 = 0)
    (hsize : c.u 0 8 < grnSize u) (hregion : regionOf u slot = .pattern)
    (hcross : c.u 0 8 % slotSize + (c.params.length - 8) ≤ slotSize) (hfence : slotFenceCheck u slot = none)
    (hactive : segState u slot = 3) :
    exec (.grnWrite c) s = .next (refuse c.key { cls := 2, code := Code.segActive, w6 := slot, w7 := holderOf u slot }
      (u.withWorks (begun 0x201 c tg u))) := by
  subst hu hslot
  refine congrArg Host.Outcome.next ?_
  unfold doGrnWrite
  refine runCmd_refuses_state (f := { op := 0x201, scopes := 1 }) h ?_ ?_
  · have hsize' : ∀ W, decide (grnSize ((takeCommits s).withWorks W) ≤ c.u 0 8) = false :=
      fun _ => decide_eq_false (Nat.not_le.2 hsize)
    simp [hmod, haddr, hsize', hregion, hcross, hlen]
  · simp [firstFail_cons, hfence, hactive, when?]

/-! ## The first cycle of a word -/

theorem advanceMono_spec (t : Nat) (s : State) :
    advanceMono t s = { s with now := s.now + BitVec.ofNat 80 (max s.mono t - s.mono), mono := max s.mono t } := by
  unfold advanceMono
  split
  · rename_i h
    rw [Nat.max_eq_right (Nat.le_of_lt h), advance, Nat.add_sub_cancel' (Nat.le_of_lt h)]
  · rename_i h
    rw [Nat.max_eq_left (Nat.le_of_not_lt h), Nat.sub_self, BitVec.add_zero]

theorem timerCatch_of_calm {e : Nat} {s : State} (h : Calm e s.mono s) : timerCatch e s = s := by
  obtain ⟨htimer, -⟩ := h
  unfold timerCatch
  rw [if_neg]
  rintro ⟨h0, hle⟩
  rcases htimer with h | h
  · exact h0 h
  · exact absurd hle (Nat.not_le.2 h)

theorem groupCatch_of_calm {e : Nat} {s : State} (h : Calm e s.mono s) : groupCatch e s = s := by
  obtain ⟨-, hgroup⟩ := h
  unfold groupCatch
  rw [if_neg]
  intro hc
  rw [Bool.and_eq_true, decide_eq_true_eq] at hc
  exact absurd hc.2 (Nat.not_le.2 (hgroup hc.1))

/-- A condition reads neither the time nor the effect group of the engine (R154). -/
theorem condOf_of_time_group {s u : State} {e : Nat} (w : MWord) {g : Bool} {a : Nat}
    (hu : u = { s with engines := u.engines, now := u.now, mono := u.mono })
    (he : u.eng e = { s.eng e with group := g, groupAt := a }) : condOf u e w = condOf s e w := by
  have hpin : ∀ p, u.pin p = s.pin p := fun p => by rw [hu]; rfl
  have htrg : ∀ k, u.trg k = s.trg k := fun k => by rw [hu]; rfl
  have hslice : ∀ n, u.slice n = s.slice n := fun n => by rw [hu]; rfl
  have hrun : runCond u e = runCond s e := by rw [hu]; rfl
  have hmon : monCond u e = monCond s e := by rw [hu]; rfl
  have hboot : u.boot = s.boot := by rw [hu]
  simp only [condOf, condSource, selPin, he, hpin, htrg, hslice, hrun, hmon, hboot]
  rfl

/-- The engine once the first cycle of a word has opened its effect group. -/
def openGroup (w : MWord) (m : Nat) (x : Engine) : Engine :=
  if mwEg w = 1 ∧ x.group = false then { x with group := true, groupAt := m } else x

theorem openGroup_eq (w : MWord) (m : Nat) (x : Engine) :
    openGroup w m x =
      { x with group := x.group || mwEg w == 1, groupAt := if mwEg w = 1 ∧ x.group = false then m else x.groupAt } := by
  unfold openGroup
  split
  · rename_i h; simp [h.1]
  · rename_i h
    have hg : (x.group || mwEg w == 1) = x.group := by cases hx : x.group <;> simp_all
    rw [hg]

/-- The engine once the condition and the counter of a word are taken in its first cycle. -/
def takeFirst (w : MWord) (cond : Bool) (x : Engine) : Engine :=
  { x with
    cur := some { cond := cond, lc := x.lcv (mwLcs w), aluDone := mwAlu w == 0, ifDone := mwIfu w == 0 }, waiting := false }

/-- What beginning a word does where neither the timer nor the open group ends first and no WAIT holds: time reaches the word's first
cycle, and the engine alone changes. -/
theorem beginWord_fresh {e : Nat} {w : MWord} {s : State} (hcur : (s.eng e).cur = none)
    (hcalm : Calm e (max s.mono (s.eng e).nextAt) s) (hcond : mwSeq w = 5 → condOf s e w = true) :
    beginWord e w s =
      ((advanceMono (s.eng e).nextAt s).updEng e (openGroup w (max s.mono (s.eng e).nextAt))).updEng e (takeFirst w (condOf s e w)) := by
  have hmono : (advanceMono (s.eng e).nextAt s).mono = max s.mono (s.eng e).nextAt := by rw [advanceMono_spec]
  have hcalm' : Calm e (advanceMono (s.eng e).nextAt s).mono (advanceMono (s.eng e).nextAt s) := by
    rw [advanceMono_spec]; exact hcalm
  have hc : condOf ((advanceMono (s.eng e).nextAt s).updEng e (openGroup w (max s.mono (s.eng e).nextAt))) e w = condOf s e w :=
    condOf_of_time_group w (by rw [advanceMono_spec]; rfl) (by rw [State.updEng_eng_same, openGroup_eq, advanceMono_spec]; rfl)
  have hgo : ¬(mwSeq w = 5 ∧ condOf s e w = false) := fun ⟨h5, hf⟩ => by simp [hcond h5] at hf
  unfold beginWord
  rw [hcur, if_neg (by simp)]
  dsimp only
  rw [timerCatch_of_calm hcalm', groupCatch_of_calm hcalm', hmono]
  show State.updEng (State.updEng _ e (openGroup w _)) e (fun x =>
    if mwSeq w = 5 ∧ condOf (State.updEng _ e (openGroup w _)) e w = false then _
    else takeFirst w (condOf (State.updEng _ e (openGroup w _)) e w) x) = _
  rw [hc]
  simp only [if_neg hgo]

/-- A word that may begin or go on is begun by `beginWord`, and the begun word is the engine's present one. -/
theorem beginWord_begun {e : Fin 144} {w : MWord} {s : State} (h : WordReady false e w s) :
    ∃ c, Begun e w s (beginWord e.val w s) c ∧ ((beginWord e.val w s).eng e.val).cur = some c := by
  obtain ⟨-, hnew, -⟩ := h
  cases hcur : (s.eng e.val).cur with
  | some c =>
    have hb : beginWord e.val w s = s := by unfold beginWord; rw [hcur]; rfl
    rw [hb]
    exact ⟨c, .inl ⟨hcur, rfl⟩, hcur⟩
  | none =>
    obtain ⟨hcalm, hcond⟩ := hnew hcur
    rw [beginWord_fresh hcur hcalm hcond, advanceMono_spec]
    refine ⟨{ cond := condOf s e.val w, lc := (s.eng e.val).lcv (mwLcs w), aluDone := mwAlu w == 0, ifDone := mwIfu w == 0 },
      .inr ⟨hcur, rfl, rfl, rfl, ?_, fun i hi => ?_, rfl⟩, ?_⟩
    · rw [State.updEng_eng_same, State.updEng_eng_same, openGroup_eq]; rfl
    · rw [State.updEng_eng_other _ hi, State.updEng_eng_other _ hi]; rfl
    · rw [State.updEng_eng_same, State.updEng_eng_same, openGroup_eq]; rfl

/-! ## The interface acts -/

/-- A word at which the interface may act next: the operation acts on the begun word (R152). -/
theorem ifuRow_acts {unit op : Nat} {vis : Bool} {f : State → Word × State} {e : Fin 144} {w : MWord} {s : State}
    (h : IfuReady unit op e w s) (hunit : unit ≠ 0) (hop : op < unitOps (isSliceEng e.val) unit) :
    ∃ c, Begun e w s (beginWord e.val w s) c ∧
      ifuRow unit op vis f e.val w s =
        (f (beginWord e.val w s)).2.updEng e.val (fun x =>
          { x with
            cur := some { c with ret := (f (beginWord e.val w s)).1, ifDone := true }
            partialFx := x.partialFx || (vis && x.state == 1) }) := by
  obtain ⟨hword, hifu, hifop, -, hnew, hold⟩ := h
  obtain ⟨c, hb, hc⟩ := beginWord_begun hword
  have hready : ifReady w c = true := by
    unfold ifReady takesRet
    rcases hb with ⟨hcur, -⟩ | ⟨hcur, -, -, rfl, -⟩
    · obtain ⟨hif, halu⟩ := hold c hcur
      rcases halu with halu | ⟨hsel, halu⟩
      · simp [hif, halu]
      · simp [hif, hsel, halu]
    · have hif : (mwIfu w == 0) = false := by simp [hifu, hunit]
      rcases hnew hcur with halu | hsel
      · simp [hif, halu]
      · by_cases halu : mwAlu w = 0 <;> simp [hif, hsel, halu]
  refine ⟨c, hb, ?_⟩
  unfold ifuRow
  rw [if_pos ⟨hword.1, hifu, hifop, hop⟩]
  dsimp only
  rw [hc]
  dsimp only
  rw [if_pos hready]

/-- An operation that acts, with what it returns and the state it gives: the frame of `IfuActs`. -/
theorem ifuActs_of_row {unit op : Nat} {vis : Bool} {f : State → Word × State} {e : Fin 144} {w : MWord} {s : State}
    {i : Fin 144 → BitVec 128 → Instr} {P : State → Word → State → Prop} (hi : exec (i e w) s = .next (ifuRow unit op vis f e.val w s))
    (h : IfuReady unit op e w s) (hunit : unit ≠ 0) (hop : op < unitOps (isSliceEng e.val) unit)
    (hP : ∀ c, Begun e w s (beginWord e.val w s) c →
      P (beginWord e.val w s) (f (beginWord e.val w s)).1 (f (beginWord e.val w s)).2) : IfuActs i vis e w s P := by
  obtain ⟨c, hb, hrow⟩ := ifuRow_acts (vis := vis) (f := f) h hunit hop
  refine ⟨_, beginWord e.val w s, c, (f (beginWord e.val w s)).1, (f (beginWord e.val w s)).2, hi, hb, hP c hb, ?_, ?_, ?_⟩
  · rw [hrow, State.updEng_eng_same]
  · intro i hi
    rw [hrow, State.updEng_eng_other _ hi]
  · rw [hrow]; rfl

/-- Beginning a word changes the engines and the time alone. -/
theorem begunWord_frame {e : Fin 144} {w : MWord} {s u : State} {c : WordCur} (h : Begun e w s u c) :
    u = { s with engines := u.engines, now := u.now, mono := u.mono } := by
  rcases h with ⟨-, rfl⟩ | ⟨-, -, -, -, -, -, hu⟩
  · rfl
  · exact hu

/-- WIN.MARK without an admitted run on the home site, or with LOGRATE 0, is refused (R223). -/
theorem winMark_refuses {s u : State} {e x : Nat} {w : MWord} (hu : u = { s with engines := u.engines, now := u.now, mono := u.mono })
    (hhome : homeSite s e = some x) (h : siteAdmitted s x = none ∨ (s.slice e).win.logRate = 0) :
    onHome e (winMark w e) u = ifuNo e u := by
  have hhome' : homeSite u e = some x := by rw [← hhome, hu]; rfl
  have hadm : siteAdmitted u x = siteAdmitted s x := by rw [hu]; rfl
  have hslice : u.slice e = s.slice e := by rw [hu]; rfl
  unfold onHome winMark
  rw [hhome']
  dsimp only
  rw [hadm, hslice]
  cases hrun : siteAdmitted s x with
  | none => rfl
  | some r =>
    rcases h with h | h
    · rw [hrun] at h; cases h
    · exact if_pos h

/-- A WIN.MARK that is refused sets REFUSE alone (R159, R223). -/
theorem ifuWinMark_refuses {e : Fin 144} {w : MWord} {s : State} {x : Nat} (hready : IfuReady 4 2 e w s)
    (hhome : homeSite s e.val = some x) (h : siteAdmitted s x = none ∨ (s.slice e.val).win.logRate = 0) :
    IfuActs .ifuWinMark true e w s (Refuses e) := by
  obtain ⟨-, -, -, hunit, -⟩ := id hready
  have hslice : isSliceEng e.val = true := decide_eq_true (hunit (by decide))
  refine ifuActs_of_row (f := onHome e.val (winMark w e.val)) rfl hready (by decide) (by rw [hslice]; decide) fun c hb => ?_
  rw [winMark_refuses (begunWord_frame hb) hhome h]
  exact ⟨rfl, rfl⟩

/-! ## The statement -/

/-- Every row of the four lists of host commands is taken by its instruction. -/
theorem hostRows_take : ∀ r ∈ hostRowsA ++ hostRowsB ++ hostRowsC ++ hostRowsD, TakesRow r := by
  simp only [List.forall_mem_append]
  exact ⟨⟨⟨hostRowsA_take, hostRowsB_take⟩, hostRowsC_take⟩, hostRowsD_take⟩

/-- Settles O56: each row's command is refused by its first failing check, of which the scope and the length come first; GRN.WRITE and
WIN.MARK are refused by the check of the state that the statement names. -/
theorem refusedCommandsChangeNothing : Obligations.RefusedCommandsChangeNothing := by
  refine ⟨fun r hr c s => ?_, ?_, fun e w x s => ifuWinMark_refuses⟩
  · have hrow := hostRows_take r hr
    refine ⟨hrow.idle, fun hs hm hr hscope _ => ?_, fun tg hs hm hr ht hscope hlen => ?_,
      fun tg e rk hs hm he hrk _ ht hscope hlen => ?_⟩
    · exact hrow.ended hs hm hr (by rw [scopeCheck_eq_some hscope]; rfl)
    · exact hrow.ended hs hm hr (by rw [scopeCheck_eq_none ht hscope, lenCheck_eq_some hlen]; rfl)
    · exact hrow.retried hs hm (by rw [he]; exact hrk) (by rw [scopeCheck_eq_none ht hscope, lenCheck_eq_some hlen]; rfl)
  · intro c s tg u slot hruns hlen hmod haddr hsize hregion hcross hfence hactive
    obtain ⟨w, hw, -⟩ := begun_find 0x201 c tg u
    obtain ⟨hend, ⟨x, hcm, h6, h7⟩, -⟩ := refuse_ended
      (r := { cls := 2, code := Code.segActive, w6 := slot, w7 := holderOf u slot }) hw hruns.once (show 2 ≠ 0 by decide)
    refine ⟨_, x, grnWrite_active rfl rfl hruns hlen hmod haddr hsize hregion hcross hfence hactive, hend, hcm, h6, fun hheld => ?_,
      by rw [refuse_bookQ]; rfl, refuse_bookQ ..⟩
    obtain ⟨e, he, huses, hno⟩ := holderOf_spec hheld
    exact ⟨e, he, huses, by rw [h7, hno]⟩

end Sys2Proof.Machine
end

section
/-!
PROOFS. The ALU's part of a microword (R155, R156): the destination, the flags, what each operation computes, and the part as a whole.
-/
namespace Sys2Proof.Machine

/-! ## Reserved codes -/

/-- A store takes no word with a reserved ALU code (R151, R155). -/
theorem wordLegal_false_of_alu {slice : Bool} {w : MWord} (h : 12 ≤ mwAlu w) : wordLegal slice w = false := by
  have halu : decide (mwAlu w ≤ 11) = false := decide_eq_false (by omega)
  simp [wordLegal, halu]

/-- A store takes no word with a reserved destination (R151, R156). -/
theorem wordLegal_false_of_dst {slice : Bool} {w : MWord} (h : 20 ≤ mwDst w) : wordLegal slice w = false := by
  have hdst : decide (mwDst w ≤ 0x13) = false := decide_eq_false (by omega)
  simp [wordLegal, hdst]

/-! ## The registers of an engine -/

@[simp] theorem Engine.setSr_srv (x : Engine) (i k : Nat) (v : Word) : (x.setSr i v).srv k = if k = i then v else x.srv k :=
  Tab.get_set ..
@[simp] theorem Engine.setSr_lcv (x : Engine) (i k : Nat) (v : Word) : (x.setSr i v).lcv k = x.lcv k := rfl
@[simp] theorem Engine.setLc_lcv (x : Engine) (i k : Nat) (v : Word) : (x.setLc i v).lcv k = if k = i then v else x.lcv k :=
  Tab.get_set ..
@[simp] theorem Engine.setLc_srv (x : Engine) (i k : Nat) (v : Word) : (x.setLc i v).srv k = x.srv k := rfl

/-! ## The destination (R156) -/

theorem aluDest_srv (w : MWord) (v : Word) (x : Engine) (k : Nat) :
    (aluDest w v x).srv k = if mwDst w = k ∧ k < 16 then v else x.srv k := by
  unfold aluDest
  split
  case isTrue h =>
    have hk : k = mwDst w ↔ mwDst w = k ∧ k < 16 := by omega
    rw [Engine.setSr_srv]
    simp only [hk]
  case isFalse h => rw [Engine.setLc_srv, if_neg (by omega)]

theorem aluDest_lcv (w : MWord) (v : Word) (x : Engine) (k : Nat) :
    (aluDest w v x).lcv k = if mwDst w = 16 + k then v else x.lcv k := by
  unfold aluDest
  split
  case isTrue h => rw [Engine.setSr_lcv, if_neg (by omega)]
  case isFalse h =>
    have hk : k = mwDst w - 16 ↔ mwDst w = 16 + k := by omega
    rw [Engine.setLc_lcv]
    simp only [hk]

/-- Writing the destination changes the registers and the loop counters alone. -/
theorem aluDest_frame (w : MWord) (v : Word) (x : Engine) :
    aluDest w v x = { x with sr := (aluDest w v x).sr, lc := (aluDest w v x).lc } := by
  unfold aluDest
  split <;> rfl

/-! ## The effect on the engine (R155) -/

theorem aluWrite_srv (store : Bool) (w : MWord) (o : AluOut) (c : WordCur) (x : Engine) (k : Nat) :
    (aluWrite store w o c x).srv k = if store = true ∧ mwDst w = k ∧ k < 16 then o.res else x.srv k := by
  cases store with
  | false => rfl
  | true =>
    refine (aluDest_srv ..).trans ?_
    simp only [true_and]
    rfl

theorem aluWrite_lcv (store : Bool) (w : MWord) (o : AluOut) (c : WordCur) (x : Engine) (k : Nat) :
    (aluWrite store w o c x).lcv k = if store = true ∧ mwDst w = 16 + k then o.res else x.lcv k := by
  cases store with
  | false => rfl
  | true =>
    refine (aluDest_lcv ..).trans ?_
    simp only [true_and]
    rfl

/-- Beside the registers, the ALU writes the flags and notes in the word that it has acted. -/
theorem aluWrite_frame (store : Bool) (w : MWord) (o : AluOut) (c : WordCur) (x : Engine) :
    aluWrite store w o c x =
      { x with
        z := o.res == 0, n := o.res.msb, c := o.c, v := o.v
        sr := (aluWrite store w o c x).sr, lc := (aluWrite store w o c x).lc
        cur := some { c with aluDone := true, aluLc := store && mwDst w == 16 + mwLcs w } } := by
  rw [BitVec.msb_eq_getLsbD_last]
  cases store with
  | false => rfl
  | true => exact aluDest_frame ..

/-! ## The ALU acts -/

/-- A word at which the ALU may act next: the operation acts on the begun word (R152). -/
theorem aluRow_acts {code : Nat} {store : Bool} {g : Word → Word → AluOut} {e : Fin 144} {w : MWord} {s : State}
    (h : AluReady code e w s) (hcode : code ≠ 0) :
    ∃ c, Begun e w s (beginWord e.val w s) c ∧
      aluRow code store g e.val w s =
        (beginWord e.val w s).updEng e.val (fun x => aluWrite store w (g (x.srv (mwSa w)) (aluB w x c.ret)) c x) := by
  obtain ⟨hword, halu, hnew, hold⟩ := h
  obtain ⟨c, hb, hc⟩ := beginWord_begun hword
  have hready : aluReady w c = true := by
    unfold aluReady takesRet
    rcases hb with ⟨hcur, -⟩ | ⟨hcur, -, -, rfl, -⟩
    · obtain ⟨hdone, hret⟩ := hold c hcur
      by_cases hsel : mwBsel w = 2
      · simp [hdone, hret hsel]
      · simp [hdone, hsel]
    · have hdone : (mwAlu w == 0) = false := by simp [halu, hcode]
      by_cases hsel : mwBsel w = 2
      · simp [hdone, hnew hcur hsel]
      · simp [hdone, hsel]
  refine ⟨c, hb, ?_⟩
  unfold aluRow
  rw [if_pos ⟨hword.1, halu⟩]
  dsimp only
  rw [hc]
  dsimp only
  rw [if_pos hready]

/-- An instruction that is the ALU's part with the operation `g` has the effect `AluRow` of every `f` that says what `g` computes. -/
theorem aluRow_of_result {i : Fin 144 → BitVec 128 → Instr} {code : Nat} {store : Bool} {g : Word → Word → AluOut}
    {f : Word → Word → Word × Bool × Bool} (hi : ∀ e w s, exec (i e w) s = .next (aluRow code store g e.val w s)) (hcode : code ≠ 0)
    (hf : ∀ a b, f a b = ((g a b).res, (g a b).c, (g a b).v)) : AluRow i code store f := by
  intro e w s hready
  obtain ⟨c, hb, hrow⟩ := aluRow_acts (store := store) (g := g) hready hcode
  have heng := congrArg (fun t => t.eng e.val) hrow
  simp only [State.updEng_eng_same] at heng
  refine ⟨_, beginWord e.val w s, c, _, _, _, hi e w s, hb, rfl, rfl, (hf _ _).symm, ?_, fun k => ?_, fun k => ?_, fun j hj => ?_, ?_⟩
  · rw [heng]; exact aluWrite_frame ..
  · rw [heng]; exact aluWrite_srv ..
  · rw [heng]; exact aluWrite_lcv ..
  · rw [hrow, State.updEng_eng_other _ hj]
  · rw [hrow]; rfl

/-! ## What the operations compute (R155) -/

/-- A number does not survive the wrap to 32 bits exactly when it is no signed word. -/
theorem bmod_ne_self_iff (n : Int) : (n.bmod (2 ^ 32) != n) = decide (n < -(2 ^ 31) ∨ 2 ^ 31 ≤ n) := by
  rw [Bool.eq_iff_iff, bne_iff_ne, decide_eq_true_iff, ne_eq, Int.bmod_eq_iff (by decide)]
  omega

/-- The sum, its carry out and its signed overflow. -/
theorem aluSum_spec (a b : Word) :
    (BitVec.ofNat 32 (a.toNat + b.toNat), decide (2 ^ 32 ≤ a.toNat + b.toNat),
      decide (a.toInt + b.toInt < -(2 ^ 31) ∨ 2 ^ 31 ≤ a.toInt + b.toInt)) = ((aluSum a b).res, (aluSum a b).c, (aluSum a b).v) := by
  have hres : BitVec.ofNat 32 (a.toNat + b.toNat) = a + b := rfl
  have hv : ((a + b).toInt != a.toInt + b.toInt) = decide (a.toInt + b.toInt < -(2 ^ 31) ∨ 2 ^ 31 ≤ a.toInt + b.toInt) := by
    rw [BitVec.toInt_add, bmod_ne_self_iff]
  rw [aluSum, hres, hv]

/-- The difference, no borrow and its signed overflow. -/
theorem aluDiff_spec (a b : Word) :
    (BitVec.ofInt 32 (a.toInt - b.toInt), decide (b.toNat ≤ a.toNat),
      decide (a.toInt - b.toInt < -(2 ^ 31) ∨ 2 ^ 31 ≤ a.toInt - b.toInt)) = ((aluDiff a b).res, (aluDiff a b).c, (aluDiff a b).v) := by
  have hres : BitVec.ofInt 32 (a.toInt - b.toInt) = a - b := by
    apply BitVec.eq_of_toInt_eq
    rw [BitVec.toInt_ofInt, BitVec.toInt_sub]
  have hv : ((a - b).toInt != a.toInt - b.toInt) = decide (a.toInt - b.toInt < -(2 ^ 31) ∨ 2 ^ 31 ≤ a.toInt - b.toInt) := by
    rw [BitVec.toInt_sub, bmod_ne_self_iff]
  rw [aluDiff, hres, hv]

/-- A shift takes B[4:0]. -/
theorem fld_zero_five (b : Word) : fld b 0 5 = b.toNat % 32 := rfl

theorem ofNat_mul_two_pow (a : Word) (n : Nat) : BitVec.ofNat 32 (a.toNat * 2 ^ n) = a <<< n := by
  apply BitVec.eq_of_toNat_eq
  rw [BitVec.toNat_ofNat, BitVec.toNat_shiftLeft, Nat.shiftLeft_eq]

theorem ofNat_div_two_pow (a : Word) (n : Nat) : BitVec.ofNat 32 (a.toNat / 2 ^ n) = a >>> n := by
  apply BitVec.eq_of_toNat_eq
  rw [BitVec.toNat_ofNat, BitVec.toNat_ushiftRight, Nat.shiftRight_eq_div_pow]
  exact Nat.mod_eq_of_lt (Nat.lt_of_le_of_lt (Nat.div_le_self ..) a.isLt)

theorem ofInt_div_two_pow (a : Word) (n : Nat) : BitVec.ofInt 32 (a.toInt / 2 ^ n) = a.sshiftRight n := by
  rw [← BitVec.ofInt_toInt (x := a.sshiftRight n), BitVec.toInt_sshiftRight, Int.shiftRight_eq_div_pow]
  norm_cast

theorem ofInt_mul_toInt (a b : Word) : BitVec.ofInt 32 (a.toInt * b.toInt) = a * b := by
  rw [BitVec.ofInt_mul, BitVec.ofInt_toInt, BitVec.ofInt_toInt]

/-! ## The statement -/

/-- ALU NOP begins the word and does nothing else. -/
theorem aluNop_begins {e : Fin 144} {w : MWord} {s : State} (h : WordReady false e w s) (halu : mwAlu w = 0) :
    ∃ t c, exec (.aluNop e w) s = .next t ∧ Begun e w s t c := by
  obtain ⟨c, hb, -⟩ := beginWord_begun h
  exact ⟨_, c, congrArg Host.Outcome.next (if_pos ⟨h.1, halu⟩), hb⟩

/-- Settles O50: reserved codes are in no legal word, NOP only begins the word, and each of the other operations is the one ALU part
with what that operation computes. -/
theorem aluWordsHaveTheirEffect : Obligations.AluWordsHaveTheirEffect := by
  refine ⟨fun slice w h => h.elim wordLegal_false_of_alu wordLegal_false_of_dst, fun e w s => aluNop_begins, ?mov, ?add, ?sub, ?cmp,
    ?and, ?or, ?xor, ?shl, ?shr, ?sar, ?mul⟩
  case mov | and | or | xor => exact aluRow_of_result (fun _ _ _ => rfl) (by decide) fun _ _ => rfl
  case add => exact aluRow_of_result (fun _ _ _ => rfl) (by decide) aluSum_spec
  case sub | cmp => exact aluRow_of_result (fun _ _ _ => rfl) (by decide) aluDiff_spec
  case shl =>
    exact aluRow_of_result (fun _ _ _ => rfl) (by decide) fun a b => by rw [ofNat_mul_two_pow, fld_zero_five]
  case shr =>
    exact aluRow_of_result (fun _ _ _ => rfl) (by decide) fun a b => by rw [ofNat_div_two_pow, fld_zero_five]
  case sar =>
    exact aluRow_of_result (fun _ _ _ => rfl) (by decide) fun a b => by rw [ofInt_div_two_pow, fld_zero_five]
  case mul => exact aluRow_of_result (fun _ _ _ => rfl) (by decide) fun a b => by rw [ofInt_mul_toInt]

end Sys2Proof.Machine
end
